-- ==== Sys2Proof/Word.lean ====
section
/-!
DEFINITION. Bytes, addresses and the plainest arithmetic of the manual: big-endian fields under R16
and counters that stay at their largest value.
-/
namespace Sys2Proof

/-- One byte, as a frame, an image or a log page holds it. -/
abbrev Byte := BitVec 8

/-- A sequence of bytes, lowest offset first. -/
abbrev Bytes := List Byte

/-- A 48-bit Ethernet address; the first octet on the wire is bits 47 to 40. -/
abbrev Mac := BitVec 48

/-- A 32-bit IPv4 address, first octet in bits 31 to 24. -/
abbrev Ip4 := BitVec 32

/-- A 128-bit IPv6 address, first octet in bits 127 to 120. -/
abbrev Ip6 := BitVec 128

/-- One byte holding the low eight bits of a number. -/
def byte (n : Nat) : Byte := BitVec.ofNat 8 n

/-- The number that a big-endian byte sequence holds (R16). -/
def beNat (l : Bytes) : Nat := l.foldl (fun a b => a * 256 + b.toNat) 0

/-- The low `8 n` bits of a number as `n` big-endian bytes (R16). -/
def beBytes : Nat → Nat → Bytes
  | 0, _ => []
  | n + 1, v => byte (v / 256 ^ n) :: beBytes n v

/-- `n` bytes from offset `off`; shorter where the sequence ends. -/
def slice (off n : Nat) (b : Bytes) : Bytes := (b.drop off).take n

/-- The big-endian field of `n` bytes at `off`, absent when it does not lie wholly inside. -/
def fieldAt? (off n : Nat) (b : Bytes) : Option Nat :=
  if off + n ≤ b.length then some (beNat (slice off n b)) else none

/-- The big-endian field of `n` bytes at `off`; bytes beyond the end count as absent. -/
def fieldAt (off n : Nat) (b : Bytes) : Nat := beNat (slice off n b)

/-- `n` zero bytes: a reserved field as it is written (R19). -/
def zeros (n : Nat) : Bytes := List.replicate n 0

/-- `b` cut or zero-padded to exactly `n` bytes. -/
def padTo (n : Nat) (b : Bytes) : Bytes := b.take n ++ zeros (n - b.length)

/-- `v` as an `n`-byte two's complement big-endian field. -/
def beInt (n : Nat) (v : Int) : Bytes := beBytes n (v % (256 ^ n : Nat)).toNat

/-- The signed reading of an `n`-byte field value. -/
def signExtend (n : Nat) (v : Nat) : Int :=
  if v < 2 ^ (8 * n - 1) then (v : Int) else (v : Int) - (2 ^ (8 * n) : Nat)

/-- Bit `k` of a number. -/
def bit (v k : Nat) : Bool := v.testBit k

/-- A condition as a one-bit value. -/
def bitOf (c : Bool) : Nat := if c then 1 else 0

/-- The largest value of a 32-bit counter. -/
def max32 : Nat := 0xFFFFFFFF

/-- A 32-bit counter that stays at its largest value (R176). -/
def satAdd32 (a n : Nat) : Nat := min (a + n) max32

/-- One more on a 32-bit counter that stays at its largest value. -/
def inc32 (a : Nat) : Nat := satAdd32 a 1

/-- A value held between two bounds. -/
def clampInt (lo hi v : Int) : Int := max lo (min hi v)

/-- A value held within signed 32 bits. -/
def sat32 (v : Int) : Int := clampInt (-2147483648) 2147483647 v

/-- The smallest multiple of `m` not below `n`. -/
def roundUp (n m : Nat) : Nat := (n + m - 1) / m * m

/-- Element `i` of a list replaced by `f` of it; the list is unchanged where there is none. -/
def modifyAt {α : Type} (i : Nat) (f : α → α) : List α → List α
  | [] => []
  | x :: xs => match i with
    | 0 => f x :: xs
    | k + 1 => x :: modifyAt k f xs

/-- The first element satisfying `p` replaced by `f` of it. -/
def modifyFirst {α : Type} (p : α → Bool) (f : α → α) : List α → List α
  | [] => []
  | x :: xs => if p x then f x :: xs else x :: modifyFirst p f xs

/-- The last `n` elements of a list, in order. -/
def lastN {α : Type} (n : Nat) (l : List α) : List α := l.drop (l.length - n)

/-- Sum of a list of numbers. -/
def natSum (l : List Nat) : Nat := l.foldl (· + ·) 0

/-- Insertion by a key, after every element whose key is not greater. -/
def insertByKey {α : Type} (key : α → Nat) (a : α) : List α → List α
  | [] => [a]
  | x :: xs => if key x ≤ key a then x :: insertByKey key a xs else a :: x :: xs

/-- A stable sort by a numeric key. -/
def sortByKey {α : Type} (key : α → Nat) (l : List α) : List α :=
  l.foldl (fun acc a => insertByKey key a acc) []

/-- Division rounded to nearest, a half rounded up. -/
def divRound (a b : Nat) : Nat := (a + b / 2) / b

end Sys2Proof
end

