-- ==== Sys2Proof/Syntax/Catalogue.lean ====
section
/-!
DEFINITION. The configuration field catalogue (chapter 6, catalogue version 0x0001): one structure for each
record class, with the catalogue's names and defaults, and the whole configuration in use.
-/
namespace Sys2Proof.Machine

/-- The two parts of the series (R4); the number is the part's TARGET_PART code of Table 5-2. -/
inductive Part where
  | ekv5240 | ekv5480
  deriving DecidableEq, Repr

/-- The two Ethernet ports. -/
inductive Port where
  | A | B
  deriving DecidableEq, Repr

/-- One value for each port. -/
structure PerPort (α : Type) where
  a : α
  b : α
  deriving DecidableEq, Repr

/-- IDENTITY, Table 6-1 (R135). -/
structure IdentityCfg where
  /-- `ID_CELL_ID` -/
  cellId : Nat := 0
  /-- `ID_MAC_BASE`; 0 selects the factory address -/
  macBase : Nat := 0
  /-- `ID_STATION_NAME`, 32 bytes as one big-endian value -/
  stationName : Nat := 0
  deriving DecidableEq, Repr

/-- PORT, Table 6-2 (R136). -/
structure PortCfg where
  /-- `LINK_x_SPEED`: 0 autonegotiate, 1 forced 100BASE-TX, 2 forced 10BASE-Te -/
  speed : Nat := 0
  /-- `LINK_x_PREEMPT` -/
  preempt : Nat := 1
  /-- `LINK_x_EXPRESS_TC` -/
  expressTc : Nat := 0xE0
  /-- `LINK_x_MAX_FRAME` -/
  maxFrame : Nat := 1522
  deriving DecidableEq, Repr

/-- BRIDGE, Table 6-3 (R137). -/
structure BridgeCfg where
  /-- `NET_PVID` -/
  pvid : Nat := 1
  /-- `NET_LEARN` -/
  learn : Nat := 1
  /-- `NET_PAUSE_ENABLE` -/
  pauseEnable : Nat := 1
  /-- `NET_PAUSE_HIGH_PCT` -/
  pauseHighPct : Nat := 75
  /-- `NET_PAUSE_LOW_PCT` -/
  pauseLowPct : Nat := 40
  /-- `NET_DAWN_VID` -/
  dawnVid : Nat := 0
  /-- `NET_DAWN_PCP` -/
  dawnPcp : Nat := 7
  deriving DecidableEq, Repr

/-- TIME, Table 6-4 (R138). -/
structure TimeCfg where
  /-- `TIME_GM_CAPABLE` -/
  gmCapable : Nat := 0
  /-- `TIME_PRIORITY1` -/
  priority1 : Nat := 246
  /-- `TIME_PRIORITY2` -/
  priority2 : Nat := 248
  /-- `TIME_DOMAIN` -/
  domain : Nat := 0
  /-- `TIME_LOG_SYNC_INTERVAL`, signed -/
  logSyncInterval : Int := -3
  /-- `TIME_LOG_PDELAY_INTERVAL`, signed -/
  logPdelayInterval : Int := 0
  /-- `TIME_NEIGHBOR_THRESH_NS` -/
  neighborThreshNs : Nat := 800
  /-- `TIME_PPS_IN_MODE` -/
  ppsInMode : Nat := 1
  deriving DecidableEq, Repr

/-- One entry of a gate list, Table 6-5. -/
structure GateEntry where
  /-- `GCL_OP`: 0 SetGateStates, 1 Set-And-Hold-MAC, 2 Set-And-Release-MAC -/
  op : Nat := 0
  /-- `GCL_GATES` -/
  gates : Nat := 0xFF
  /-- `GCL_INTERVAL_NS` -/
  intervalNs : Nat := 0
  deriving DecidableEq, Repr

/-- GATE_LIST, Table 6-5 (R139). Entries not listed hold their defaults. -/
structure GateListCfg where
  /-- `GCL_ENABLE` -/
  enable : Nat := 0
  /-- `GCL_ENTRY_COUNT` -/
  entryCount : Nat := 0
  /-- `GCL_BASE_S` -/
  baseS : Nat := 0
  /-- `GCL_BASE_NS` -/
  baseNs : Nat := 0
  /-- `GCL_CYCLE_NS` -/
  cycleNs : Nat := 1000000
  /-- `GCL_CYCLE_EXT_NS` -/
  cycleExtNs : Nat := 0
  /-- the entries present, entry 0 first, at most 256 -/
  entries : List GateEntry := []
  deriving DecidableEq, Repr

/-- SHAPER, Table 6-6 (R140). -/
structure ShaperCfg where
  /-- `SHP_ENABLE`: bit 0 class 5, bit 1 class 6 -/
  enable : Nat := 0
  /-- `SHP_IDLE_SLOPE_TC5_KBPS` -/
  idleSlope5 : Nat := 0
  /-- `SHP_IDLE_SLOPE_TC6_KBPS` -/
  idleSlope6 : Nat := 0
  deriving DecidableEq, Repr

/-- PROTOCOL, Table 6-7 (R141). -/
structure ProtocolCfg where
  /-- `LY3_ETHERTYPE` -/
  ly3Ethertype : Nat := 0x88B5
  /-- `LY3_DEADLINE_US` -/
  ly3DeadlineUs : Nat := 12
  /-- `LY2_UDP_PORT` -/
  ly2UdpPort : Nat := 51750
  /-- `LY3_REPLY_PCP` -/
  ly3ReplyPcp : Nat := 7
  /-- `IP_V4_ADDR_BASE`; 0 switches IPv4 off -/
  v4AddrBase : Nat := 0
  /-- `IP_V4_PREFIX_LEN` -/
  v4PrefixLen : Nat := 24
  /-- `IP_V4_GATEWAY` -/
  v4Gateway : Nat := 0
  /-- `IP_V6_PREFIX` -/
  v6Prefix : Nat := 0
  /-- `IP_V6_IID_BASE`; 0 derives it from the MAC address -/
  v6IidBase : Nat := 0
  deriving DecidableEq, Repr

/-- TENANT, Table 6-8 (R143). -/
structure TenantCfg where
  /-- `TEN_ENABLE` -/
  enable : Nat := 0
  /-- `TEN_GENERATIONS`: bit 0 LY1, bit 1 LY2, bit 2 LY3 -/
  generations : Nat := 6
  /-- `TEN_LEGACY` -/
  legacy : Nat := 0
  /-- `TEN_SESSIONS_MAX` -/
  sessionsMax : Nat := 4
  /-- `TEN_WINDOW` -/
  window : Nat := 8
  /-- `TEN_VID` -/
  vid : Nat := 0
  /-- `TEN_QUOTA_GB` -/
  quotaGb : Nat := 0
  /-- `TEN_PIN_MAX_KIB` -/
  pinMaxKib : Nat := 256
  /-- `TEN_NAME`, 16 bytes as one big-endian value -/
  name : Nat := 0
  deriving DecidableEq, Repr

/-- KV, Table 6-9 (R144). -/
structure KvCfg where
  /-- `KV_START_LIMIT_MS` -/
  startLimitMs : Nat := 1000
  /-- `KV_RANGE_MAX_KEYS` -/
  rangeMaxKeys : Nat := 4096
  /-- `KV_EXPIRY_SWEEP_S` -/
  expirySweepS : Nat := 3600
  deriving DecidableEq, Repr

/-- JOURNAL and MEDIA, Table 6-10 (R145). -/
structure JournalCfg where
  /-- `JRN_INTERVAL_MS` -/
  intervalMs : Nat := 200
  /-- `JRN_INTERVAL_MIB` -/
  intervalMib : Nat := 64
  deriving DecidableEq, Repr

/-- MEDIA, Table 6-10 (R145); `MED_SPARE_WARN_BLOCKS` depends on the part. -/
structure MediaCfg where
  /-- `MED_SCRUB_DAYS` -/
  scrubDays : Nat := 30
  /-- `MED_WEAR_WARN_PCT` -/
  wearWarnPct : Nat := 80
  /-- `MED_FG_FREE_PCT` -/
  fgFreePct : Nat := 4
  /-- `MED_SPARE_WARN_BLOCKS` -/
  spareWarnBlocks : Nat := 512
  /-- `MED_BG_IDLE_MS` -/
  bgIdleMs : Nat := 100
  deriving DecidableEq, Repr

/-- POWER, REGULATOR and THERMAL, Table 6-11 (R146). -/
structure PowerCfg where
  /-- `PWR_VIN_WARN_MV` -/
  vinWarnMv : Nat := 16000
  /-- `PWR_VIN_CUT_MV` -/
  vinCutMv : Nat := 12000
  deriving DecidableEq, Repr

/-- REGULATOR, Table 6-11. -/
structure RegulatorCfg where
  /-- `REG_PACE_MARGIN_PCT` -/
  paceMarginPct : Nat := 10
  /-- `REG_ENERGY_KNEE_MJ` -/
  energyKneeMj : Nat := 300
  /-- `REG_GAIN_SCALE_CH2_PCT` -/
  gainScale2 : Nat := 100
  /-- `REG_GAIN_SCALE_CH3_PCT` -/
  gainScale3 : Nat := 100
  /-- `REG_GAIN_SCALE_CH4_PCT` -/
  gainScale4 : Nat := 100
  /-- `REG_GAIN_SCALE_CH5_PCT` -/
  gainScale5 : Nat := 100
  deriving DecidableEq, Repr

/-- WATCHDOG, Table 6-12 (R147). -/
structure WatchdogCfg where
  /-- `WDG_SW_START`: 0 at step 11, 1 at Ready-Read, 2 never -/
  swStart : Nat := 0
  /-- `WDG_TASKn_ACT` for n = 0 to 7, by the codes of Table 6-13 -/
  tasks : List Nat := [1, 2, 3, 4, 5, 6, 7, 8]
  deriving DecidableEq, Repr

/-- SECURITY, Table 6-14 (R148). -/
structure SecurityCfg where
  /-- `SEC_TAMPER_ACTION`: 0 alarm-and-log, 1 lock, 2 erase-keys -/
  tamperAction : Nat := 1
  /-- `SEC_SVC_CLOSE_ACTION`: 0 cold start, 1 remain in Sealed -/
  svcCloseAction : Nat := 0
  /-- `SEC_AUTH_TAG` as one 128-bit value -/
  authTag : Nat := 0
  deriving DecidableEq, Repr

/-- One WRAPPED_KEY record, Table 6-14. -/
structure WrappedKey where
  inst : Nat
  /-- `WK_UNIT_ID` -/
  unitId : Nat
  /-- `WK_KEY_VERSION` -/
  keyVersion : Nat
  /-- `WK_EPH_PUB`: x then y, 64 bytes -/
  ephPub : Bytes
  /-- `WK_NONCE`, 12 bytes -/
  nonce : Bytes
  /-- `WK_WRAPPED_KEY`, 32 bytes -/
  wrapped : Bytes
  /-- `WK_TAG`, 16 bytes -/
  tag : Bytes
  deriving DecidableEq, Repr

/-- The whole configuration: every record class of Table 5-4. -/
structure DriveConfig where
  identity : IdentityCfg := {}
  port : PerPort PortCfg := ⟨{}, {}⟩
  bridge : BridgeCfg := {}
  time : TimeCfg := {}
  gates : PerPort GateListCfg := ⟨{}, {}⟩
  shaper : PerPort ShaperCfg := ⟨{}, {}⟩
  protocol : ProtocolCfg := {}
  /-- tenants 0 to 7; tenant 0 is enabled by default (R143) -/
  tenants : List TenantCfg := { enable := 1 } :: List.replicate 7 {}
  kv : KvCfg := {}
  journal : JournalCfg := {}
  media : MediaCfg := {}
  power : PowerCfg := {}
  regulator : RegulatorCfg := {}
  /-- `THM_SETPOINT_C` of THERMAL -/
  thermalSetpointC : Nat := 100
  watchdog : WatchdogCfg := {}
  security : SecurityCfg := {}
  /-- the verified WRAPPED_KEY records, in ascending instance -/
  wrappedKeys : List WrappedKey := []
  deriving DecidableEq, Repr

/-- The catalogue defaults for a part (R117 `set_all_defaults`, R131). -/
def DriveConfig.defaults (p : Part) : DriveConfig :=
  { media := { spareWarnBlocks := match p with | .ekv5240 => 256 | .ekv5480 => 512 } }

end Sys2Proof.Machine
end

