-- ==== Sys2Proof/Syntax.lean ====
section
/-!
DEFINITION. The commands of the block: one constructor of `Instr` for each row of spec/opcode_table.json, with what
the outside world presents to the drive at that row.
-/
namespace Sys2Proof.Machine

/-- The carrier's configuration memory as one full read finds it (R106 to R109). -/
structure CfgMemory where
  /-- contents from offset 0 of the window; beyond them the memory reads as `fill` -/
  bytes : Bytes := []
  /-- what an offset beyond `bytes` reads as -/
  fill : Byte := 0xFF#8
  /-- the 7-bit address at which the carrier's I²C memory answers (R50) -/
  i2cAddr : Nat := 0x50
  /-- the 8 bytes of the SFDP header (SPI only) -/
  sfdp : Bytes := List.replicate 8 0xFF#8
  /-- both bus lines come up within the 10 ms of R107, recovery clocks included -/
  busIdle : Bool := true
  /-- the I²C fast-mode attempt ends in a missing acknowledge or a stretch above 10 ms, after this many bytes -/
  fastFailsAfter : Option Nat := none
  /-- the standard-mode attempt fails in the same way, after this many bytes -/
  standardFailsAfter : Option Nat := none
  deriving DecidableEq, Repr

/-- The straps of R50. -/
structure Straps where
  /-- CFG_MODE: the SPI memory -/
  spi : Bool := false
  /-- CFG_ADDR2 to CFG_ADDR0, 0 to 7 -/
  addr : Nat := 0
  /-- SLOT_ID3 to SLOT_ID0, 0 to 15 -/
  slot : Nat := 0
  sgmiiA : Bool := false
  sgmiiB : Bool := false
  deriving DecidableEq, Repr

/-- What a start finds outside the drive and in its own media: the readings and outcomes that no earlier command fixes. -/
structure StartEnv where
  straps : Straps := {}
  memory : CfgMemory := {}
  vinMv : Nat := 24000
  bankMv : Nat := 0
  /-- the first junction reading, in 0.1 °C -/
  junction : Int := 250
  /-- the first tamper sample finds the loop intact -/
  loopIntact : Bool := true
  /-- SVC_EN is high at step 3 (R56) -/
  svcHigh : Bool := false
  /-- VIN in mV and the level of PFW_N (true: low) when the drive reaches its serving level; absent: as last recognised (R46, R67) -/
  servingVinMv : Option Nat := none
  servingPfwLow : Option Bool := none
  /-- the offset of the first failing line, if the scrub of step 9 finds one -/
  scrubFails : Option Nat := none
  /-- parts of the running and of the previous set whose bank fails a check of R493 -/
  badRunning : List Nat := []
  badPrevious : List Nat := []
  /-- copies of the commit record, 0 and 1, whose CRC-32C does not verify (R482) -/
  badCopies : List Nat := []
  /-- the retained word of the watchdog's reset count fails its check (R446) -/
  resetWordFails : Bool := false
  /-- time of a tag scan in ms, and the pages it reads -/
  scanMs : Nat := 0
  scanPages : Nat := 0
  /-- ms from the reference point of the start to its serving level -/
  servingMs : Nat := 0
  /-- the step that the start has not begun when the next command arrives, if it does not run through -/
  stopAt : Option Nat := none
  /-- the next command arrives while the start drives the configuration bus (R40, R52) -/
  stopInRead : Bool := false
  deriving DecidableEq, Repr

/-- What went wrong with a frame below its bytes (rows 1 and 2 of Table 7-3). -/
inductive RxError where
  | none | fragment | symbol
  deriving DecidableEq, Repr

/-- How a frame came over the line (R158): whole, by the express MAC or uncut, or as a fragment of a preemptable frame, with
the number of the frame (its SMD) and, from the second fragment on, the fragment count, both modulo 4. -/
inductive MPacket where
  | whole
  | first (frame : Nat)
  | continuation (frame count : Nat)
  deriving DecidableEq, Repr

/-- What the line tells of a packet beside its bytes. -/
structure RxLine where
  pkt : MPacket
  err : RxError
  deriving DecidableEq, Repr

/-- What a die operation ended in. -/
inductive DieResult where
  /-- the page decoded at a step of Table 14-6, 1 to 4, at a threshold index and with the most corrected bits -/
  | decoded (step index corrected : Nat)
  /-- step 5 of Table 14-6 -/
  | uncorrectable
  /-- status of a program or an erase -/
  | passed
  | failed
  deriving DecidableEq, Repr

/-- What the media answer a held request with. -/
inductive MediaOutcome where
  | read
  /-- a page of the value is uncorrectable (step 5 of Table 14-6) -/
  | uncorrectable
  deriving DecidableEq, Repr

/-- What READ_SECTORS finds of its sectors, by index from the command's first. -/
inductive SectorOutcome where
  /-- every sector decodes; those that needed step 2 or 3 of Table 14-6, each with that step and the index that decoded -/
  | read (hard : List (Nat × Nat × Nat))
  /-- a sector whose pages are uncorrectable -/
  | uncorrectable (index : Nat)
  /-- a sector whose decoded bytes differ from the ones staged, so that CU3 recomputes this CRC-16 (R433) -/
  | mismatch (index : Nat) (crc : Nat)
  deriving DecidableEq, Repr

/-- What a sample of the tamper loop measures (R54): the loop resistance, the levels of TAMP_OUT and TAMP_RET in mV between
pulses and during the pulse, and what a short to GND shows. -/
structure TamperReading where
  ohms : Nat := 0
  idleOutMv : Nat := 0
  idleRetMv : Nat := 0
  pulseOutMv : Nat := 3300
  pulseRetMv : Nat := 3300
  /-- TAMP_OUT follows its own drive during the pulse -/
  follows : Bool := true
  /-- either contact is shorted to GND -/
  grounded : Bool := false
  deriving DecidableEq, Repr

end Sys2Proof.Machine

namespace Sys2Proof

/-- A command: one constructor for each row of spec/opcode_table.json, in its order. -/
inductive Instr where
  /-- VIN_VALID (R90). VIN valid is recognised from Off and the drive begins a cold start. `resetLow`: RESET_N is low at step 3; `env`: what the start finds. -/
  | vinValid (resetLow : Bool) (env : Machine.StartEnv)
  /-- READY_ENTRY (R82). Once the ledger covers the staging limit, the drive enters Ready, or Overcast, at step 17 and begins a dawn series. -/
  | readyEntry
  /-- RESET_N_RECOGNISED (R44). A RESET_N low level of 10 µs closes the ingress gate and starts a warm start and its drain. -/
  | resetNRecognised
  /-- RESET_N_HELD_COLD (R44). RESET_N still low 500 ms after its falling edge holds the PHYs in reset and selects a cold start. -/
  | resetNHeldCold
  /-- RESET_N_RELEASED (R90). The rising edge of RESET_N begins the selected warm or cold start path. `env`: what the start finds. -/
  | resetNReleased (env : Machine.StartEnv)
  /-- VIN_BELOW_WARNING (R67). VIN below VIN_WARN is recognised, and the drive enters Brace with the actions of Table 3-3. `vin`: the input voltage in mV. -/
  | vinBelowWarning (vin : Nat)
  /-- PFW_N_WARNING (R46). A PFW_N low level of 2 µs is a power-fail warning and causes Brace; in Deep Sleep it is only logged. -/
  | pfwNWarning
  /-- BRACE_EXIT (R70). After 5 ms with VIN at or above warning plus 0.8 V and PFW_N high, Brace ends and the drive logs the episode. `vin`: the input voltage in mV. -/
  | braceExit (vin : Nat)
  /-- SUPPLY_UNSTABLE_REARM (R71). The supply-unstable event is rearmed once 60 s pass with 10 or fewer episodes. -/
  | supplyUnstableRearm
  /-- VIN_BELOW_CUT (R72). VIN below VIN_CUT commits the drive to Dusk. `vin`: in mV; `paid`: the bank pays for the flush of step 5 (R75). -/
  | vinBelowCut (vin : Nat) (paid : Bool)
  /-- INPUT_COLLAPSE (R72). VIN below 9 V, or reverse current through the input switch, commits the drive to Dusk. `vin`: in mV; `reverse`: the input current reverses; `paid`: as in VIN_BELOW_CUT. -/
  | inputCollapse (vin : Nat) (reverse paid : Bool)
  /-- OVERVOLTAGE (R72). VIN above 34 V commits the drive to Dusk. `vin`: in mV; `paid`: as in VIN_BELOW_CUT. -/
  | overvoltage (vin : Nat) (paid : Bool)
  /-- POST_DUSK_HOLD_END (R76). The post-Dusk hold ends in Off, a held reset, a warm start or a cold start, by Table 3-5. What the pins and VIN are at the end of the hold, and what a start finds. -/
  | postDuskHoldEnd (resetLow vinValid : Bool) (env : Machine.StartEnv)
  /-- REFERENCE_CLOCK_LOST (R30). No reference edge for 50 µs closes the gate, fixes CH0 at 0.90 V, stops CH1 and commits to Dusk. `paid`: as in VIN_BELOW_CUT. -/
  | referenceClockLost (paid : Bool)
  /-- REFERENCE_CLOCK_RETURN (R90). The reference clock returns and the drive cold-starts. -/
  | referenceClockReturn (env : Machine.StartEnv)
  /-- THERMAL_SHUTDOWN (R26). A junction at or above 115 °C refuses writes, commits to Dusk and then switches the drive off. `junction`: in 0.1 °C; `paid`: as in VIN_BELOW_CUT. -/
  | thermalShutdown (junction : Int) (paid : Bool)
  /-- JUNCTION_COOLED (R90). After a thermal shutdown, the supervisor reads 95 °C or less and the drive cold-starts. -/
  | junctionCooled (env : Machine.StartEnv)
  /-- DEADLINE_RISK (R26). A junction of 103 °C or pace short for 100 µs raises the deadline-risk indication and logs an event. `j`: the junction in 0.1 °C; `pace`: the measured pace is below the pace that the deadline margin requires. -/
  | deadlineRisk (j : Int) (pace : Bool)
  /-- DEADLINE_LAPSE (R26). A junction above 105 °C or pace short for 1 ms logs a lapse; the deadline is no longer guaranteed. `j`: the junction in 0.1 °C; `pace`: as in DEADLINE_RISK. -/
  | deadlineLapse (j : Int) (pace : Bool)
  /-- DEADLINE_RISK_CLEARED (R26). 1 s at or below 101 °C with pace not short clears the indication. `j`: the junction in 0.1 °C. -/
  | deadlineRiskCleared (j : Int)
  /-- WAKE_INPUT (R47). WAKE high for 10 µs in Deep Sleep wakes the drive to Ready-Read and then its previous state. -/
  | wakeInput
  /-- SVC_EN_IGNORED (R56). An SVC_EN high level shorter than 80 ms but at least 1 ms ends, and is counted and logged. `len`: the length of the high level in ms. -/
  | svcEnIgnored (len : Nat)
  /-- SERVICE_PORT_OPEN (R465). SVC_EN high for 100 ms runs the erase sequence, enters Sealed, pauses the watchdog and releases the scan chain. -/
  | servicePortOpen
  /-- SERVICE_PORT_CLOSE (R467). SVC_EN low for 100 ms after release resets the TAP and applies the configured close action. -/
  | servicePortClose (env : Machine.StartEnv)
  /-- TAMPER_SAMPLE (R54). Each 1 ms tamper-loop pulse judges the loop intact, open or faulted. `r`: what the sample finds. -/
  | tamperSample (r : Machine.TamperReading)
  /-- LOCK_DRAIN_COMPLETE (R457). After a lock, the drain of staging ends and every tenant data key is zeroized and the pin cache emptied. -/
  | lockDrainComplete
  /-- LINK_UP (R101). A port link comes up: dawn frame, gratuitous ARP and NA, shaper scaling, preemption verification and the start-limit window if pending. `speed` in Mb/s; `resolved`: autonegotiation resolved symmetric pause. -/
  | linkUp (q : Machine.Port) (speed : Nat) (resolved : Bool)
  /-- LINK_DOWN (R154). A link down removes learned entries, discards queued frames and ends pause on the port. -/
  | linkDown (q : Machine.Port)
  /-- SGMII_STATUS_CHANGE (R153). A change of in-band SGMII status brings the port up or keeps it down on half duplex or a speed mismatch. The in-band status: link, speed in Mb/s, full duplex. -/
  | sgmiiStatusChange (q : Machine.Port) (up : Bool) (speed : Nat) (full : Bool)
  /-- PREEMPT_VERIFY_DONE (R199). 802.3br verification succeeds and activates preemption, or fails and logs an event. `ok`: verification succeeded. -/
  | preemptVerifyDone (q : Machine.Port) (ok : Bool)
  /-- FRAME_RECEIVED (R156). A received frame passes the receive checks and is forwarded, learned from and handed to the endpoint. `line`: whole or a fragment, and what went wrong below the bytes; `bytes`: destination to FCS, or the bytes of the fragment with its mCRC. -/
  | frameReceived (q : Machine.Port) (line : Machine.RxLine) (bytes : Bytes)
  /-- PAUSE_FRAME_RECEIVED (R167). A pause frame received while pause is in effect stops transmission for its quanta. -/
  | pauseFrameReceived
  /-- PAUSE_QUANTA_EXPIRED (R167). The received pause time ends and the port resumes transmitting. -/
  | pauseQuantaExpired (q : Machine.Port)
  /-- PAUSE_REPEAT (R166). While a pause is in force, the pause frame is repeated each half pause time. -/
  | pauseRepeat (q : Machine.Port)
  /-- LEARN_ENTRY_AGED (R172). A learning entry is removed 300 s to 310 s after its last refresh. -/
  | learnEntryAged (mac : Mac)
  /-- TX_QUEUE_TIMEOUT (R173). A forwarded frame that has waited 100 ms in an egress queue is discarded. -/
  | txQueueTimeout (q : Machine.Port)
  /-- EP_TX_EXPIRED (R190). An endpoint frame unselected after 100 ms is discarded; a discarded completion ends its request. -/
  | epTxExpired (q : Machine.Port)
  /-- EGRESS_SELECT (R188). When a port falls idle, the arbiter selects the next eligible frame by Table 8-2, which commits its items. `sent`: absent when the port falls idle, else the bytes of the preemptable frame on the wire that have left. -/
  | egressSelect (q : Machine.Port) (sent : Option Nat)
  /-- STAT_ACT_EXPIRED (R43). 50 ms after the last endpoint frame, STAT_ACT_N is released. -/
  | statActExpired
  /-- GPTP_FRAME_RECEIVED (R181). An 802.1AS frame is consumed by the time engine for sync, relay, path delay or BMCA. -/
  | gptpFrameReceived
  /-- SYNC_RECEIPT_TIMEOUT (R184). syncReceiptTimeout expires, and the drive enters holdover and clears TIME_SYNCED. -/
  | syncReceiptTimeout
  /-- SYNC_SEND (R181). As grandmaster, the drive sends a two-step Sync at its configured interval. -/
  | syncSend
  /-- PDELAY_REQUEST (R181). A peer-delay request is sent at the configured interval on each port. -/
  | pdelayRequest
  /-- PPS_OUT_EDGE (R186). PPS_OUT rises at each second boundary of the drive's time. -/
  | ppsOutEdge
  /-- PPS_IN_EDGE (R187). An accepted PPS_IN rising edge is time-stamped and, in mode 0x02, locks or corrects the time. How long the input was low before and high after the edge, in ns. -/
  | ppsInEdge (lowNs highNs : Nat)
  /-- GATE_ENTRY_START (R192). A gate-list entry or cycle begins and applies its gate states or MAC hold. -/
  | gateEntryStart (q : Machine.Port)
  /-- DAWN_REPEAT (R101). Every 100 ms of a dawn series, one announcement is sent on each linked port. -/
  | dawnRepeat
  /-- DAWN_SOLICITATION (R101). A dawn solicitation at a serving level is answered with one announcement within 10 ms. -/
  | dawnSolicitation
  /-- START_LIMIT_WINDOW_CLOSE (R105). The per-tenant admission-limit window ends. -/
  | startLimitWindowClose
  /-- WAKE_FRAME (R238). A valid wake frame naming this unit wakes the drive from Deep Sleep. -/
  | wakeFrame
  /-- ARP_REQUEST (R272). An ARP frame is answered for the address in use, or logged as an address conflict. -/
  | arpRequest
  /-- ARP_GATEWAY_TIMER (R272). The gateway is resolved again every 60 s, or every 1 s while unresolved. -/
  | arpGatewayTimer (q : Machine.Port)
  /-- NEIGHBOR_SOLICITATION (R273). A Neighbor Solicitation for a held address is answered with a Neighbor Advertisement. -/
  | neighborSolicitation
  /-- ECHO_REQUEST (R274). An ICMP echo request is answered, rate-limited to 100 per second per port. `v6`: ICMPv6. -/
  | echoRequest (v6 : Bool)
  /-- SESSION_OPEN (R217). A SESSION_OPEN is checked and answered with SESSION_ACCEPT or a refusal. `tampered`: a tamper alarm aborts the key operation (R220). -/
  | sessionOpen (tampered : Bool)
  /-- SESSION_CONFIRM (R219). A SESSION_CONFIRM tag verifies and opens the session, or the handshake fails with AUTH_FAIL. `tampered`: as in SESSION_OPEN. -/
  | sessionConfirm (tampered : Bool)
  /-- SESSION_CLOSE (R221). The host closes a session, optionally cancelling pending requests, and gets an answer last. -/
  | sessionClose
  /-- HANDSHAKE_EXPIRED (R215). A pending handshake not confirmed within 100 ms is discarded. -/
  | handshakeExpired (sid : Nat)
  /-- ALIVE_TIMEOUT (R223). No frame passes its tag for the alive timeout, and the session closes with cause 0x01 or 0x07. -/
  | aliveTimeout (sid : Nat)
  /-- MESSAGE_ASSEMBLY_TIMEOUT (R227). A multi-frame message not complete in time ends with INTEGRITY 0x03. `kind`: the MSG_KIND of the message. -/
  | messageAssemblyTimeout (sid kind msgId : Nat)
  /-- CANCEL (R234). A cancel races its target's commit point and is answered CANCELLED, CANCEL_TOO_LATE or NOT_FOUND. -/
  | cancel (sid msgId : Nat)
  /-- KEEPALIVE (R242). A keepalive request keeps the session alive and is answered inline. -/
  | keepalive (sid msgId : Nat)
  /-- GET (R300). A GET reads part of a version, or its metadata, inline or held. -/
  | get (sid msgId : Nat)
  /-- PUT (R302). A PUT replaces a whole value, with its version condition, windbreak admission and staging. `poison`: the address of a staging line that fails its check, if any. -/
  | put (sid msgId : Nat) (poison : Option Nat)
  /-- APPEND (R302). An APPEND adds DATA to the end of the newest value as a new version. `poison`: as in PUT. -/
  | append (sid msgId : Nat) (poison : Option Nat)
  /-- DELETE (R301). A DELETE removes a key under its version condition. -/
  | delete (sid msgId : Nat)
  /-- RANGE_READ (R313). A RANGE_READ lists the keys of a range under a range lock. -/
  | rangeRead (sid msgId : Nat)
  /-- RANGE_DELETE (R314). A RANGE_DELETE removes the keys of a range admitted before it, staged as one record. -/
  | rangeDelete (sid msgId : Nat)
  /-- PIN (R258). A PIN places the newest version of a key in the pin cache, charged to the tenant's pin space. -/
  | pin (sid msgId : Nat)
  /-- UNPIN (R260). An UNPIN ends a pin and frees its charge. -/
  | unpin (sid msgId : Nat)
  /-- RANGE_LOCK_GRANT (R315). A waiting range operation is granted its lock in arrival order when a lock is released. -/
  | rangeLockGrant
  /-- HELD_COMPLETION (R253). The media read of a held request completes and its COMPLETION is formed and queued. `o`: what the media answer. -/
  | heldCompletion (sid msgId : Nat) (o : Machine.MediaOutcome)
  /-- SEGMENT_STAGE (R308). A later segment of a segmented write whose frames are all present passes windbreak and is staged, or waits. `poison`: as in PUT. -/
  | segmentStage (sid msgId : Nat) (poison : Option Nat)
  /-- SEGMENT_CUT (R309). A later segment still refused 100 ms after its first refusal cuts the segmented write. -/
  | segmentCut (sid msgId : Nat)
  /-- NOP (R288). An LY1 NOP keeps the session alive. -/
  | nop (sid msgId : Nat)
  /-- READ_SECTORS (R293). An LY1 READ_SECTORS returns sectors, with their CRC-16 checked. `o`: what the media answer. -/
  | readSectors (sid msgId : Nat) (o : Machine.SectorOutcome)
  /-- WRITE_SECTORS (R292). An LY1 WRITE_SECTORS writes its sectors as separate keys after one ledger check. `poison`: a sector of the command and the address of its failing line, if any. -/
  | writeSectors (sid msgId : Nat) (poison : Option (Nat × Nat))
  /-- TRIM (R293). An LY1 TRIM deletes sector keys as a range delete. -/
  | trim (sid msgId : Nat)
  /-- FLUSH (R288). An LY1 FLUSH is answered once every earlier write and trim of the session has ended. -/
  | flush (sid msgId : Nat)
  /-- STATUS_READ (R290). An LY1 STATUS_READ returns the register image of a set. -/
  | statusRead (sid msgId : Nat)
  /-- IDENTIFY_WINDOW (R288). An LY1 IDENTIFY_WINDOW returns the sector capacity and limits. -/
  | identifyWindow (sid msgId : Nat)
  /-- IDENTIFY (R325). IDENTIFY returns bytes of the identify data. -/
  | identify (sid msgId : Nat)
  /-- GET_LOG (R326). GET_LOG reads a live page or a snapshot. -/
  | getLog (sid msgId : Nat)
  /-- LOG_SNAPSHOT (R327). LOG_SNAPSHOT freezes a page, and for pages 0x05, 0x01 and 0x09 resets its values. -/
  | logSnapshot (sid msgId : Nat)
  /-- SNAPSHOT_EXPIRED (R327). A snapshot is discarded 10 s after it was taken. -/
  | snapshotExpired (id : Nat)
  /-- ANSWER_CACHE_EXPIRED (R280). An LY2 answer-cache entry is dropped 2 s after its answer was selected. -/
  | answerCacheExpired (sid msgId : Nat)
  /-- GET_FEATURE (R340). GET_FEATURE returns the image value and the value in use. -/
  | getFeature (sid msgId : Nat)
  /-- SET_FEATURE (R340). SET_FEATURE clamps and applies a runtime feature, or refuses it under the joint rules. -/
  | setFeature (sid msgId : Nat)
  /-- RESTART (R341). RESTART starts a warm start, or a cold start after a stop record. `env`: what the start finds. -/
  | restart (sid msgId : Nat) (env : Machine.StartEnv)
  /-- DEEP_SLEEP (R342). DEEP_SLEEP is accepted or refused, and acceptance begins Deep Sleep entry. -/
  | deepSleep (sid msgId : Nat)
  /-- DEEP_SLEEP_ENTRY_COMPLETE (R87). Admitted requests are complete and staging is drained; the processor halts and the DRAM self-refreshes. `wakeHigh`: WAKE is high. -/
  | deepSleepEntryComplete (wakeHigh : Bool)
  /-- CLOSE_SESSION (R343). CLOSE_SESSION closes a named session with cause 0x04. -/
  | closeSession (sid msgId : Nat)
  /-- CLEAR_FAULTS (R331). CLEAR_FAULTS clears the clearable latched-fault bits named in MASK. -/
  | clearFaults (sid msgId : Nat)
  /-- FW_BEGIN (R478). FW_BEGIN opens a firmware download for the session. -/
  | fwBegin (sid msgId : Nat)
  /-- FW_DATA (R479). FW_DATA writes package units, and checks the header once offsets 0 to 511 have arrived. `fails`: the program fails after its retries. -/
  | fwData (sid msgId : Nat) (fails : Bool)
  /-- FW_VERIFY (R481). FW_VERIFY checks the signature, key slot, hashes and tags and programs the banks. `fails`: a program of the banks will fail after its retries. -/
  | fwVerify (sid msgId : Nat) (fails : Bool)
  /-- FW_GRAFT (R485). FW_GRAFT has the standby processor load the new management firmware. -/
  | fwGraft (sid msgId : Nat)
  /-- GRAFT_HANDOVER (R485). At a quiescent point, live state moves to the standby processor and the commit record is written. `loaded`: the part loads and passes; `ns`: how long the handover takes. -/
  | graftHandover (loaded : Bool) (ns : Nat)
  /-- FW_ACTIVATE (R487). FW_ACTIVATE is answered OK, and its selection begins activation. -/
  | fwActivate (sid msgId : Nat)
  /-- ACTIVATION (R487). The gate closes, staging drains, the commit is written, every part reloads and the gate reopens within 1.2 s. `env`: what the start finds. -/
  | activation (env : Machine.StartEnv)
  /-- FW_CONFIRM (R491). FW_CONFIRM confirms the trial set before its window ends. -/
  | fwConfirm (sid msgId : Nat)
  /-- FW_ABORT (R478). FW_ABORT ends a download, or fails a trial set during its window. -/
  | fwAbort (sid msgId : Nat)
  /-- FW_DOWNLOAD_TIMEOUT (R478). A download idle for 600 s is discarded. -/
  | fwDownloadTimeout
  /-- CONFIRM_WINDOW_EXPIRED (R492). The confirmation window ends unconfirmed, and the trial set fails. -/
  | confirmWindowExpired
  /-- SEC_STATUS (R463). SEC_STATUS returns the lock, site-key and tamper status. -/
  | secStatus (sid msgId : Nat)
  /-- SEC_UNLOCK (R461). SEC_UNLOCK ends Sealed when the loop has been intact for 1 s. -/
  | secUnlock (sid msgId : Nat)
  /-- SEC_SET_CREDENTIAL (R464). SEC_SET_CREDENTIAL installs an encrypted tenant credential and closes that tenant's sessions. -/
  | secSetCredential (sid msgId : Nat)
  /-- SEC_RESET_CREDENTIAL (R453). SEC_RESET_CREDENTIAL returns a tenant to its derived credential. -/
  | secResetCredential (sid msgId : Nat)
  /-- SEC_ERASE_TENANT (R459). SEC_ERASE_TENANT crypto-erases one tenant's data. -/
  | secEraseTenant (sid msgId : Nat)
  /-- WATCHDOG_CHECK_IN (R443). An activity checks in for its slot; an early or repeated check-in expires the watchdog. `activity`: its code in Table 6-13, 0x00 for the watchdog service itself; `env`: what a start that it causes finds. -/
  | watchdogCheckIn (activity : Nat) (env : Machine.StartEnv)
  /-- WATCHDOG_EXPIRY (R444). The period ends with a slot missing; the count rises and a warm start is forced. `env`: what a start that it causes finds. -/
  | watchdogExpiry (env : Machine.StartEnv)
  /-- SCAN_JOB_COMPLETE (R439). A CU2 scan job ends and is compared with its expected values; a mismatch raises its event and reaction. `own`: a job that the serving processor ran for itself: its start, and whether its values matched; else the job at the front. -/
  | scanJobComplete (own : Option (Nat × Bool))
  /-- CH0_SAMPLE (R408). Every 2 µs CH0 computes VCORE from the measured pace. `pace`: the pace ratio in Q16. -/
  | ch0Sample (pace : Int)
  /-- CH1_SAMPLE (R410). Every 4 µs CH1 computes the charge power from the bank voltage along its ramp. `mv`: the bank in mV. -/
  | ch1Sample (mv : Nat)
  /-- WINDBREAK_LOOP_SAMPLE (R413). Every 100 µs each of CH2 to CH5 runs its PID step and writes an admission rate. `junction`: in 0.1 °C; `pace`: the mean pace ratio in Q16. -/
  | windbreakLoopSample (junction pace : Int)
  /-- RATE_ESTIMATOR_SAMPLE (R423). Every 1 ms the bank-power estimator updates RATE_MW and SETTLING. `mv`: the bank in mV. -/
  | rateEstimatorSample (mv : Nat)
  /-- BANK_TEST_START (R84). A scheduled bank test begins: CH1 stops, V1 is taken and the load is applied, or the test is deferred. -/
  | bankTestStart
  /-- BANK_TEST_COMPLETE (R85). The bank falls 3 V; capacitance and ESR are computed, and the bank is classified. `stepMv`: the step across the first 20 µs; `fallUs`: the time of the fall. -/
  | bankTestComplete (stepMv fallUs : Nat)
  /-- BANK_TEST_TIMEOUT (R84). The bank has not fallen 3 V within 200 ms; the load is removed and the result is a test fault. -/
  | bankTestTimeout
  /-- BANK_CHARGE_JUDGED (R85). The charging-time criterion is judged at 4 s of charging or at 44.5 V. `bankMv`: the bank in mV. -/
  | bankChargeJudged (bankMv : Nat)
  /-- DRAIN_EXTENT_COMPLETE (R33). The program of an extent's pages completes and verifies, and its lines and ledger charge are released. `id`: the extent; `pages`: the pages that its program took. -/
  | drainExtentComplete (id pages : Nat)
  /-- DIE_OPERATION_COMPLETE (R357). A die finishes an operation and takes its next one from Table 14-3. `r`: what the operation ended in. -/
  | dieOperationComplete (die : Nat) (r : Machine.DieResult)
  /-- OPERATION_AGE_PROMOTE (R357). An operation that has waited 50 ms moves to row 2. `op`: the operation. -/
  | operationAgePromote (op : Nat)
  /-- DIE_TIMEOUT (R359). A die operation reaches its timeout, and the die is reset and the operation retried once. `ready`: the die reports ready. -/
  | dieTimeout (die : Nat) (ready : Bool)
  /-- PROGRAM_RETRY_BACKOFF (R371). After three failed blocks, an extent's program is retried after a doubling wait. `id`: the extent. -/
  | programRetryBackoff (id : Nat)
  /-- SCRUB_DUE (R363). A block reaches its scrub interval and is read through the read steps, and refreshed if needed. -/
  | scrubDue (die block : Nat)
  /-- BG_COLLECTION_IDLE (R366). No write for MED_BG_IDLE_MS with F below 12 % starts background collection. -/
  | bgCollectionIdle
  /-- JOURNAL_FLUSH (R385). JRN_INTERVAL_MS or JRN_INTERVAL_MIB is reached and a delta, or a checkpoint every 256 deltas, is written. -/
  | journalFlush
  /-- EXPIRY_SWEEP (R316). Every KV_EXPIRY_SWEEP_S the lazy sweep reclaims expired keys. -/
  | expirySweep
  /-- BACKSTOP_EXPIRY (R509). A request still in flight 10 s after admission ends with INTERNAL and releases its lock. -/
  | backstopExpiry (sid msgId : Nat)
  /-- STATUS_BLINK_TOGGLE (R41). A status output on a 1 Hz, 4 Hz or Deep Sleep pattern changes between asserted and released when its blink time runs out. `fault`: STAT_FAULT_N, else STAT_READY_N. -/
  | statusBlinkToggle (fault : Bool)
  /-- PPS_OUT_FALLING_EDGE (R186). PPS_OUT falls 100 ms after each rising edge. -/
  | ppsOutFallingEdge
  /-- INPUT_PROTECTION_TRIP (R510). A VIN transient above 40 V opens the input protection, which disconnects input and hold-up path without Dusk and discharges the bank. `vin`: the input voltage in mV. -/
  | inputProtectionTrip (vin : Nat)
  /-- MODULE_SUPPLY_FAILS (R391). Outside the stated conditions the hold-up energy runs out during Dusk, and flash activity stops without a Dusk record. -/
  | moduleSupplyFails
  /-- TRST_N_LOW (R57). TRST_N low resets the TAP at any time. -/
  | trstNLow
  /-- TCK_EDGE (R57). After release of the scan chain, a TCK edge advances the TAP and carries out boundary-scan and debug instructions. The edge, and the levels of TMS and TDI at it. -/
  | tckEdge (rising tms tdi : Bool)
  /-- CREDIT_PER_BIT_TIME (R195). Each bit time the credit of a shaped class is updated, and a class whose credit reaches 0 becomes eligible on an idle port. `cls`: 5 or 6. -/
  | creditPerBitTime (q : Machine.Port) (cls : Nat)
  /-- ANNOUNCE_SEND (R181). At logAnnounceInterval 0 the drive sends an 802.1AS Announce on its gPTP ports. -/
  | announceSend
  /-- ANNOUNCE_RECEIPT_TIMEOUT (R181). announceReceiptTimeout expires on a port, and the best master clock algorithm selects a new grandmaster, possibly the drive. -/
  | announceReceiptTimeout (q : Machine.Port)
  /-- TEMPERATURE_HISTORY_INTERVAL (R336). Each 15 min of powered time the mean junction temperature is recorded in RECENT of page 0x07. `mean`: the mean of the interval in 0.1 °C. -/
  | temperatureHistoryInterval (mean : Int)
  deriving DecidableEq, Repr

end Sys2Proof
end

