-- ==== Sys2Proof/Decode.lean ====
section
/-!
DEFINITION. The command that a word spells. No row of spec/opcode_table.json gives bits: its commands are events at the
drive's contacts, frames and expiries of its timers, so no word spells one.
-/
namespace Sys2Proof

/-- The command whose table bits are `w`: none, for every word. -/
def decodeTableWord (_nbits _w : Nat) : Option Instr := none

end Sys2Proof
end

