-- ==== Sys2Proof/Machine/Crypto.lean ====
section
/-!
DEFINITION. The cryptographic functions the manual names, computed as the standards it cites define them: SHA-256 (FIPS 180-4,
R434), AES-256-GCM and GMAC (FIPS 197 and NIST SP 800-38D, R208), ECDH and ECDSA on P-256 (FIPS 186-4, R218, R450, R472).
-/
namespace Sys2Proof.Machine

/-! ## SHA-256 -/

/-- The 64 constants of SHA-256. -/
def shaK : List (BitVec 32) :=
  [0x428a2f98#32, 0x71374491#32, 0xb5c0fbcf#32, 0xe9b5dba5#32, 0x3956c25b#32, 0x59f111f1#32, 0x923f82a4#32, 0xab1c5ed5#32] ++
  [0xd807aa98#32, 0x12835b01#32, 0x243185be#32, 0x550c7dc3#32, 0x72be5d74#32, 0x80deb1fe#32, 0x9bdc06a7#32, 0xc19bf174#32] ++
  [0xe49b69c1#32, 0xefbe4786#32, 0x0fc19dc6#32, 0x240ca1cc#32, 0x2de92c6f#32, 0x4a7484aa#32, 0x5cb0a9dc#32, 0x76f988da#32] ++
  [0x983e5152#32, 0xa831c66d#32, 0xb00327c8#32, 0xbf597fc7#32, 0xc6e00bf3#32, 0xd5a79147#32, 0x06ca6351#32, 0x14292967#32] ++
  [0x27b70a85#32, 0x2e1b2138#32, 0x4d2c6dfc#32, 0x53380d13#32, 0x650a7354#32, 0x766a0abb#32, 0x81c2c92e#32, 0x92722c85#32] ++
  [0xa2bfe8a1#32, 0xa81a664b#32, 0xc24b8b70#32, 0xc76c51a3#32, 0xd192e819#32, 0xd6990624#32, 0xf40e3585#32, 0x106aa070#32] ++
  [0x19a4c116#32, 0x1e376c08#32, 0x2748774c#32, 0x34b0bcb5#32, 0x391c0cb3#32, 0x4ed8aa4a#32, 0x5b9cca4f#32, 0x682e6ff3#32] ++
  [0x748f82ee#32, 0x78a5636f#32, 0x84c87814#32, 0x8cc70208#32, 0x90befffa#32, 0xa4506ceb#32, 0xbef9a3f7#32, 0xc67178f2#32]

/-- The initial hash value. -/
def shaInit : List (BitVec 32) :=
  [0x6a09e667#32, 0xbb67ae85#32, 0x3c6ef372#32, 0xa54ff53a#32, 0x510e527f#32, 0x9b05688c#32, 0x1f83d9ab#32, 0x5be0cd19#32]

/-- The words of a byte sequence, big-endian; `n` words. -/
def shaWords (n : Nat) (l : Bytes) : List (BitVec 32) := (List.range n).map fun i => BitVec.ofNat 32 (beNat (slice (4 * i) 4 l))

/-- The schedule's next word from the 16 words before it. -/
def shaNext (w : List (BitVec 32)) : BitVec 32 :=
  let x := w.getD 14 0
  let y := w.getD 1 0
  (x.rotateRight 17 ^^^ x.rotateRight 19 ^^^ x >>> 10) + w.getD 9 0 +
    (y.rotateRight 7 ^^^ y.rotateRight 18 ^^^ y >>> 3) + w.getD 0 0

/-- One round on the eight working variables and the 16 words of the schedule still to come. -/
def shaRound (z : List (BitVec 32) × List (BitVec 32)) (k : BitVec 32) : List (BitVec 32) × List (BitVec 32) :=
  match z with
  | ([a, b, c, d, e, f, g, h], w) =>
    let t1 := h + (e.rotateRight 6 ^^^ e.rotateRight 11 ^^^ e.rotateRight 25) + ((e &&& f) ^^^ (~~~e &&& g)) + k + w.getD 0 0
    let t2 := (a.rotateRight 2 ^^^ a.rotateRight 13 ^^^ a.rotateRight 22) + ((a &&& b) ^^^ (a &&& c) ^^^ (b &&& c))
    ([t1 + t2, a, b, c, d + t1, e, f, g], w.drop 1 ++ [shaNext w])
  | z => z

/-- The hash value after one block of 64 bytes. -/
def shaBlock (h : List (BitVec 32)) (block : Bytes) : List (BitVec 32) :=
  List.zipWith (· + ·) h (shaK.foldl shaRound (h, shaWords 16 block)).1

/-- A message padded to whole blocks. -/
def shaPad (l : Bytes) : Bytes := l ++ [0x80#8] ++ zeros ((119 - l.length % 64) % 64) ++ beBytes 8 (8 * l.length)

/-- The hash value after `n` blocks. -/
def shaBlocks : Nat → List (BitVec 32) → Bytes → List (BitVec 32)
  | 0, h, _ => h
  | n + 1, h, l => shaBlocks n (shaBlock h (l.take 64)) (l.drop 64)

/-- SHA-256 over whole bytes, the digest in the byte order of the standard (R434). -/
def sha256 (l : Bytes) : Bytes :=
  let p := shaPad l
  (shaBlocks (p.length / 64) shaInit p).flatMap fun w => beBytes 4 w.toNat

/-! ## AES-256 -/

/-- The S-box, a row of 16 bytes for each high digit. -/
def sboxRows : List Nat :=
  [0x637c777bf26b6fc53001672bfed7ab76, 0xca82c97dfa5947f0add4a2af9ca472c0, 0xb7fd9326363ff7cc34a5e5f171d83115,
   0x04c723c31896059a071280e2eb27b275] ++
  [0x09832c1a1b6e5aa0523bd6b329e32f84, 0x53d100ed20fcb15b6acbbe394a4c58cf, 0xd0efaafb434d338545f9027f503c9fa8,
   0x51a3408f929d38f5bcb6da2110fff3d2] ++
  [0xcd0c13ec5f974417c4a77e3d645d1973, 0x60814fdc222a908846eeb814de5e0bdb, 0xe0323a0a4906245cc2d3ac629195e479,
   0xe7c8376d8dd54ea96c56f4ea657aae08] ++
  [0xba78252e1ca6b4c6e8dd741f4bbd8b8a, 0x703eb5664803f60e613557b986c11d9e, 0xe1f8981169d98e949b1e87e9ce5528df,
   0x8ca1890dbfe6426841992d0fb054bb16]

/-- SubBytes of one byte. -/
def sbox (b : Byte) : Byte := byte (sboxRows.getD (b.toNat / 16) 0 >>> (8 * (15 - b.toNat % 16)))

/-- Byte-wise exclusive-or. -/
def xorBytes (a b : Bytes) : Bytes := List.zipWith (· ^^^ ·) a b

/-- `n` further words of the key schedule, from word number `i` on and the eight words before it. -/
def expandKey : Nat → Nat → List Bytes → List Bytes
  | 0, _, _ => []
  | n + 1, i, win =>
    let t := win.getD 7 []
    let t :=
      if i % 8 = 0 then xorBytes ((t.drop 1 ++ t.take 1).map sbox) (byte (2 ^ (i / 8 - 1)) :: zeros 3)
      else if i % 8 = 4 then t.map sbox
      else t
    let w := xorBytes (win.getD 0 []) t
    w :: expandKey n (i + 1) (win.drop 1 ++ [w])

/-- The 15 round keys of a 256-bit key. -/
def roundKeys (key : Bytes) : List Bytes :=
  let ws := (List.range 8).map fun i => slice (4 * i) 4 key
  let ws := ws ++ expandKey 52 8 ws
  (List.range 15).map fun r => ((ws.drop (4 * r)).take 4).flatten

/-- ShiftRows. -/
def shiftRows (s : Bytes) : Bytes := [0, 5, 10, 15, 4, 9, 14, 3, 8, 13, 2, 7, 12, 1, 6, 11].map fun i => s.getD i 0

/-- Multiplication by x in the field of AES. -/
def xtime (b : Byte) : Byte := if b.getLsbD 7 then (b <<< 1) ^^^ 0x1b#8 else b <<< 1

/-- MixColumns, column by column. -/
def mixColumns : Bytes → Bytes
  | a :: b :: c :: d :: rest =>
    let t := a ^^^ b ^^^ c ^^^ d
    (a ^^^ t ^^^ xtime (a ^^^ b)) :: (b ^^^ t ^^^ xtime (b ^^^ c)) :: (c ^^^ t ^^^ xtime (c ^^^ d)) ::
      (d ^^^ t ^^^ xtime (d ^^^ a)) :: mixColumns rest
  | l => l

/-- The rounds that remain, the last one without MixColumns. -/
def aesRounds : List Bytes → Bytes → Bytes
  | [], s => s
  | [k], s => xorBytes (shiftRows (s.map sbox)) k
  | k :: k' :: ks, s => aesRounds (k' :: ks) (xorBytes (mixColumns (shiftRows (s.map sbox))) k)

/-- AES-256 of one block under expanded keys. -/
def aesBlock (ks : List Bytes) (block : Bytes) : Bytes := aesRounds (ks.drop 1) (xorBytes block (ks.getD 0 []))

/-! ## GCM -/

/-- One bit of the field product of GHASH: the bit of one factor that leads, the product so far and the shifted other factor. -/
def ghashBit (x : BitVec 128) (z : BitVec 128 × BitVec 128) (i : Nat) : BitVec 128 × BitVec 128 :=
  (if x.getMsbD i then z.1 ^^^ z.2 else z.1,
   if z.2.getLsbD 0 then (z.2 >>> 1) ^^^ 0xE1000000000000000000000000000000#128 else z.2 >>> 1)

/-- The product of two blocks. -/
def ghashMul (x y : BitVec 128) : BitVec 128 := ((List.range 128).foldl (ghashBit x) (0#128, y)).1

/-- GHASH over `n` blocks. -/
def ghash (h : BitVec 128) : Nat → BitVec 128 → Bytes → BitVec 128
  | 0, y, _ => y
  | n + 1, y, l => ghash h n (ghashMul (y ^^^ BitVec.ofNat 128 (beNat (l.take 16))) h) (l.drop 16)

/-- Zero-padded to whole blocks. -/
def padBlock (l : Bytes) : Bytes := padTo (roundUp l.length 16) l

/-- The tag of additional data and ciphertext under a 96-bit IV. -/
def gcmTag (ks : List Bytes) (iv aad ct : Bytes) : Bytes :=
  let h := BitVec.ofNat 128 (beNat (aesBlock ks (zeros 16)))
  let x := padBlock aad ++ padBlock ct ++ beBytes 8 (8 * aad.length) ++ beBytes 8 (8 * ct.length)
  xorBytes (beBytes 16 (ghash h (x.length / 16) 0#128 x).toNat) (aesBlock ks (iv ++ beBytes 4 1))

/-- AES-256-GCM with empty plaintext: the 128-bit tag of key, 96-bit IV and additional authenticated data (R208). -/
def gmac (key iv aad : Bytes) : Bytes := gcmTag (roundKeys key) iv aad []

/-- The key stream of `n` blocks, from counter `c` on. -/
def keyStream (ks : List Bytes) (iv : Bytes) : Nat → Nat → Bytes
  | 0, _ => []
  | n + 1, c => aesBlock ks (iv ++ beBytes 4 c) ++ keyStream ks iv n (c + 1)

/-- AES-256-GCM encryption: the ciphertext, then the tag. -/
def gcmSeal (key iv aad pt : Bytes) : Bytes :=
  let ks := roundKeys key
  let ct := xorBytes pt (keyStream ks iv (roundUp pt.length 16 / 16) 2)
  ct ++ gcmTag ks iv aad ct

/-- AES-256-GCM decryption: key, IV, additional data, ciphertext and tag give the plaintext if the tag verifies. -/
def gcmOpen (key iv aad ct tag : Bytes) : Option Bytes :=
  let ks := roundKeys key
  if gcmTag ks iv aad ct = tag then some (xorBytes ct (keyStream ks iv (roundUp ct.length 16 / 16) 2)) else none

/-! ## P-256 -/

/-- The prime of the field. -/
def p256Prime : Nat := 0xFFFFFFFF00000001000000000000000000000000FFFFFFFFFFFFFFFFFFFFFFFF

/-- The order of the base point. -/
def p256Order : Nat := 0xFFFFFFFF00000000FFFFFFFFFFFFFFFFBCE6FAADA7179E84F3B9CAC2FC632551

/-- The curve's coefficient b; a is −3. -/
def p256B : Nat := 0x5AC635D8AA3A93E7B3EBBD55769886BC651D06B0CC53B0F63BCE3C3E27D2604B

/-- The base point, in projective coordinates with x = X / Z² and y = Y / Z³. -/
def p256Base : Nat × Nat × Nat :=
  (0x6B17D1F2E12C4247F8BCE6E563A440F277037D812DEB33A0F4A13945D898C296,
   0x4FE342E2FE1A7F9B8EE7EB4A7C0F9E162BCE33576B315ECECBB6406837BF51F5, 1)

/-- Product, sum and difference in the field. -/
def fMul (a b : Nat) : Nat := a * b % p256Prime
/-- Sum in the field. -/
def fAdd (a b : Nat) : Nat := (a + b) % p256Prime
/-- Difference in the field. -/
def fSub (a b : Nat) : Nat := (a + p256Prime - b) % p256Prime

/-- `b ^ e` modulo `m`, for an exponent of 256 bits. -/
def powMod (m b e : Nat) : Nat :=
  (List.range 256).foldl (fun r i => let r := r * r % m; if e.testBit (255 - i) then r * b % m else r) 1

/-- A point doubled; Z is 0 for the point at infinity. -/
def ecDouble (p : Nat × Nat × Nat) : Nat × Nat × Nat :=
  let (x, y, z) := p
  let zz := fMul z z
  let yy := fMul y y
  let u := fMul x yy
  let a := fMul 3 (fMul (fSub x zz) (fAdd x zz))
  let x' := fSub (fMul a a) (fMul 8 u)
  (x', fSub (fMul a (fSub (fMul 4 u) x')) (fMul 8 (fMul yy yy)), fMul 2 (fMul y z))

/-- The sum of two points. -/
def ecAdd (p q : Nat × Nat × Nat) : Nat × Nat × Nat :=
  let (x1, y1, z1) := p
  let (x2, y2, z2) := q
  if z1 = 0 then q
  else if z2 = 0 then p
  else
    let s1 := fMul z1 z1
    let s2 := fMul z2 z2
    let u := fMul x1 s2
    let v := fMul y1 (fMul s2 z2)
    let h := fSub (fMul x2 s1) u
    let r := fSub (fMul y2 (fMul s1 z1)) v
    if h = 0 then (if r = 0 then ecDouble p else (1, 1, 0))
    else
      let hh := fMul h h
      let k := fMul u hh
      let hhh := fMul hh h
      let x := fSub (fSub (fMul r r) hhh) (fMul 2 k)
      (x, fSub (fMul r (fSub k x)) (fMul v hhh), fMul h (fMul z1 z2))

/-- A multiple of a point, for a number of 256 bits. -/
def ecMul (k : Nat) (p : Nat × Nat × Nat) : Nat × Nat × Nat :=
  (List.range 256).foldl (fun a i => let a := ecDouble a; if k.testBit (255 - i) then ecAdd a p else a) (1, 1, 0)

/-- The coordinates x and y of a point; 0 and 0 at infinity. -/
def ecAffine (p : Nat × Nat × Nat) : Nat × Nat :=
  let (x, y, z) := p
  let i := powMod p256Prime z (p256Prime - 2)
  let ii := fMul i i
  (fMul x ii, fMul y (fMul ii i))

/-- The point that a public key of 64 bytes, x then y, stands for. -/
def ecPoint (pub : Bytes) : Nat × Nat × Nat := (beNat (pub.take 32), beNat (slice 32 32 pub), 1)

/-- Whether 64 bytes are a valid point of P-256. -/
def p256Valid (pub : Bytes) : Bool :=
  let (x, y, _) := ecPoint pub
  decide (pub.length = 64 ∧ x < p256Prime ∧ y < p256Prime ∧ fMul y y = fAdd (fMul x (fSub (fMul x x) 3)) p256B)

/-- The public key, x then y, of a private key. -/
def p256Public (priv : Bytes) : Bytes :=
  let (x, y) := ecAffine (ecMul (beNat priv) p256Base)
  beBytes 32 x ++ beBytes 32 y

/-- The x-coordinate of the ECDH result of a private and a public key. -/
def ecdhX (priv pub : Bytes) : Bytes := beBytes 32 (ecAffine (ecMul (beNat priv) (ecPoint pub))).1

/-- A private key from random bits: from 1 to the order less 1 (FIPS 186-4, appendix B.4.1). -/
def p256Private (bits : Bytes) : Bytes := beBytes 32 (beNat bits % (p256Order - 1) + 1)

/-- ECDSA verification: public key, SHA-256 digest, and r then s. -/
def ecdsaVerify (pub digest sig : Bytes) : Bool :=
  let r := beNat (sig.take 32)
  let s := beNat (slice 32 32 sig)
  if r = 0 ∨ p256Order ≤ r ∨ s = 0 ∨ p256Order ≤ s then false
  else
    let w := powMod p256Order s (p256Order - 2)
    let q := ecAdd (ecMul (beNat digest * w % p256Order) p256Base) (ecMul (r * w % p256Order) (ecPoint pub))
    decide (q.2.2 ≠ 0 ∧ (ecAffine q).1 % p256Order = r)

end Sys2Proof.Machine
end

