-- ==== Sys2Proof/Machine/State/Admin.lean ====
section
/-!
DEFINITION. What administration keeps (chapter 13): drive states, event log, error history, latched faults,
snapshots, start records, temperature history and the counters of page 0x05.
-/
namespace Sys2Proof.Machine

/-- The drive states of Table 0-5 (R9). -/
inductive Mode where
  | off | coldStart | warmStart | readyRead | ready | brace | dusk | deepSleep | overcast | sealed | rescue
  deriving DecidableEq, Repr

/-- The events of Table 13-16. -/
inductive EventCode where
  | braceEpisode | supplyUnstable | dusk | warningInSleep | bankTest | bankWorn | bankDegraded | bankFailed | deepSleep
  | start | scrubFailed | watchdogExpiry | watchdogEscalation | strapChanged
  | configAdjusted | newerCopy | headerRereadFailed
  | deadlineRisk | deadlineLapse | deadlineRiskCleared | thermalShutdown | referenceLost
  | ownSource | sgmiiRefused | preemptVerifyFailed | slopesScaled | portDeadline | addressConflict
  | timeStep | syncChanged | sessionClosed | ly3Late
  | tamperAlarm | svcEnIgnored | servicePortOpened | unlocked | credentialChanged
  | fwRefused | fwGraft | fwActivated | fwConfirmed | fwFallback | rescue
  | blockRetired | wearWarn | spareWarn | overcast | readUncorrectable | programFailed | fgCollection
  | linePoisoned | checkMismatch | internal | regulatorOscillation | uncleanRecovery
  deriving DecidableEq, Repr

/-- An instant of the drive's time (R178). -/
structure Time where
  s : Nat := 0
  ns : Nat := 0
  deriving DecidableEq, Repr

/-- The request an error-history entry concerns (Table 13-6). -/
structure RequestRef where
  tenant : Nat
  opcode : Nat
  msgId : Nat
  status : Nat
  reason : Nat
  deriving DecidableEq, Repr

/-- One entry of the event log, Table 13-7. -/
structure LogEntry where
  time : Time
  code : Nat
  seq : Nat
  severity : Nat
  state : Nat
  synced : Bool
  a : Nat
  b : Nat
  c : Nat
  deriving DecidableEq, Repr

/-- One entry of the error history, Table 13-6. -/
structure ErrorEntry where
  time : Time
  code : Nat
  startCount : Nat
  request : Option RequestRef
  location : Nat
  deriving DecidableEq, Repr

/-- A snapshot of a log page (R327). -/
structure Snapshot where
  session : Nat
  page : Nat
  id : Nat
  /-- elapsed time at which it was taken, in ns -/
  takenAt : Nat
  bytes : Bytes
  deriving DecidableEq, Repr

/-- A start record of page 0x08 (Table 13-11). -/
structure StartRecord where
  time : Time
  kind : Nat
  source : Nat
  startCount : Nat
  missedSlots : Nat
  deriving DecidableEq, Repr

/-- An event that arose where it could not be logged, kept for the next start (R333). -/
structure DeferredEvent where
  ev : EventCode
  a : Nat := 0
  b : Nat := 0
  c : Nat := 0
  /-- what Tables 13-6 and 13-7 keep of the event's own instant -/
  time : Time
  state : Nat
  synced : Bool
  startCount : Nat
  deriving DecidableEq, Repr

/-- The pages that events and faults keep, with what of them is in flash (R333). -/
structure LogState where
  /-- event log, newest first, at most 1,024 -/
  events : List LogEntry := []
  /-- error history, newest first, at most 256 -/
  errors : List ErrorEntry := []
  /-- EVENT_SEQ of the next event, over life -/
  eventSeq : Nat := 0
  /-- LATCHED_FAULTS, bits of Table 13-5 -/
  latched : BitVec 32 := 0
  /-- the flash copies of the event log, the error history and their sequence (R333) -/
  flashEvents : List LogEntry := []
  flashErrors : List ErrorEntry := []
  flashSeq : Nat := 0
  /-- events to log at the next start (R333) -/
  deferred : List DeferredEvent := []
  deriving DecidableEq, Repr

/-- Snapshots, start records and the life figures of pages 0x01, 0x07 and 0x08. -/
structure AdminState where
  /-- oldest first, at most 8 (R327) -/
  snapshots : List Snapshot := []
  /-- low word of the next SNAPSHOT_ID (R327) -/
  snapshotSeq : Nat := 1
  /-- newest first, at most 16 (R337) -/
  startRecords : List StartRecord := []
  /-- life figures of page 0x07 (R336), temperatures in 0.1 °C -/
  tMinLife : Int := 250
  tMaxLife : Int := 250
  deadlineRiskCount : Nat := 0
  thermalShutdowns : Nat := 0
  /-- powered time in ns that the junction spent in each of the 16 bins, counted up to a powered time -/
  binNs : List Nat := List.replicate 16 0
  binAt : Nat := 0
  /-- RECENT, newest first, at most 96 -/
  recent : List Int := []
  /-- powered time at which the newest of them ended -/
  recentAt : Nat := 0
  uncleanStarts : Nat := 0
  ly3LateMaxNs : Nat := 0
  ly3LatePort : Nat := 0
  ly3LateCause : Nat := 0
  deriving DecidableEq, Repr

/-- The port counters of Table 13-8 in their order, with GPTP_RX last. -/
inductive PortCounter where
  | rxFramesOk | rxFragErr | rxSymbolErr | rxRunt | rxOversize | rxFcsErr | rxBadSource | rxOwnSource | rxVlanErr
  | rxPause | rxLinkLocal | txFrames | txPause | txDiscard | txOversize | linkDown | epTxExpired | ly3Late | ly3Held
  | ly3CompletionLost | ipMalformed | ipFragment | ipNotMine | ipNoService | ipChecksum | ipOffSubnet
  | icmpEchoAnswered | icmpRateDropped | gptpRx
  deriving DecidableEq, Repr

/-- The device counters of Table 13-8 in their order. -/
inductive DevCounter where
  | epRxAccepted | epNotReady | epUnknownProtocol | epBufferFull | epTxFrames | brFlood | brFiltered | brStationMove
  | brLearnFull | lyMalformed | lyNoSession | lyVidDenied | lyReplay | lyCheckFail | lyAuthFail | lyFramesLost
  | lyAliveGaps | ly2DupFrames | ly2AnswersResent | ly1SetBusy | dawnSolDropped | ppsInRejected | svcEnIgnored
  deriving DecidableEq, Repr

/-- The counters of page 0x05 (R18, R176, R334): each a list in the page's order. -/
structure Counters where
  port : PerPort (List Nat) := ⟨List.replicate 29 0, List.replicate 29 0⟩
  dev : List Nat := List.replicate 23 0
  deriving DecidableEq, Repr

end Sys2Proof.Machine
end

