-- ==== Sys2Proof/Machine/State/Fused.lean ====
section
/-!
DEFINITION. What is fused into a unit: part, suffixes, identifiers and addresses (R4 to R7, R160, R325). The manual
gives no values for one unit; those below are the model's (DESIGN CHOICE, notes/assumptions/1.md).
-/
namespace Sys2Proof.Machine

/-- The fuses and factory data of a unit. -/
structure Fused where
  part : Part := .ekv5480
  /-- suffix H: the watchdog starts by hardware -/
  wdgHwStart : Bool := true
  /-- suffix U: bound to a unit -/
  unitBound : Bool := false
  /-- WDG_PERIOD and WDG_WINDOW of Table 13-2: 64 ms, ½ -/
  wdgPeriod : Nat := 1
  wdgWindow : Nat := 2
  stepping : Nat := 0
  unitId : Nat := 1
  serial : Bytes := []
  macEndpoint : Mac := 0x001000000001
  macPortA : Mac := 0x001000000002
  macPortB : Mac := 0x001000000003
  bootRomVersion : Nat := 1
  /-- DS, the device secret of the security block (R448) -/
  deviceSecret : Bytes := []
  /-- C_FACTORY_UF, the factory measurement of the bank, where a valid one is stored -/
  cFactoryUf : Option Nat := some 1880
  deriving DecidableEq, Repr

/-- The capacitance taken before the first test's result: the factory measurement, or 1,504 µF (R81). -/
def Fused.firstUf (f : Fused) : Nat := f.cFactoryUf.getD 1504

end Sys2Proof.Machine
end

