-- ==== Sys2Proof/Machine/State/Net.lean ====
section
/-!
DEFINITION. The ports, the bridge, the endpoint's ingress buffer, the egress queues, gates, shapers and preemption,
and the time base with 802.1AS and 1PPS (chapters 7 and 8), with the frames that wait in them.
-/
namespace Sys2Proof.Machine

/-- How a received frame was tagged, as the endpoint keeps it (R161, R163). -/
inductive RxTag where
  | untagged
  | priority (pcp : Nat)
  | vlan (vid pcp : Nat)
  deriving DecidableEq, Repr

/-- The tag of a transmitted frame: VID and PCP, or none. -/
structure TxTag where
  vid : Nat
  pcp : Nat
  deriving DecidableEq, Repr

/-- The far end of a frame as the endpoint needs it to answer (R163, R214, R270). -/
structure Peer where
  mac : Mac
  /-- IP version, addresses and UDP port of the far end and the address it wrote to; absent on layer 2 -/
  ip : Option (Bool × Nat × Nat × Nat) := none
  deriving DecidableEq, Repr

/-- Where a received frame came from. -/
structure Rx where
  port : Port
  tag : RxTag
  peer : Peer
  /-- its ingress time-stamp: the drive's time, in ns, at its message timestamp point (R180) -/
  stamp : Nat
  /-- elapsed time at its last bit, in ns -/
  at_ : Nat
  deriving DecidableEq, Repr

/-- What FRAME_RECEIVED hands on to a service, to be taken by that service's own row. -/
inductive Service where
  | pause | gptp | arp | nd | echo4 | echo6 | solicitation | wake | sessionOpen | sessionConfirm | sessionClose
  deriving DecidableEq, Repr

/-- A frame handed to a service and not yet taken. -/
structure InFrame where
  service : Service
  rx : Rx
  /-- the payload the service reads -/
  payload : Bytes
  /-- bytes it occupies in the ingress buffer; 0 for frames a port consumes -/
  occupancy : Nat
  deriving DecidableEq, Repr

/-- What the selection of an administrative answer brings about (R235, R323). -/
structure AdminOp where
  opcode : Nat
  param16 : Nat
  versionCond : Nat
  a : Nat
  b : Nat
  /-- value bytes, for FW_DATA and the security opcodes -/
  data : Bytes
  /-- the program of an FW_DATA chunk fails after its retries (R479) -/
  fails : Bool := false
  deriving DecidableEq, Repr

/-- The fields of the answer prefix of Table 10-4 and the data after it, or the LY1 image. -/
structure AnswerBody where
  ready : Nat := 0
  token : Nat := 0
  version : Nat := 0
  admitAt : Nat := 0
  result : Nat := 0
  pinned : Bool := false
  more : Bool := false
  segmented : Bool := false
  data : Bytes := []
  deriving DecidableEq, Repr

/-- How the body of a drive message is made. -/
inductive Body where
  /-- the 32-byte prefix of LY2 and LY3, then its data -/
  | answer (b : AnswerBody)
  /-- bytes as they stand: an LY1 image, a SESSION_ACCEPT, an empty body -/
  | raw (bytes : Bytes)
  /-- an administrative result, formed at its selection (R323) -/
  | admin (op : AdminOp) (admitAt : Nat) (token : Nat)
  deriving DecidableEq, Repr

/-- One Lumyoty message of the drive, waiting or partly sent. -/
structure LyMsg where
  /-- MSG_KIND: 0x02, 0x05, 0x11 or 0x12 -/
  kind : Nat
  gen : Nat
  tenant : Nat
  session : Nat
  msgId : Nat := 0
  alive : Nat := 0
  opcode : Nat := 0
  status : Nat := 0
  reason : Nat := 0
  aliveGap : Bool := false
  /-- DEADLINE_RISK when the message was formed -/
  risk : Bool := false
  body : Body := .raw []
  /-- SEQ of frame 0 (R226: assigned when the frame is formed) -/
  seq : Nat := 0
  /-- key and salt of the tag; absent on answers with SESSION_ID 0 (R208) -/
  key : Option (Bytes × Bytes) := none
  /-- the message is a first answer of LY3, measured under R202 -/
  first : Bool := false
  /-- PRIOR_LATE of the frame (R266) -/
  priorLate : Bool := false
  /-- its selection ends the request, or the session for a close -/
  ends : Bool := false
  /-- MSG_BODY_TOTAL of the request it answers, for the answer cache (R280) -/
  reqTotal : Nat := 0
  deriving DecidableEq, Repr

/-- What an endpoint frame carries. -/
inductive Load where
  | ly (m : LyMsg)
  /-- a whole Ethernet payload: ARP, Neighbor Advertisement, echo -/
  | raw (bytes : Bytes)
  /-- a dawn announcement with its serving level and REPEAT_INDEX, filled at its selection (Table 4-6) -/
  | dawn (level : Mode) (index : Nat)
  deriving DecidableEq, Repr

/-- One entry of an endpoint egress queue: a frame, or a message whose frames leave one after the other. -/
structure EpEntry where
  dst : Peer
  ethertype : Nat
  tag : Option TxTag
  cls : Nat
  express : Bool
  /-- admission timestamp, the order of row 2 of Table 8-2 -/
  admitAt : Nat
  /-- elapsed time at the last bit of the request's last frame (R202) -/
  rxEnd : Nat
  queuedAt : Nat
  load : Load
  /-- index of the next frame to leave -/
  next : Nat := 0
  /-- of its frames from `next` on, those in the port's 32 KiB (R173), by the elapsed times at which they were queued (R190) -/
  queued : List Nat := []
  deriving DecidableEq, Repr

/-- A forwarded frame in an egress queue (R173). -/
structure FwdFrame where
  cls : Nat
  express : Bool
  /-- bytes from destination to FCS -/
  length : Nat
  queuedAt : Nat
  bytes : Bytes
  deriving DecidableEq, Repr

/-- A port of a clock: the clock's identity and the port's number. -/
structure PortId where
  clock : Nat
  number : Nat
  deriving DecidableEq, Repr

/-- What an Announce tells of a grandmaster (R181). -/
structure Announce where
  priority1 : Nat
  clockClass : Nat
  accuracy : Nat
  variance : Nat
  priority2 : Nat
  identity : Nat
  steps : Nat
  timeSource : Nat
  /-- the clocks it has passed through -/
  path : List Nat := []
  deriving DecidableEq, Repr

/-- An 802.1AS message, by the fields the drive uses (R181); the encoding is the standard's. A rate is the excess of a rate
ratio over 1, in units of 2⁻⁴¹. -/
inductive GptpMsg where
  /-- a one-step Sync carries its origin time, correction and rate, a two-step one leaves them to its Follow_Up -/
  | sync (seq : Nat) (twoStep : Bool) (originNs : Nat) (correctionNs rate : Int)
  | followUp (seq : Nat) (originNs : Nat) (correctionNs rate : Int)
  | pdelayReq (seq : Nat)
  | pdelayResp (seq : Nat) (requestReceiptNs : Nat) (correctionNs : Int) (requester : PortId)
  | pdelayRespFollowUp (seq : Nat) (responseOriginNs : Nat) (correctionNs : Int) (requester : PortId)
  | announce (a : Announce)
  | signaling
  deriving DecidableEq, Repr

/-- What a relayed Sync brings from the port it was heard on: its ingress time-stamp, the neighbour delay there, and the rate
ratio to the grandmaster. -/
structure Relay where
  receipt : Nat
  delay : Nat
  rate : Int
  deriving DecidableEq, Repr

/-- A received or queued 802.1AS frame. -/
structure GptpFrame where
  domain : Nat
  msg : GptpMsg
  /-- the sending clock and port -/
  source : PortId
  /-- logMessageInterval -/
  interval : Int := 0
  /-- a relayed Sync: what it brings -/
  relayed : Option Relay := none
  deriving DecidableEq, Repr

/-- What a port has on the wire, by the row of Table 8-2 it came from. -/
inductive OnWire where
  | pause (quanta : Nat)
  | gptp (f : GptpFrame)
  | ep (e : EpEntry)
  | fwd (f : FwdFrame)
  deriving DecidableEq, Repr

/-- A received preemptable frame of which fragments have come and the last has not (R158). -/
structure RxPart where
  /-- number of the frame, and the count of the fragment awaited -/
  frame : Nat
  next : Nat
  bytes : Bytes
  /-- elapsed time at the first fragment's message timestamp point -/
  begun : Nat
  /-- a symbol or carrier error came in one of the fragments -/
  bad : Bool
  deriving DecidableEq, Repr

/-- Verification of preemption on a port (R199). -/
inductive Preempt where
  | off | verifying | active | failed
  deriving DecidableEq, Repr

/-- One shaper, with credit scaled as R195 has it. -/
structure Shaper where
  /-- idleSlope in effect, in kb/s, after the scaling of R197 -/
  idle : Nat := 0
  cs : Int := 0
  hi : Int := 0
  lo : Int := 0
  deriving DecidableEq, Repr

/-- The running gate list of a port (R191 to R194). -/
structure GateRun where
  running : Bool := false
  /-- start of the current cycle, in ns of the drive's time -/
  cycleStart : Nat := 0
  /-- index of the entry in progress -/
  entry : Nat := 0
  /-- end of the entry in progress, in ns of the drive's time -/
  entryEnd : Nat := 0
  /-- gate states: bit n open for class n -/
  gates : Nat := 0xFF
  /-- the MAC hold of R193 -/
  hold : Bool := false
  deriving DecidableEq, Repr

/-- One line port. -/
structure PortState where
  up : Bool := false
  /-- 10, 100 or 1000 Mb/s while up, and after it the speed last held -/
  speed : Nat := 0
  /-- autonegotiation resolved symmetric pause -/
  pauseNegotiated : Bool := false
  /-- pause in effect in both directions (R152) -/
  pauseInEffect : Bool := false
  /-- a pause with quanta 0xFFFF is in force on the port (R165), and when it repeats next -/
  pauseForce : Option Nat := none
  /-- a received pause holds the port until this elapsed time (R167) -/
  heldUntil : Option Nat := none
  /-- elapsed time at which the last received pause stopped holding the port -/
  heldLast : Option Nat := none
  /-- PHY held in reset (R44, R93) -/
  phyReset : Bool := true
  /-- elapsed time of the last bit of the frame received last -/
  rxEnd : Nat := 0
  /-- the preemptable frame being reassembled (R158) -/
  rxPart : Option RxPart := none
  /-- egress queues -/
  pauseQ : List Nat := []
  gptpQ : List GptpFrame := []
  epQ : List EpEntry := []
  fwdQ : List FwdFrame := []
  onWire : Option OnWire := none
  /-- elapsed time at which the frame on the wire ends -/
  wireEnd : Nat := 0
  /-- bytes of that frame that left in earlier fragments -/
  fragFrom : Nat := 0
  /-- the frame on the wire has been cut after these bytes: its mCRC and the gap are leaving (R200) -/
  cut : Option Nat := none
  /-- a preempted frame and the bytes of it already sent -/
  preempted : Option (OnWire × Nat) := none
  preempt : Preempt := .off
  /-- elapsed time at which the verification of preemption began (R199) -/
  verifyFrom : Nat := 0
  shaper5 : Shaper := {}
  shaper6 : Shaper := {}
  gate : GateRun := {}
  /-- in-band SGMII status last reported: up, speed, full duplex -/
  sgmii : Option (Bool × Nat × Bool) := none
  /-- last OWN_SOURCE, ADDRESS_CONFLICT and LY3_LATE event (rate limits of 60 s), by elapsed time -/
  ownSourceAt : Option Nat := none
  lateAt : Option Nat := none
  /-- resolved gateway, and when it is resolved again (R272) -/
  gateway : Option Mac := none
  gatewayDue : Option Nat := none
  /-- start of the running second of echoes and how many it answered (R274) -/
  echoFrom : Nat := 0
  echoCount : Nat := 0
  /-- last dawn announcement sent for a solicitation (R101) -/
  solicitAt : Option Nat := none
  deriving DecidableEq, Repr

/-- A learning-table entry (R171). -/
structure LearnEntry where
  mac : Mac
  port : Port
  refreshed : Nat
  deriving DecidableEq, Repr

/-- Bridge, endpoint and ingress buffer. -/
structure NetState where
  port : PerPort PortState := ⟨{}, {}⟩
  learn : List LearnEntry := []
  /-- bytes stored in the ingress buffer (R164) -/
  level : Nat := 0
  /-- ING_PAUSE_ACTIVE: the pause state of R165 -/
  paused : Bool := false
  crossedHigh : Bool := false
  crossCount : Nat := 0
  peak : Nat := 0
  /-- frames handed to a service, oldest first -/
  inbox : List InFrame := []
  /-- the ingress gate is open (R99) -/
  gateOpen : Bool := false
  /-- the bridge forwards (R93) -/
  forwarding : Bool := false
  /-- the configured bridge and time settings are in use, from step 15 (R100, R175) -/
  configured : Bool := false
  counters : Counters := {}
  /-- last ADDRESS_CONFLICT event, by elapsed time -/
  conflictAt : Option Nat := none
  /-- STAT_ACT_N asserted until this elapsed time (R43) -/
  actUntil : Option Nat := none
  deriving DecidableEq, Repr

/-- One gPTP port. -/
structure GptpPort where
  /-- neighborPropDelay in ns, when measured -/
  delay : Option Nat := none
  asCapable : Bool := false
  pdelaySeq : Nat := 0
  /-- time-stamps of a running peer-delay exchange: request sent, request receipt, response received -/
  t1 : Option Nat := none
  t2 : Option Nat := none
  t4 : Option Nat := none
  /-- response origin and receipt of the last exchange, and the rate ratio to the neighbour that two exchanges give -/
  lastResp : Option (Nat × Nat) := none
  rate : Int := 0
  /-- receipt time-stamp of a two-step Sync waiting for its Follow_Up -/
  syncSeq : Option (Nat × Nat) := none
  /-- what the last Announce told, the port that sent it, and the elapsed time at which announceReceiptTimeout expires -/
  announce : Option Announce := none
  sender : PortId := ⟨0, 0⟩
  announceBy : Nat := 0
  /-- elapsed time at which syncReceiptTimeout expires, once a Sync was heard -/
  syncBy : Option Nat := none
  deriving DecidableEq, Repr

/-- The time base, 802.1AS and 1PPS. -/
structure TimeState where
  running : Bool := false
  /-- it counts from 0 and has not been set since it started (R178) -/
  unset : Bool := false
  /-- the drive's time and the elapsed time at the last set, step or change of rate -/
  anchorNs : Nat := 0
  anchorAt : Nat := 0
  /-- rate correction in parts per billion, within ±500,000 (R179) -/
  ratePpb : Int := 0
  synced : Bool := false
  /-- the drive is grandmaster; else the slave port, if a grandmaster is followed -/
  grandmaster : Bool := false
  slave : Option Port := none
  /-- offsets last computed, newest first, at most 8 -/
  offsets : List Int := []
  /-- GM_OFFSET_NS -/
  gmOffset : Int := 0
  syncSeq : Nat := 0
  /-- elapsed times at which the next Sync, Announce and peer-delay request are due (R181) -/
  syncDue : Nat := 0
  announceDue : Nat := 0
  pdelayDue : Nat := 0
  port : PerPort GptpPort := ⟨{}, {}⟩
  /-- the latest admission timestamp (R180) -/
  admitFloor : Nat := 0
  /-- last PPS_OUT rising edge, in elapsed time, and whether the output is high -/
  ppsRise : Option Nat := none
  ppsHigh : Bool := false
  /-- PPS_IN time-stamps, newest first, at most 8 -/
  ppsIn : List Nat := []
  /-- last accepted edge of mode 0x02, in elapsed time, while locked -/
  ppsLock : Option Nat := none
  ppsRejects : Nat := 0
  /-- the parameters of the configuration are in use, from step 15 (R185) -/
  configured : Bool := false
  deriving DecidableEq, Repr

end Sys2Proof.Machine
end

