-- ==== Sys2Proof/Machine/State/Session.lean ====
section
/-!
DEFINITION. Sessions, messages being assembled, requests in flight, answer caches and LY1 register sets
(chapters 9 to 11).
-/
namespace Sys2Proof.Machine

/-- One frame of a host message, as the ingress buffer holds it. -/
structure MsgFrame where
  index : Nat
  final : Bool
  body : Bytes
  occupancy : Nat
  rx : Rx
  deriving DecidableEq, Repr

/-- A later segment that windbreak has refused (R308). -/
structure SegmentWait where
  /-- elapsed time of its first refusal -/
  since : Nat
  /-- status, reason and RETRY_AFTER_US of its last refusal -/
  status : Nat
  reason : Nat
  retryUs : Nat
  /-- elapsed time at which that RETRY_AFTER_US has passed -/
  again : Nat
  /-- the drain has released charge, or one of CH2 to CH5 has written a new output, since then -/
  stirred : Bool := false
  deriving DecidableEq, Repr

/-- A message ended before it was complete, or refused before it was in flight (R225, R227, R228). -/
structure Ended where
  msgId : Nat
  /-- elapsed time of its end -/
  at_ : Nat
  /-- it ended with INTEGRITY 0x03 (row 1 of Table 11-3) -/
  inconsistent : Bool
  deriving DecidableEq, Repr

/-- A host message of an open session that is being assembled or waits for its row. -/
structure Assembly where
  /-- the session's count of messages: two of them can carry one MSG_ID (R265, R294) -/
  serial : Nat
  kind : Nat
  msgId : Nat
  opcode : Nat
  alive : Nat
  bodyTotal : Nat
  /-- frames present, in ascending index -/
  frames : List MsgFrame
  /-- elapsed time of the first and of the last frame received -/
  firstAt : Nat
  lastAt : Nat
  /-- the message left an ALIVE gap (R229) -/
  aliveGap : Bool
  /-- a later segment that was refused and waits (R308) -/
  refused : Option SegmentWait := none
  /-- segments of a segmented write already staged, once admitted -/
  staged : Nat := 0
  /-- admitted on the segmented path -/
  admitted : Bool := false
  deriving DecidableEq, Repr

/-- An LY1 register image (Table 11-6). -/
structure Ly1Image where
  set : Nat := 0
  flags : Nat := 0
  error : Nat := 0
  driveState : Nat := 0
  lba : Nat := 0
  count : Nat := 0
  cmdMsgId : Nat := 0
  deriving DecidableEq, Repr

/-- A task-register set (R286). -/
structure Ly1Set where
  busy : Bool := false
  image : Ly1Image := {}
  deriving DecidableEq, Repr

/-- One version of a key (R299, R306 to R311). -/
structure Version where
  num : Nat
  /-- the bytes that exist: all of them, or those staged so far while the version is open -/
  value : Bytes
  /-- declared length while open, else the length of `value` -/
  total : Nat
  /-- admission timestamp of the write that made it -/
  admitAt : Nat
  /-- expiry instant in ns, 0 for none (R316) -/
  expiry : Nat
  segmented : Bool := false
  isOpen : Bool := false
  /-- CRC-16 kept with a sector (R432) -/
  crc16 : Option Nat := none
  /-- admission timestamp of the version that superseded it -/
  superseded : Option Nat := none
  deriving DecidableEq, Repr

/-- What a request in flight still waits for. -/
inductive Work where
  /-- its result is formed: it waits for the selection of the frame that ends it -/
  | answered
  /-- a media read of a resolved version (R253, R300): key, version, its whole value, length told, mark, span asked -/
  | read (key : Bytes) (version : Nat) (value : Bytes) (total : Nat) (segmented : Bool) (off len : Nat)
  /-- bytes of an open segmented version, not all staged (R310): its number and admission timestamp -/
  | openRead (key : Bytes) (version admitAt : Nat) (off len : Nat)
  /-- the load of a held PIN (R258) -/
  | pinLoad (key : Bytes) (version : Nat)
  /-- a PIN that waits for an open version to end (R310) -/
  | pinOpen (key : Bytes) (version admitAt : Nat)
  /-- a range operation that waits for its lock: delete?, start, end, at most -/
  | rangeWait (delete : Bool) (start : Bytes) (end_ : Option Bytes) (most : Nat)
  /-- a range operation that holds its lock; a read with the result current at the grant (R254) -/
  | rangeHeld (delete : Bool) (start : Bytes) (end_ : Option Bytes) (most : Nat) (result : AnswerBody)
  /-- an LY1 FLUSH and the commands in flight that it still waits for -/
  | flush (waits : List Nat)
  /-- a segmented write between its first and its last segment: its open version, and the number and admission timestamp of
  the version that an APPEND built on -/
  | segmented (key : Bytes) (v : Version) (base : Option (Nat × Nat))
  /-- an administrative or firmware request whose work goes on -/
  | admin
  deriving DecidableEq, Repr

/-- A pinned key (R258). -/
structure Pin where
  tenant : Nat
  key : Bytes
  charge : Nat
  /-- version in the pin cache, once loaded -/
  loaded : Option Nat
  deriving DecidableEq, Repr

/-- A request in flight (R231). -/
structure Flight where
  msgId : Nat
  opcode : Nat
  alive : Nat
  aliveGap : Bool
  rx : Rx
  /-- admission timestamp -/
  admitAt : Nat
  /-- elapsed time of the admission (R509) -/
  admittedAt : Nat
  /-- HELD_TOKEN, once a HELD first answer is formed -/
  token : Option Nat := none
  /-- the commit point is passed (R235) -/
  committed : Bool := false
  /-- TR_SET, TR_LBA and TR_COUNT of an LY1 command -/
  ly1 : Option (Nat × Nat × Nat) := none
  bodyTotal : Nat := 0
  work : Work := .answered
  /-- PINNED of an answer that reports no result of its own: the pin state left by the requests admitted before (R247) -/
  pinned : Bool := false
  /-- a pin the request made (true) or ended (false), undone by a cancel (R234) -/
  undo : Option (Bool × Pin) := none
  deriving DecidableEq, Repr

/-- An entry of the LY2 answer cache (R280). -/
structure CacheEntry where
  msgId : Nat
  opcode : Nat
  bodyTotal : Nat
  status : Nat
  reason : Nat
  body : Bytes
  alive : Nat
  /-- elapsed time of the selection of the answer's last frame -/
  at_ : Nat
  /-- elapsed time of the last resend -/
  resentAt : Option Nat := none
  deriving DecidableEq, Repr

/-- Where a session stands. -/
inductive Phase where
  /-- SESSION_ACCEPT sent at this elapsed time (R215) -/
  | pending (since : Nat)
  | open
  /-- closing by the host: MSG_ID, ALIVE and origin of its SESSION_CLOSE, with its admission timestamp for the stamp, and
  whether the answer is queued (R221) -/
  | closing (msgId alive : Nat) (gap : Bool) (rx : Rx) (sent : Bool)
  /-- closing by the drive with a cause of Table 9-9, and whether the notice is queued (R222) -/
  | dropping (cause : Nat) (sent : Bool)
  deriving DecidableEq, Repr

/-- A session or pending handshake (R214 to R224). -/
structure Sess where
  id : Nat
  tenant : Nat
  gen : Nat
  port : Port
  peer : Peer
  phase : Phase
  window : Nat
  aliveMs : Nat
  kH2d : Bytes
  kD2h : Bytes
  saltH2d : Bytes
  saltD2h : Bytes
  /-- TOP and SEEN of the host direction (R226) -/
  top : Nat := 1
  seen : BitVec 64 := 1
  lost : Nat := 0
  /-- SEQ of the next frame of the drive -/
  driveSeq : Nat := 1
  lastAlive : Nat := 0
  /-- elapsed time of the last frame that passed its tag, or of the timer's restart (R223) -/
  heardAt : Nat
  /-- the port's link went down and has stayed down since the last frame heard -/
  linkLost : Bool := false
  /-- elapsed times of failed tags within the last second (R222) -/
  authFails : List Nat := []
  assembling : List Assembly := []
  nextSerial : Nat := 0
  flights : List Flight := []
  /-- messages ended within the last 2 s, whose later frames are discarded (R225, R227, R228, Table 11-3 row 1) -/
  ended : List Ended := []
  cache : List CacheEntry := []
  sets : List Ly1Set := List.replicate 16 {}
  /-- a first answer left late since the last drive frame (R266) -/
  priorLate : Bool := false
  /-- tag of the frames last heard, for notices and completions -/
  tag : RxTag := .untagged
  deriving DecidableEq, Repr

/-- A held or waiting range lock (R315). -/
structure RangeLock where
  tenant : Nat
  session : Nat
  msgId : Nat
  start : Bytes
  /-- absent where the range has no upper bound -/
  end_ : Option Bytes
  deriving DecidableEq, Repr

/-- All sessions and what they share. -/
structure SessionState where
  sessions : List Sess := []
  /-- the identifier assigned last (R215) -/
  lastId : Nat := 0
  /-- identifiers closed, and when, for the 1 s of R215 -/
  closed : List (Nat × Nat) := []
  /-- HELD_TOKEN assigned last (R253) -/
  lastToken : Nat := 0
  /-- range locks held, and requests waiting in arrival order (R315) -/
  held : List RangeLock := []
  waiting : List RangeLock := []
  /-- tenant and elapsed time of the establishments of the last 10 ms (R105) -/
  establishedAt : List (Nat × Nat) := []
  /-- completions kept across a start, with the port they leave by (R97, R257) -/
  kept : List (Port × EpEntry) := []
  deriving DecidableEq, Repr

end Sys2Proof.Machine
end

