-- ==== Sys2Proof/Machine/State/Guard.lean ====
section
/-!
DEFINITION. The scan engine, the watchdog, the security block and the firmware banks (chapters 17 to 19).
-/
namespace Sys2Proof.Machine

/-! ## Scan engine and watchdog -/

/-- Sources of a scan job (Table 17-4). -/
inductive ScanSource where
  | retained | bank | package
  deriving DecidableEq, Repr

/-- Where a job stands in a chain (Table 17-4). -/
inductive Chain where
  | single | first | middle | last
  deriving DecidableEq, Repr

/-- Who submitted a job, which decides the reaction to its end (Table 17-5). -/
inductive ScanOwner where
  /-- the package verification of a request: session, MSG_ID -/
  | verify (session msgId : Nat)
  | other
  deriving DecidableEq, Repr

/-- A scan job (Table 17-4). -/
structure ScanJob where
  source : ScanSource
  start : Nat
  length : Nat
  /-- CRC-32C and SHA-256 are computed -/
  crc : Bool
  sha : Bool
  chain : Chain
  expectedCrc : Option Nat := none
  expectedSha : Option Bytes := none
  owner : ScanOwner
  deriving DecidableEq, Repr

/-- CU2 and the windowed watchdog. -/
structure WatchState where
  /-- jobs in order of submission; the first one runs -/
  jobs : List ScanJob := []
  running : Bool := false
  /-- it ran when the start in progress was recognised (Table 17-7) -/
  wasRunning : Bool := false
  /-- elapsed time at which the period under way began -/
  periodAt : Nat := 0
  /-- slots that have checked in -/
  checked : List Nat := []
  resetCount : Nat := 0
  lastMissed : Nat := 0
  escalations : Nat := 0
  /-- watchdog warm starts and escalations of the last 60 s (R91) -/
  warmAt : List Nat := []
  escalatedAt : List Nat := []
  deriving DecidableEq, Repr

/-! ## Security -/

/-- The security block (R448 to R454, R457, R462). -/
structure SecState where
  /-- key register: KBK, absent once zeroized; lock flag; strongest action verified -/
  kbk : Option Bytes := none
  lockFlag : Bool := false
  recordedAction : Nat := 0
  /-- the site key held in flash, with its version -/
  site : Option (Bytes × Nat) := none
  mapKey : Option Bytes := none
  /-- DK_t in flash, and which of them are open in the security block -/
  dk : List (Option Bytes) := List.replicate 8 none
  dkOpen : List Bool := List.replicate 8 false
  dramKey : Bytes := []
  /-- installed credentials with their versions, and the installations counted so far (R453) -/
  installed : List (Option (Bytes × Nat)) := List.replicate 8 none
  installs : List Nat := List.replicate 8 0
  /-- the action in force (R454) -/
  action : Nat := 1
  /-- samples in a row that found the loop open or faulted, up to 3 -/
  badSamples : Nat := 0
  /-- since when the loop has been intact -/
  intactSince : Option Nat := some 0
  /-- an alarm raised where it waits for the next start (Table 18-3, Rescue and Dusk) -/
  alarmPending : Bool := false
  /-- the drain of R457 is under way -/
  lockDrain : Bool := false
  /-- the Sealed state followed an erase (R461) -/
  erased : Bool := false
  deriving DecidableEq, Repr

/-! ## Firmware -/

/-- A part entry (Table 19-3). -/
structure PartEntry where
  part : Nat
  version : Nat
  offset : Nat
  length : Nat
  hash : Bytes
  iv : Bytes
  /-- bytes 0 to 15 of the entry, the additional data of R474 -/
  head : Bytes
  deriving DecidableEq, Repr

/-- A package header with its part entries (Tables 19-2 and 19-3). -/
structure Package where
  magic : Nat := 0x454B4657
  format : Nat := 1
  binding : Nat := 1
  partCount : Nat := 4
  sigKey : Nat := 0
  manifest : Nat := 1
  length : Nat := 0
  hwTypes : Nat := 3
  settingsKeep : Bool := false
  steppingCount : Nat := 1
  unitCount : Nat := 0
  graftFormat : Nat := 0
  retainedFormat : Nat := 0
  catalogue : Nat := 1
  confirmMin : Nat := 0
  keySlots : Nat := 1
  keySlotOffset : Nat := 0
  steppings : List Nat := [0]
  units : List Nat := []
  parts : List PartEntry := []
  /-- bytes 0 to 511 of the package -/
  head : Bytes := []
  deriving DecidableEq, Repr

/-- BANK_STATE of Table 13-9. -/
inductive BankState where
  | empty | loaded | verified | running | previous | failed
  deriving DecidableEq, Repr

/-- What a bank stores (R476): bytes 0 to 511 of its package, the key slot of this unit, and the image in ciphertext. -/
structure BankContent where
  head : Bytes
  slot : Bytes
  image : Bytes
  deriving DecidableEq, Repr

/-- A bank of a part in the system region (R469, R476). The content of a bank programmed before the unit left the factory is
not known (notes/assumptions/27.md). -/
structure Bank where
  part : Nat
  bank : Nat
  state : BankState := .empty
  version : Nat := 0
  manifest : Nat := 0
  crc : Nat := 0
  content : Option BankContent := none
  deriving DecidableEq, Repr

/-- CONFIRM_STATE of Table 13-9. -/
inductive Confirm where
  | none
  /-- on trial until this many ns of powered time over life (R490) -/
  | trial (deadline : Nat)
  | confirmed
  deriving DecidableEq, Repr

/-- The commit record (R482). -/
structure Commit where
  seq : Nat := 0
  running : Package := {}
  confirm : Confirm := .confirmed
  previous : Option Package := Option.none
  failed : Option Nat := Option.none
  deriving DecidableEq, Repr

/-- A download (R478). -/
structure Download where
  session : Nat
  length : Nat
  /-- units of 4,096 bytes received: offset and bytes -/
  units : List (Nat × Bytes) := []
  headerOk : Bool := false
  /-- elapsed time of the last firmware opcode of the session -/
  lastAt : Nat
  /-- FW_VERIFY is under way: its MSG_ID -/
  verifying : Option Nat := Option.none
  /-- a program of the banks will fail after its retries (code 0x0C of Table 19-6) -/
  bankFails : Bool := false
  deriving DecidableEq, Repr

/-- A Graft between its admission and its handover (R485), or a fallback by Graft with its cause (R492). -/
structure GraftRun where
  session : Nat
  msgId : Nat
  at_ : Nat
  fallback : Option Nat := none
  deriving DecidableEq, Repr

/-- An activation or fallback that the next ACTIVATION row carries out (R487, R492). -/
structure ActivationRun where
  /-- the fallback's cause; absent for an activation of the verified package -/
  fallback : Option Nat
  at_ : Nat
  deriving DecidableEq, Repr

/-- The management processors (R28). -/
inductive Mp where
  | mp0 | mp1
  deriving DecidableEq, Repr

/-- The other management processor. -/
def Mp.other : Mp → Mp
  | .mp0 => .mp1
  | .mp1 => .mp0

/-- Firmware. -/
structure FwState where
  /-- the management processor that serves; the other one stands by and holds no live state (R28) -/
  serving : Mp := .mp0
  /-- the commit record in force -/
  commit : Commit := {}
  /-- its two copies in the system region, in the order in which they are programmed (R482) -/
  copies : List Commit := [{}, {}]
  banks : List Bank :=
    [1, 2, 3, 4].flatMap fun k => [{ part := k, bank := 0, state := .running, manifest := 1 }, { part := k, bank := 1 }]
  /-- LAST_CHANGE of Table 13-9 -/
  lastChange : Nat := 0
  download : Option Download := none
  /-- the verified package whose banks are programmed -/
  verified : Option Package := none
  graft : Option GraftRun := none
  activation : Option ActivationRun := none
  /-- a fallback that waits for Brace or a start to end, with its cause (R492) -/
  fallbackDue : Option Nat := none
  deriving DecidableEq, Repr

end Sys2Proof.Machine
end

