-- ==== Sys2Proof/Machine/State/Media.lean ====
section
/-!
DEFINITION. Flash: dies, blocks, bands, page tags, the deadwood, wear and the map journal (chapters 14 and 15).
Blocks that are not listed have never been programmed.
-/
namespace Sys2Proof.Machine

/-- What a block of the data area is used for. -/
inductive BlockUse where
  | free
  /-- a data block of a band -/
  | data (band : Nat)
  /-- the parity block of a band -/
  | parity (band : Nat)
  /-- emptied: it is erased once a journal entry records the release (R389) -/
  | released
  deriving DecidableEq, Repr

/-- A block by its die and die block number (R347). -/
structure BlockId where
  die : Nat
  block : Nat
  deriving DecidableEq, Repr

/-- A listed block. -/
structure BlockRec where
  id : BlockId
  use : BlockUse
  erases : Nat := 0
  /-- page reads since the last erase (R364) -/
  reads : Nat := 0
  /-- when it was last programmed or scrubbed, in the time that R363 counts -/
  scrubbed : Nat := 0
  deriving DecidableEq, Repr

/-- PAGE_KIND of Table 15-1. -/
inductive PageKind where
  | data | parity | fill | index | journal
  deriving DecidableEq, Repr

/-- The page tag of Table 15-1. -/
structure PageTag where
  /-- physical page address (R347), where the page was programmed -/
  addr : Nat
  kind : PageKind
  reloc : Bool := false
  mirror : Bool := false
  extents : Nat := 0
  writeSeq : Nat
  keyHash : Nat := 0
  time : Time
  temp : Int
  firstExtent : Nat := 0xFFFF
  band : Nat
  jseq : Nat
  /-- what its data bytes hold (R355, R455): pieces, each with its offset -/
  body : List (Nat × Bytes) := []
  deriving DecidableEq, Repr

/-- A band (R354): one block of each die that had one. -/
structure Band where
  id : Nat
  /-- the relocation band -/
  reloc : Bool
  blocks : List BlockId
  parity : BlockId
  /-- next row, and the data pages of it already programmed -/
  row : Nat := 0
  col : Nat := 0
  /-- order of closing; absent while the band is open -/
  closed : Option Nat := none
  /-- the close verify is done and the parity block released -/
  verified : Bool := false
  /-- tracked threshold index (R361, R362) -/
  tracked : Nat := 0
  deriving DecidableEq, Repr

/-- Where a version's extent lies: its band and the pages that hold it. -/
structure Placement where
  tenant : Nat
  key : Bytes
  version : Nat
  band : Nat
  pages : List Nat
  deriving DecidableEq, Repr

/-- The pages whose valid data is moved into the relocation band. -/
inductive Scope where
  | band (id : Nat)
  | block (b : BlockId)
  /-- one row of a band (R398) -/
  | row (band page : Nat)
  deriving DecidableEq, Repr

/-- What a die operation is for. -/
inductive Purpose where
  /-- a read for a held request or a pin load -/
  | held (session msgId : Nat)
  /-- the program of a staged extent -/
  | drain (extent : Nat)
  | journal
  | index
  | collect (band : Nat)
  | verify (band : Nat)
  | probe (band : Nat)
  /-- the extents of the incomplete row that an unclean stop left in a band (R398) -/
  | partialRow (band : Nat)
  | scrub
  | refresh
  | levelling
  /-- the program that moves the next value of a scope into the relocation band -/
  | move (scope : Scope)
  | erase
  deriving DecidableEq, Repr

/-- Reads, programs and erases (Table 14-4). -/
inductive OpKind where
  | read | program | erase
  deriving DecidableEq, Repr

/-- An operation for a die. -/
structure DieOp where
  id : Nat
  kind : OpKind
  purpose : Purpose
  die : Nat
  block : Nat
  page : Nat := 0
  /-- elapsed time of its arrival in the queue and of its start -/
  arrived : Nat
  started : Nat := 0
  /-- it has waited 50 ms (R357) -/
  promoted : Bool := false
  /-- the one retry of R359 is under way -/
  retried : Bool := false
  /-- threshold index of a read (R360) -/
  threshold : Nat := 0
  /-- a scrub whose days had run out before it was asked for (R363) -/
  overdue : Bool := false
  deriving DecidableEq, Repr

/-- A die (R359): recent timeouts, failed operations in a row, and whether it failed. -/
structure Die where
  timeouts : List Nat := []
  failures : Nat := 0
  failed : Bool := false
  deriving DecidableEq, Repr

/-- In-service count W of a part at shipment (Table 14-2). -/
def shippedInService : Part → Nat
  | .ekv5240 => 63232
  | .ekv5480 => 126464

/-- Good data-area blocks of a part at shipment: the raw blocks less the system region and the factory-retired allowance
(Table 14-2). -/
def shippedGood : Part → Nat
  | .ekv5240 => 64256
  | .ekv5480 => 128512

/-- Flash. -/
structure MediaState where
  dies : List Die := List.replicate 32 {}
  blocks : List BlockRec := []
  /-- blocks retired since shipment -/
  deadwood : List BlockId := []
  /-- W and the good data-area blocks (R348) -/
  inService : Nat := 126464
  good : Nat := 128512
  /-- erase counts of the blocks that index and journal take, free values from the first checkpoint on -/
  indexErases : List Nat := []
  bands : List Band := []
  nextBand : Nat := 1
  /-- bands closed so far -/
  closings : Nat := 0
  placed : List Placement := []
  /-- bytes in use of the page that the drain programmed last -/
  fill : Nat := 0
  tags : List PageTag := []
  /-- waiting operations in arrival order, and those in progress, one a die -/
  waiting : List DieOp := []
  busy : List DieOp := []
  nextOp : Nat := 1
  /-- collection in the foreground and in the background (R366, R367) -/
  fg : Bool := false
  bg : Bool := false
  /-- pages found uncorrectable, with their event logged (R372) -/
  lost : List Nat := []
  /-- 64-bit life figures of Table 14-8 -/
  hostBytes : Nat := 0
  mediaBytes : Nat := 0
  wearWarn : Bool := false
  spareWarn : Bool := false
  /-- Overcast has been entered: it lasts for the life of the unit (R374) -/
  overcast : Bool := false
  deriving DecidableEq, Repr

/-- Flash of a part as it is shipped. -/
def MediaState.shipped (p : Part) : MediaState := { inService := shippedInService p, good := shippedGood p }

/-- Journal entries of Table 15-2. -/
inductive EntryKind where
  | none | delta | checkpoint | stop | dusk | recovery | open
  deriving DecidableEq, Repr

/-- What the Dusk record carries for event 0x0103 (R73). -/
structure DuskRecord where
  cause : Nat
  time : Time
  minVinMv : Nat
  flushedKib : Nat
  /-- TIME_SYNCED at commitment -/
  synced : Bool
  deriving DecidableEq, Repr

/-- The frontier of a stream (R386): its open band and the row of the oldest extent not recorded. -/
structure Frontier where
  band : Nat := 0
  row : Nat := 0
  deriving DecidableEq, Repr

/-- The map journal. -/
structure JournalState where
  /-- kind, JSEQ and time of the newest complete entry -/
  newest : EntryKind := .none
  jseq : Nat := 0
  time : Time := {}
  /-- the time recorded last: the later of the newest entry's and the highest of a page tag after it (R178, R396). A recovery
  entry, which is written before the time is set, keeps what its scan found -/
  lastTime : Time := {}
  /-- WRITE_SEQ last issued, and the highest that an entry carries -/
  writeSeq : Nat := 0
  recordedSeq : Nat := 0
  /-- elapsed time of the oldest map change not recorded (R385) -/
  unrecorded : Option Nat := none
  /-- `JRN_INTERVAL_MS` and `JRN_INTERVAL_MIB` in force: a runtime feature takes effect after the next flush (Table 6-17) -/
  intervalMs : Nat := 200
  intervalMib : Nat := 64
  /-- data-band pages programmed since the newest entry -/
  tailPages : Nat := 0
  deltas : Nat := 0
  drain : Frontier := {}
  reloc : Frontier := {}
  /-- the blocks of the next two bands of each stream, in the order named -/
  nextDrain : List (List BlockId) := []
  nextReloc : List (List BlockId) := []
  /-- reads and scrub times of the newest checkpoint -/
  checkpoint : List BlockRec := []
  /-- the journal block in use, by its order, and the pages of it written (R384) -/
  anchor : Nat := 0
  pages : Nat := 0
  duskRecord : Option DuskRecord := Option.none
  /-- data-band programs wait for 320 mJ after a cold start (R390) -/
  bankHold : Bool := true
  deriving DecidableEq, Repr

end Sys2Proof.Machine
end

