-- ==== Sys2Proof/Machine/State/Power.lean ====
section
/-!
DEFINITION. Supply, Brace, Dusk, the hold-up bank, the ledger's inputs, Deep Sleep and the conditions of Table 1-3
(chapters 1 and 3).
-/
namespace Sys2Proof.Machine

/-- Why Brace began; the number is the BRACING reason of Table 9-8. -/
inductive BraceCause where
  | vin | pfw
  deriving DecidableEq, Repr

/-- A Brace episode in progress (R67 to R70). -/
structure BraceEp where
  cause : BraceCause
  /-- the state it was entered from -/
  entered : Mode
  since : Nat
  /-- the instant of the last warning recognised: the unbroken 5 ms of R70 begin after it -/
  warnedAt : Nat
  minVinMv : Nat
  stagedAtEntry : Nat
  deriving DecidableEq, Repr

/-- Dusk causes (R345): 1 VIN below cut, 2 input collapse, 3 overvoltage, 4 thermal shutdown, 5 reference clock lost. -/
inductive DuskCause where
  | belowCut | collapse | overvoltage | thermal | reference
  deriving DecidableEq, Repr

/-- A committed Dusk (R72 to R76). -/
structure DuskEp where
  cause : DuskCause
  /-- the drive's time at commitment -/
  time : Time
  /-- lowest VIN from the Brace episode in force at commitment, or from commitment, to the end of step 7 -/
  minVinMv : Nat
  /-- KiB flushed by step 5 -/
  flushedKib : Nat
  /-- step 6 wrote the Dusk record; false under R75 -/
  recorded : Bool
  /-- step 7 is done: the post-Dusk hold runs -/
  complete : Bool
  /-- the time was synchronised at commitment (Table 13-7), and the elapsed time of commitment -/
  synced : Bool
  at_ : Nat
  deriving DecidableEq, Repr

/-- Bank classes of Table 3-6. -/
inductive BankClass where
  | healthy | worn | degraded | failed
  deriving DecidableEq, Repr

/-- A record of page 0x0A (Table 13-13). -/
structure TestRecord where
  time : Time
  /-- 0 complete, 1 test fault, 2 aborted -/
  result : Nat
  /-- class, 0xFF when not complete -/
  cls : Nat
  uf : Nat
  esr : Nat
  fallUs : Nat
  v1 : Nat
  deriving DecidableEq, Repr

/-- Deep Sleep (R86 to R89). -/
inductive Sleep where
  | awake
  /-- accepted: entry under way, from this state -/
  | entering (from_ : Mode)
  | asleep (from_ : Mode)
  deriving DecidableEq, Repr

/-- Supply, bank and the conditions of Table 1-3. -/
structure PowerState where
  vinMv : Nat := 0
  /-- lowest VIN since the cold start -/
  vinMinMv : Nat := 0
  vinBelowWarn : Bool := false
  /-- PFW_N recognised low -/
  pfwLow : Bool := false
  /-- the input switch connects VIN -/
  inputSwitch : Bool := false
  brace : Option BraceEp := none
  /-- instants at which episodes of the last 60 s began, newest first (R71) -/
  braceStarts : List Nat := []
  unstableArmed : Bool := false
  /-- instant of the supply-unstable event that disarmed it -/
  unstableAt : Nat := 0
  dusk : Option DuskEp := none
  referencePresent : Bool := true
  /-- a thermal shutdown keeps the drive off until the junction cools (Table 1-3) -/
  thermalLatch : Bool := false
  /-- writes refused by a thermal shutdown under way -/
  thermalRefuse : Bool := false
  deadlineRisk : Bool := false
  deadlineLapse : Bool := false
  paceShort : Bool := false
  /-- junction temperature and its highest since the cold start, in 0.1 °C -/
  junction : Int := 250
  junctionMax : Int := 250
  /-- the last 8 bank samples in mV, newest first (R78) -/
  bankMv : List Nat := List.replicate 8 0
  /-- measured capacitance of R81: of the last completed test, and before the first one the factory measurement -/
  cMeasuredUf : Nat := 1504
  esrMohm : Nat := 0
  bankClass : BankClass := .healthy
  /-- CH1's failure holds the class failed until the next cold start (R422) -/
  ch1Failed : Bool := false
  /-- a running bank test: V1 in mV and its start -/
  test : Option (Nat × Nat) := none
  /-- elapsed time of the next scheduled test (R84) -/
  testDue : Option Nat := none
  tests : List TestRecord := []
  /-- since when the bank has been fully charged -/
  fullSince : Option Nat := none
  /-- charging time counted from below 15 V, in µs, while it counts (R85) -/
  chargeUs : Option Nat := none
  /-- since when the bank is being discharged in Off (R60, R77) -/
  discharging : Option Nat := none
  sleep : Sleep := .awake
  /-- powered time over life up to the last switch-on in ns, and the elapsed time of that switch-on while powered -/
  poweredNs : Nat := 0
  /-- of that, the time spent in Dusk up to the last one's end, in ns (R363) -/
  duskNs : Nat := 0
  onAt : Option Nat := none
  deriving DecidableEq, Repr

end Sys2Proof.Machine
end

