-- ==== Sys2Proof/Machine/State/Start.lean ====
section
/-!
DEFINITION. Starts, straps, status outputs, the dawn series, the start limit, control inputs and the test access
port (chapters 2 and 4).
-/
namespace Sys2Proof.Machine

/-- The columns of Table 4-2, the warm start after Dusk, and the activation of Table 19-8. -/
inductive StartPath where
  | cold | warm | warmAfterDusk | escalated | activation
  deriving DecidableEq, Repr

/-- Start kinds of Table 4-8. -/
inductive StartKind where
  | coldClean | coldUnclean | warm | warmAfterDusk | escalated | wake | activation
  deriving DecidableEq, Repr

/-- Start sources of R337. -/
inductive StartSource where
  | vin | resetCold | resetWarm | watchdog | restartWarm | restartCold | afterDusk | reference | thermal | activation
  | escalated | wake | servicePort
  deriving DecidableEq, Repr

/-- A start under way: its path, source, the first step of Table 4-2 (or Table 19-8) not yet done, and what it finds. -/
structure StartRun where
  path : StartPath
  source : StartSource
  step : Nat
  env : StartEnv
  /-- step 11 has taken the configuration bus and its read is under way (R52) -/
  reading : Bool := false
  deriving DecidableEq, Repr

/-- The dawn series running (R101). -/
structure Series where
  level : Mode
  /-- REPEAT_INDEX of the next frame -/
  index : Nat
  /-- elapsed time at which it is due -/
  due : Nat
  deriving DecidableEq, Repr

/-- The admission-limit window of R105. -/
inductive LimitWindow where
  | closed
  /-- opens with the first link that comes up -/
  | awaitingLink
  /-- closes at this elapsed time -/
  | until_ (at_ : Nat)
  deriving DecidableEq, Repr

/-- What a status output does (Table 2-3). -/
inductive Pattern where
  | released | asserted | hz1 | hz4 | sleep
  deriving DecidableEq, Repr

/-- A status output: its pattern, whether it is asserted, and when its blink time runs out. -/
structure StatusOut where
  pattern : Pattern := .released
  on : Bool := false
  due : Option Nat := none
  deriving DecidableEq, Repr

/-- The states of the TAP controller of IEEE 1149.1. -/
inductive TapState where
  | reset | idle | selectDr | captureDr | shiftDr | exit1Dr | pauseDr | exit2Dr | updateDr
  | selectIr | captureIr | shiftIr | exit1Ir | pauseIr | exit2Ir | updateIr
  deriving DecidableEq, Repr

/-- The instructions of R57. -/
inductive TapInstr where
  | bypass | idcode | sample | extest | debug (code : Nat)
  deriving DecidableEq, Repr

/-- The test access port (R57). -/
structure Tap where
  state : TapState := .reset
  instr : TapInstr := .idcode
  /-- instruction register being shifted, the bit nearest TDO first -/
  ir : List Bool := []
  /-- the data register selected, the bit nearest TDO first -/
  dr : List Bool := []
  /-- boundary cells updated by EXTEST -/
  cells : List Bool := []
  /-- TDO; absent while high-impedance -/
  tdo : Option Bool := none
  deriving DecidableEq, Repr

/-- Starts and the outputs that tell of them. -/
structure StartState where
  straps : Straps := {}
  run : Option StartRun := none
  /-- what a start that RESTART begins will find -/
  nextEnv : StartEnv := {}
  /-- the retained region holds the live state of a drive that reached step 16 -/
  retained : Bool := false
  /-- the retained-state format that the region's header line names (R440) -/
  retainedFormat : Nat := 0
  /-- Dusk was committed during an activation or fallback: the next start takes the escalated path (R495) -/
  escalateNext : Bool := false
  /-- last start kind, source and the level it announced -/
  kind : StartKind := .coldClean
  source : StartSource := .vin
  level : Mode := .off
  /-- SESSIONS_KEPT of the last start -/
  kept : Bool := false
  /-- step 16 of the last start is done and step 17 is still to come -/
  awaitingReady : Bool := false
  /-- elapsed time of the reference point of the last start -/
  refAt : Nat := 0
  /-- RESET_N falling edge, while it is low -/
  resetLow : Option Nat := none
  /-- held in cold reset until RESET_N rises (R44, R45) -/
  coldHeld : Bool := false
  /-- held in reset until the reference clock returns (R30) -/
  referenceHeld : Bool := false
  series : Option Series := none
  limit : LimitWindow := .closed
  statReady : StatusOut := {}
  statFault : StatusOut := {}
  /-- since when the three status outputs have all been released, and since when V3P3_AUX is up (R52) -/
  releasedAt : Nat := 0
  auxAt : Nat := 0
  /-- SVC_EN is judged: not in Off, in Dusk, or before step 3 of the start that follows them (R56) -/
  svcJudged : Bool := false
  /-- the level of SVC_EN was high at that step 3 and has not ended: it is never counted as ignored -/
  svcHeld : Bool := false
  /-- the scan chain is released (R57, R465) -/
  scanReleased : Bool := false
  tap : Tap := {}
  deriving DecidableEq, Repr

end Sys2Proof.Machine
end

