-- ==== Sys2Proof/Machine/Codes.lean ====
section
/-!
DEFINITION. The codes of the manual's tables, the accessors of ports, counters and straps, and the ledger's arithmetic
(R78 to R82).
-/
namespace Sys2Proof.Machine

/-! ## Ports and configuration -/

/-- The part's code in TARGET_PART (Table 5-2). -/
def Part.code : Part → Nat
  | .ekv5240 => 1
  | .ekv5480 => 2

/-- The other port. -/
def Port.other : Port → Port
  | .A => .B
  | .B => .A

/-- 0 for port A, 1 for port B, as record instances and log pages number them. -/
def Port.index : Port → Nat
  | .A => 0
  | .B => 1

/-- The value of one port. -/
def PerPort.get {α : Type} (p : PerPort α) : Port → α
  | .A => p.a
  | .B => p.b

/-- The value of one port replaced by a function of it. -/
def PerPort.modify {α : Type} (p : PerPort α) (q : Port) (f : α → α) : PerPort α :=
  match q with
  | .A => { p with a := f p.a }
  | .B => { p with b := f p.b }

/-- The value of one port replaced. -/
def PerPort.set {α : Type} (p : PerPort α) (q : Port) (v : α) : PerPort α := p.modify q fun _ => v

/-- Entries 0 to `GCL_ENTRY_COUNT` − 1, absent ones at their defaults (R139). -/
def GateListCfg.inUse (g : GateListCfg) : List GateEntry :=
  (g.entries ++ List.replicate (g.entryCount - g.entries.length) ({} : GateEntry)).take g.entryCount

/-- The configuration of one tenant; a tenant beyond 7 does not exist and reads as disabled. -/
def DriveConfig.tenant (c : DriveConfig) (t : Nat) : TenantCfg := c.tenants.getD t {}

/-! ## Straps -/

/-- The port's SGMII strap. -/
def Straps.sgmii (x : Straps) : Port → Bool
  | .A => x.sgmiiA
  | .B => x.sgmiiB

/-- The CFG_ADDR2 strap, which says that the I²C memory takes short addresses (R107, R108). -/
def Straps.short (x : Straps) : Bool := bit x.addr 2

/-- The 7-bit address of the I²C memory, 0b1010 and then CFG_ADDR2 to CFG_ADDR0 (R50). -/
def Straps.i2cAddress (x : Straps) : Nat := 0x50 + x.addr

/-! ## Fuses -/

/-- The port address (R160). -/
def Fused.macPort (f : Fused) : Port → Mac
  | .A => f.macPortA
  | .B => f.macPortB

/-- USER_CAPACITY (R318). -/
def Fused.userCapacity (f : Fused) : Nat :=
  match f.part with
  | .ekv5240 => 192000000000
  | .ekv5480 => 384000000000

/-! ## Drive states, events and counters -/

/-- The state codes of Table 4-7. -/
def Mode.code : Mode → Nat
  | .off => 0x00 | .coldStart => 0x01 | .warmStart => 0x02 | .readyRead => 0x03 | .ready => 0x04 | .brace => 0x05
  | .dusk => 0x06 | .deepSleep => 0x07 | .overcast => 0x08 | .sealed => 0x09 | .rescue => 0x0A

/-- The code of an event (Table 13-16). -/
def EventCode.code : EventCode → Nat
  | .braceEpisode => 0x0101 | .supplyUnstable => 0x0102 | .dusk => 0x0103 | .warningInSleep => 0x0104
  | .bankTest => 0x0105 | .bankWorn => 0x0106 | .bankDegraded => 0x0107 | .bankFailed => 0x0108 | .deepSleep => 0x0109
  | .start => 0x0201 | .scrubFailed => 0x0202 | .watchdogExpiry => 0x0203 | .watchdogEscalation => 0x0204
  | .strapChanged => 0x0205 | .configAdjusted => 0x0301 | .newerCopy => 0x0302 | .headerRereadFailed => 0x0303
  | .deadlineRisk => 0x0401 | .deadlineLapse => 0x0402 | .deadlineRiskCleared => 0x0403 | .thermalShutdown => 0x0404
  | .referenceLost => 0x0405 | .ownSource => 0x0501 | .sgmiiRefused => 0x0502 | .preemptVerifyFailed => 0x0503
  | .slopesScaled => 0x0504 | .portDeadline => 0x0505 | .addressConflict => 0x0506 | .timeStep => 0x0601
  | .syncChanged => 0x0602 | .sessionClosed => 0x0701 | .ly3Late => 0x0702 | .tamperAlarm => 0x0801
  | .svcEnIgnored => 0x0802 | .servicePortOpened => 0x0803 | .unlocked => 0x0804 | .credentialChanged => 0x0805
  | .fwRefused => 0x0901 | .fwGraft => 0x0902 | .fwActivated => 0x0903 | .fwConfirmed => 0x0904 | .fwFallback => 0x0905
  | .rescue => 0x0906 | .blockRetired => 0x0A01 | .wearWarn => 0x0A02 | .spareWarn => 0x0A03 | .overcast => 0x0A04
  | .readUncorrectable => 0x0A05 | .programFailed => 0x0A06 | .fgCollection => 0x0A07 | .linePoisoned => 0x0B01
  | .checkMismatch => 0x0B02 | .internal => 0x0B03 | .regulatorOscillation => 0x0C01 | .uncleanRecovery => 0x0D01

/-- The severity of an event (Table 13-16): 1 information, 2 warning, 3 fault. -/
def EventCode.severity : EventCode → Nat
  | .braceEpisode | .dusk | .warningInSleep | .bankTest | .deepSleep | .start | .newerCopy | .deadlineRiskCleared
  | .syncChanged | .sessionClosed | .svcEnIgnored | .unlocked | .credentialChanged | .fwGraft | .fwActivated
  | .fwConfirmed | .blockRetired | .fgCollection => 1
  | .supplyUnstable | .bankWorn | .watchdogExpiry | .strapChanged | .configAdjusted | .headerRereadFailed
  | .deadlineRisk | .ownSource | .sgmiiRefused | .preemptVerifyFailed | .slopesScaled | .portDeadline
  | .addressConflict | .timeStep | .ly3Late | .fwRefused | .wearWarn | .spareWarn | .uncleanRecovery => 2
  | .bankDegraded | .bankFailed | .scrubFailed | .watchdogEscalation | .deadlineLapse | .thermalShutdown
  | .referenceLost | .tamperAlarm | .servicePortOpened | .fwFallback | .rescue | .overcast | .readUncorrectable
  | .programFailed | .linePoisoned | .checkMismatch | .internal | .regulatorOscillation => 3

/-- The latched-fault bit an event sets (Table 13-16); the oscillation event's depends on its channel, PARAM_A. -/
def EventCode.latch (paramA : Nat) : EventCode → Option Nat
  | .supplyUnstable => some 15 | .bankDegraded => some 0 | .bankFailed => some 1 | .scrubFailed => some 6
  | .watchdogEscalation => some 7 | .thermalShutdown => some 4 | .referenceLost => some 5 | .tamperAlarm => some 14
  | .fwFallback => some 8 | .readUncorrectable => some 9 | .programFailed => some 10 | .linePoisoned => some 11
  | .checkMismatch => some 12 | .internal => some 13
  | .regulatorOscillation => some (if paramA = 0 then 2 else 3)
  | .braceEpisode | .dusk | .warningInSleep | .bankTest | .bankWorn | .deepSleep | .start | .watchdogExpiry
  | .strapChanged | .configAdjusted | .newerCopy | .headerRereadFailed | .deadlineRisk | .deadlineLapse
  | .deadlineRiskCleared | .ownSource | .sgmiiRefused | .preemptVerifyFailed | .slopesScaled | .portDeadline
  | .addressConflict | .timeStep | .syncChanged | .sessionClosed | .ly3Late | .svcEnIgnored | .servicePortOpened
  | .unlocked | .credentialChanged | .fwRefused | .fwGraft | .fwActivated | .fwConfirmed | .rescue | .blockRetired
  | .wearWarn | .spareWarn | .overcast | .fgCollection | .uncleanRecovery => none

/-- Index i of Table 13-8; GPTP_RX, which the page holds apart, follows. -/
def PortCounter.idx : PortCounter → Nat
  | .rxFramesOk => 0 | .rxFragErr => 1 | .rxSymbolErr => 2 | .rxRunt => 3 | .rxOversize => 4 | .rxFcsErr => 5
  | .rxBadSource => 6 | .rxOwnSource => 7 | .rxVlanErr => 8 | .rxPause => 9 | .rxLinkLocal => 10 | .txFrames => 11
  | .txPause => 12 | .txDiscard => 13 | .txOversize => 14 | .linkDown => 15 | .epTxExpired => 16 | .ly3Late => 17
  | .ly3Held => 18 | .ly3CompletionLost => 19 | .ipMalformed => 20 | .ipFragment => 21 | .ipNotMine => 22
  | .ipNoService => 23 | .ipChecksum => 24 | .ipOffSubnet => 25 | .icmpEchoAnswered => 26 | .icmpRateDropped => 27
  | .gptpRx => 28

/-- Index i of Table 13-8. -/
def DevCounter.idx : DevCounter → Nat
  | .epRxAccepted => 0 | .epNotReady => 1 | .epUnknownProtocol => 2 | .epBufferFull => 3 | .epTxFrames => 4
  | .brFlood => 5 | .brFiltered => 6 | .brStationMove => 7 | .brLearnFull => 8 | .lyMalformed => 9 | .lyNoSession => 10
  | .lyVidDenied => 11 | .lyReplay => 12 | .lyCheckFail => 13 | .lyAuthFail => 14 | .lyFramesLost => 15
  | .lyAliveGaps => 16 | .ly2DupFrames => 17 | .ly2AnswersResent => 18 | .ly1SetBusy => 19 | .dawnSolDropped => 20
  | .ppsInRejected => 21 | .svcEnIgnored => 22

/-- One more on a port counter, saturating (R18). -/
def Counters.bumpPort (c : Counters) (q : Port) (k : PortCounter) : Counters :=
  { c with port := c.port.modify q (modifyAt k.idx inc32) }

/-- `n` more on a device counter, saturating (R18). -/
def Counters.addDev (c : Counters) (k : DevCounter) (n : Nat) : Counters :=
  { c with dev := modifyAt k.idx (satAdd32 · n) c.dev }

/-- The value of a port counter. -/
def Counters.ofPort (c : Counters) (q : Port) (k : PortCounter) : Nat := (c.port.get q).getD k.idx 0

/-- The value of a device counter. -/
def Counters.ofDev (c : Counters) (k : DevCounter) : Nat := c.dev.getD k.idx 0

/-! ## Received tags -/

/-- The VID of R161, with `NET_PVID` for untagged and priority-tagged frames. -/
def RxTag.vid (pvid : Nat) : RxTag → Nat
  | .untagged => pvid
  | .priority _ => pvid
  | .vlan v _ => v

/-- The priority of the tag; 0 where the frame is untagged. -/
def RxTag.pcp : RxTag → Nat
  | .untagged => 0
  | .priority p => p
  | .vlan _ p => p

/-! ## Supply and ledger -/

/-- The BRACING reason (Table 9-8). -/
def BraceCause.reason : BraceCause → Nat
  | .vin => 1
  | .pfw => 2

/-- Cause codes of R345. -/
def DuskCause.code : DuskCause → Nat
  | .belowCut => 1 | .collapse => 2 | .overvoltage => 3 | .thermal => 4 | .reference => 5

/-- Codes of BANK_CLASS in Table 13-4. -/
def BankClass.code : BankClass → Nat
  | .healthy => 0 | .worn => 1 | .degraded => 2 | .failed => 3

/-- `v_mv` of R78. -/
def PowerState.vMv (p : PowerState) : Nat := p.bankMv.foldl min (p.bankMv.headD 0)

/-- The latest bank sample. -/
def PowerState.lastMv (p : PowerState) : Nat := p.bankMv.headD 0

/-- `c_led_uf`, 90 % of the measured capacitance (R81). -/
def PowerState.cLedUf (p : PowerState) : Nat := p.cMeasuredUf * 90 / 100

/-- `avail_uj` of R78. -/
def availUj (vMv cLedUf : Nat) : Nat :=
  if vMv * vMv ≤ 225000000 then 0 else cLedUf * (vMv * vMv - 225000000) / 2000000

/-- `need_uj` of R79. -/
def needUj (staged : Nat) : Nat := 320000 + (45000 * staged + 1048575) / 1048576

/-- One MiB. -/
def mib : Nat := 1048576

/-- The staging limit in MiB at a ledger capacitance: the largest of 0 to 16 that R82 allows. -/
def stagingLimitMib (cLedUf : Nat) : Nat :=
  (List.range 17).foldl (fun best n => if needUj (n * mib) ≤ availUj 45000 cLedUf then n else best) 0

/-- `ledger_admit` of R79. -/
def ledgerAdmit (staged len limit vMv cLedUf : Nat) : Bool :=
  decide (staged + len ≤ limit) && decide (needUj (staged + len) ≤ availUj vMv cLedUf)

/-! ## Starts -/

/-- START_KIND (Table 4-8). -/
def StartKind.code : StartKind → Nat
  | .coldClean => 1 | .coldUnclean => 2 | .warm => 3 | .warmAfterDusk => 4 | .escalated => 5 | .wake => 6 | .activation => 7

/-- The start-source codes of R337. -/
def StartSource.code : StartSource → Nat
  | .vin => 1 | .resetCold => 2 | .resetWarm => 3 | .watchdog => 4 | .restartWarm => 5 | .restartCold => 6
  | .afterDusk => 7 | .reference => 8 | .thermal => 9 | .activation => 10 | .escalated => 11 | .wake => 12 | .servicePort => 13

/-! ## Flash -/

/-- The code of a page kind. -/
def PageKind.code : PageKind → Nat
  | .data => 1 | .parity => 2 | .fill => 3 | .index => 4 | .journal => 5

/-! ## Firmware -/

/-- The code of a bank state. -/
def BankState.code : BankState → Nat
  | .empty => 0 | .loaded => 1 | .verified => 2 | .running => 3 | .previous => 4 | .failed => 5

end Sys2Proof.Machine
end

