-- ==== Sys2Proof/Machine/Flags.lean ====
section
/-!
DEFINITION. The check values the drive computes: CRC-32C with and without a fold (R112, R226, R430 to R432)
and the 16-bit CRC of LY1 sectors (R433).
-/
namespace Sys2Proof.Machine

/-- One shift of the reflected CRC-32C register (polynomial 0x1EDC6F41, reflected 0x82F63B78). -/
def crc32cBit (c : BitVec 32) : BitVec 32 :=
  if c.getLsbD 0 then (c >>> 1) ^^^ 0x82F63B78#32 else c >>> 1

/-- One byte into the reflected CRC-32C register. -/
def crc32cByte (c : BitVec 32) (b : Byte) : BitVec 32 :=
  let c := c ^^^ b.setWidth 32
  crc32cBit (crc32cBit (crc32cBit (crc32cBit (crc32cBit (crc32cBit (crc32cBit (crc32cBit c)))))))

/-- The CRC-32C register after a sequence, from a given register. -/
def crc32cRun (c : BitVec 32) (l : Bytes) : BitVec 32 := l.foldl crc32cByte c

/-- Plain CRC-32C (R112): initial value and final exclusive-or 0xFFFFFFFF. -/
def crc32c (l : Bytes) : Nat := (crc32cRun 0xFFFFFFFF#32 l ^^^ 0xFFFFFFFF#32).toNat

/-- One byte into the register of the Ethernet FCS (IEEE 802.3: polynomial 0x04C11DB7, reflected 0xEDB88320). -/
def fcsByte (c : BitVec 32) (b : Byte) : BitVec 32 :=
  let step : BitVec 32 → BitVec 32 := fun c => if c.getLsbD 0 then (c >>> 1) ^^^ 0xEDB88320#32 else c >>> 1
  let c := c ^^^ b.setWidth 32
  step (step (step (step (step (step (step (step c)))))))

/-- The FCS of a frame's bytes, in the order in which it leaves. -/
def fcsOf (l : Bytes) : Bytes :=
  let c := (l.foldl fcsByte 0xFFFFFFFF#32 ^^^ 0xFFFFFFFF#32).toNat
  [byte c, byte (c / 2 ^ 8), byte (c / 2 ^ 16), byte (c / 2 ^ 24)]

/-- One byte into the CRC-16 register, most significant bit first (polynomial 0x1021). -/
def crc16Byte (c : BitVec 16) (b : Byte) : BitVec 16 :=
  let step : BitVec 16 → BitVec 16 := fun c => if c.getLsbD 15 then (c <<< 1) ^^^ 0x1021#16 else c <<< 1
  let c := c ^^^ (b.setWidth 16 <<< 8)
  step (step (step (step (step (step (step (step c)))))))

/-- The 16-bit CRC of CU1: initial value 0xFFFF, nothing reflected, no final exclusive-or (R433). -/
def crc16 (l : Bytes) : Nat := (l.foldl crc16Byte 0xFFFF#16).toNat

end Sys2Proof.Machine
end

