-- ==== Sys2Proof/Machine/State/Cfg.lean ====
section
/-!
DEFINITION. The part of the state that the configuration image fills: the values in use, the image's own values,
and the configuration report of log page 0x03 (chapter 5).
-/
namespace Sys2Proof.Machine

/-- The runtime features of R340, by the code SET_FEATURE names them with (Table 13-17); kept here because R127 ties each
one to the image value that a cold start returns to. -/
structure FeatureKey where
  /-- feature code -/
  code : Nat
  /-- port or tenant, 0 where the feature is of the whole drive -/
  inst : Nat
  deriving DecidableEq, Repr

/-- One entry of the configuration report, Table 5-8. -/
structure ReportEntry where
  kind : Nat
  detail : Nat := 0
  recordType : Nat := 0
  fieldOffset : Nat := 0xFFFF
  fieldWidth : Nat := 0
  found : Int := 0
  applied : Int := 0
  deriving DecidableEq, Repr

/-- The configuration report, Tables 5-7 and 5-8. -/
structure ConfigReport where
  /-- SOURCE: 1 copy A, 2 copy B, 3 salvaged A, 4 salvaged B, 5 defaults -/
  source : Nat := 5
  busForm : Nat := 0
  busSpeed : Nat := 0
  copyAStatus : Nat := 2
  copyBStatus : Nat := 2
  copyAGeneration : Nat := 0
  copyBGeneration : Nat := 0
  selectedBodyCrc : Nat := 0
  catalogueVersion : Nat := 1
  imageFormat : Nat := 0
  tCfgUs : Nat := 0
  startCount : Nat := 0
  logicalId : Nat := 0
  slotMask : Nat := 0xFFFF
  slot : Nat := 0
  newerCopyWaiting : Bool := false
  /-- GENERATION of the source, 0 for defaults; R113 orders a reread header against it -/
  sourceGeneration : Nat := 0
  /-- the entries of the page, at most 500 with the overflow entry (R122) -/
  entries : List ReportEntry := []
  deriving DecidableEq, Repr

/-- The configuration as the retained region holds it (R22, R122, R125, R127). -/
structure CfgState where
  /-- the values in use -/
  inUse : DriveConfig := DriveConfig.defaults .ekv5480
  /-- the values of the image, which GET_FEATURE returns beside those in use and a cold start returns to -/
  image : DriveConfig := DriveConfig.defaults .ekv5480
  report : ConfigReport := {}
  deriving DecidableEq, Repr

end Sys2Proof.Machine
end

