-- ==== Sys2Proof/Machine/ConfigImage.lean ====
section
/-!
DEFINITION. Reading, checking and clamping the configuration image (chapter 5) with the field descriptors of
chapter 6, the joint rules of Table 5-6 and the configuration report.
-/
namespace Sys2Proof.Machine

/-! ## Field descriptors (R117, R130) -/

/-- The kinds of Table 5-5. -/
inductive FieldKind where
  | range (lo hi step : Int) (excluded : List Int)
  | enum (values : List Int)
  | flags (defined : Nat)
  | bytes
  deriving DecidableEq, Repr

/-- One row of a field table of chapter 6. -/
structure FieldDesc where
  offset : Nat
  width : Nat
  kind : FieldKind
  dflt : Int := 0
  signed : Bool := false
  put : Int → DriveConfig → DriveConfig

/-- A RANGE field without step or exclusions. -/
def rangeKind (lo hi : Int) : FieldKind := .range lo hi 1 []

/-- Clearing the undefined bits of a FLAGS value (Table 5-5). -/
def maskFlags (raw : Int) (mask : Nat) : Int := ((raw.toNat &&& mask : Nat) : Int)

/-- R117 `clamp_field` with the exclusions of R130: the value applied and the (kind, found, applied) of each entry. -/
def clampField (f : FieldDesc) (raw : Int) : Int × List (Nat × Int × Int) :=
  match f.kind with
  | .range lo hi step excluded =>
    let v := clampInt lo hi raw
    let w := lo + (v - lo) / step * step
    let es := (if v ≠ raw then [(0x20, raw, v)] else []) ++ (if w ≠ v then [(0x21, v, w)] else [])
    if excluded.contains w then (f.dflt, es ++ [(0x22, raw, f.dflt)]) else (w, es)
  | .enum values => if values.contains raw then (raw, []) else (f.dflt, [(0x22, raw, f.dflt)])
  | .flags mask =>
    let v := maskFlags raw mask
    (v, if v ≠ raw then [(0x23, raw, v)] else [])
  | .bytes => (raw, [])

/-- The raw value of a field that lies wholly inside the record (R116, R117 `read_be`). -/
def readField (f : FieldDesc) (payload : Bytes) : Option Int :=
  (fieldAt? f.offset f.width payload).map fun v => if f.signed then signExtend f.width v else (v : Int)

/-- A configuration with the named port's PORT record changed. -/
def DriveConfig.modPort (q : Port) (f : PortCfg → PortCfg) (c : DriveConfig) : DriveConfig :=
  { c with port := c.port.modify q f }

/-- A configuration with the named port's GATE_LIST record changed. -/
def DriveConfig.modGates (q : Port) (f : GateListCfg → GateListCfg) (c : DriveConfig) : DriveConfig :=
  { c with gates := c.gates.modify q f }

/-- A configuration with the named port's SHAPER record changed. -/
def DriveConfig.modShaper (q : Port) (f : ShaperCfg → ShaperCfg) (c : DriveConfig) : DriveConfig :=
  { c with shaper := c.shaper.modify q f }

/-- A configuration with one tenant's record changed. -/
def DriveConfig.modTenant (t : Nat) (f : TenantCfg → TenantCfg) (c : DriveConfig) : DriveConfig :=
  { c with tenants := modifyAt t f c.tenants }

/-- Table 6-1. -/
def identityFields : List FieldDesc :=
  [ { offset := 0, width := 6, kind := .bytes,
      put := fun v c => { c with identity := { c.identity with cellId := v.toNat } } },
    { offset := 6, width := 6, kind := .bytes,
      put := fun v c => { c with identity := { c.identity with macBase := v.toNat } } },
    { offset := 12, width := 32, kind := .bytes,
      put := fun v c => { c with identity := { c.identity with stationName := v.toNat } } } ]

/-- Table 6-2. -/
def portFields (q : Port) : List FieldDesc :=
  [ { offset := 0, width := 1, kind := .enum [0, 1, 2], put := fun v c => c.modPort q fun p => { p with speed := v.toNat } },
    { offset := 1, width := 1, kind := .enum [0, 1], dflt := 1,
      put := fun v c => c.modPort q fun p => { p with preempt := v.toNat } },
    { offset := 2, width := 1, kind := .flags 0xFF, dflt := 0xE0,
      put := fun v c => c.modPort q fun p => { p with expressTc := v.toNat } },
    { offset := 4, width := 2, kind := rangeKind 1522 2000, dflt := 1522,
      put := fun v c => c.modPort q fun p => { p with maxFrame := v.toNat } } ]

/-- Table 6-3. -/
def bridgeFields : List FieldDesc :=
  [ { offset := 0, width := 2, kind := rangeKind 1 4094, dflt := 1,
      put := fun v c => { c with bridge := { c.bridge with pvid := v.toNat } } },
    { offset := 2, width := 1, kind := .enum [0, 1], dflt := 1,
      put := fun v c => { c with bridge := { c.bridge with learn := v.toNat } } },
    { offset := 3, width := 1, kind := .enum [0, 1], dflt := 1,
      put := fun v c => { c with bridge := { c.bridge with pauseEnable := v.toNat } } },
    { offset := 4, width := 1, kind := rangeKind 50 90, dflt := 75,
      put := fun v c => { c with bridge := { c.bridge with pauseHighPct := v.toNat } } },
    { offset := 5, width := 1, kind := rangeKind 10 80, dflt := 40,
      put := fun v c => { c with bridge := { c.bridge with pauseLowPct := v.toNat } } },
    { offset := 6, width := 2, kind := rangeKind 0 4094,
      put := fun v c => { c with bridge := { c.bridge with dawnVid := v.toNat } } },
    { offset := 8, width := 1, kind := rangeKind 0 7, dflt := 7,
      put := fun v c => { c with bridge := { c.bridge with dawnPcp := v.toNat } } } ]

/-- Table 6-4. -/
def timeFields : List FieldDesc :=
  [ { offset := 0, width := 1, kind := .enum [0, 1], put := fun v c => { c with time := { c.time with gmCapable := v.toNat } } },
    { offset := 1, width := 1, kind := rangeKind 0 254, dflt := 246,
      put := fun v c => { c with time := { c.time with priority1 := v.toNat } } },
    { offset := 2, width := 1, kind := rangeKind 0 255, dflt := 248,
      put := fun v c => { c with time := { c.time with priority2 := v.toNat } } },
    { offset := 3, width := 1, kind := rangeKind 0 127, put := fun v c => { c with time := { c.time with domain := v.toNat } } },
    { offset := 4, width := 1, kind := rangeKind (-5) 0, dflt := -3, signed := true,
      put := fun v c => { c with time := { c.time with logSyncInterval := v } } },
    { offset := 5, width := 1, kind := rangeKind (-3) 3, signed := true,
      put := fun v c => { c with time := { c.time with logPdelayInterval := v } } },
    { offset := 6, width := 2, kind := rangeKind 100 10000, dflt := 800,
      put := fun v c => { c with time := { c.time with neighborThreshNs := v.toNat } } },
    { offset := 8, width := 1, kind := .enum [0, 1, 2], dflt := 1,
      put := fun v c => { c with time := { c.time with ppsInMode := v.toNat } } } ]

/-- Entry `k` of a gate list changed, earlier absent entries taken at their defaults. -/
def GateListCfg.modEntry (k : Nat) (f : GateEntry → GateEntry) (g : GateListCfg) : GateListCfg :=
  { g with entries := modifyAt k f (g.entries ++ List.replicate (k + 1 - g.entries.length) ({} : GateEntry)) }

/-- Table 6-5: the fields of entry `k`. -/
def gateEntryFields (q : Port) (k : Nat) : List FieldDesc :=
  [ { offset := 24 + 8 * k, width := 1, kind := .enum [0, 1, 2],
      put := fun v c => c.modGates q (GateListCfg.modEntry k fun e => { e with op := v.toNat }) },
    { offset := 25 + 8 * k, width := 1, kind := .flags 0xFF, dflt := 0xFF,
      put := fun v c => c.modGates q (GateListCfg.modEntry k fun e => { e with gates := v.toNat }) },
    { offset := 28 + 8 * k, width := 4, kind := rangeKind 0 1000000000,
      put := fun v c => c.modGates q (GateListCfg.modEntry k fun e => { e with intervalNs := v.toNat }) } ]

/-- Table 6-5: the header fields, then the entries that can lie in a payload of `len` bytes. -/
def gateListFields (q : Port) (len : Nat) : List FieldDesc :=
  [ { offset := 0, width := 1, kind := .enum [0, 1], put := fun v c => c.modGates q fun g => { g with enable := v.toNat } },
    { offset := 2, width := 2, kind := rangeKind 0 256, put := fun v c => c.modGates q fun g => { g with entryCount := v.toNat } },
    { offset := 4, width := 6, kind := rangeKind 0 281474976710655,
      put := fun v c => c.modGates q fun g => { g with baseS := v.toNat } },
    { offset := 12, width := 4, kind := rangeKind 0 999999999,
      put := fun v c => c.modGates q fun g => { g with baseNs := v.toNat } },
    { offset := 16, width := 4, kind := rangeKind 1000 1000000000, dflt := 1000000,
      put := fun v c => c.modGates q fun g => { g with cycleNs := v.toNat } },
    { offset := 20, width := 4, kind := rangeKind 0 1000000,
      put := fun v c => c.modGates q fun g => { g with cycleExtNs := v.toNat } } ] ++
  (List.range (min 256 ((len - 24 + 7) / 8))).flatMap (gateEntryFields q)

/-- Table 6-6. -/
def shaperFields (q : Port) : List FieldDesc :=
  [ { offset := 0, width := 1, kind := .flags 3, put := fun v c => c.modShaper q fun s => { s with enable := v.toNat } },
    { offset := 4, width := 4, kind := rangeKind 0 1000000,
      put := fun v c => c.modShaper q fun s => { s with idleSlope5 := v.toNat } },
    { offset := 8, width := 4, kind := rangeKind 0 1000000,
      put := fun v c => c.modShaper q fun s => { s with idleSlope6 := v.toNat } } ]

/-- The EtherTypes that `LY3_ETHERTYPE` excludes (R141). -/
def excludedEthertypes : List Int :=
  [0x0800, 0x0806, 0x86DD, 0x8100, 0x888E, 0x88A8, 0x88CC, 0x88E5, 0x88F7, 0x8808]

/-- Table 6-7. -/
def protocolFields : List FieldDesc :=
  [ { offset := 0, width := 2, kind := .range 0x0600 0xFFFF 1 excludedEthertypes, dflt := 0x88B5,
      put := fun v c => { c with protocol := { c.protocol with ly3Ethertype := v.toNat } } },
    { offset := 2, width := 2, kind := rangeKind 6 100, dflt := 12,
      put := fun v c => { c with protocol := { c.protocol with ly3DeadlineUs := v.toNat } } },
    { offset := 4, width := 2, kind := rangeKind 1024 65535, dflt := 51750,
      put := fun v c => { c with protocol := { c.protocol with ly2UdpPort := v.toNat } } },
    { offset := 6, width := 1, kind := rangeKind 0 7, dflt := 7,
      put := fun v c => { c with protocol := { c.protocol with ly3ReplyPcp := v.toNat } } },
    { offset := 8, width := 4, kind := .bytes,
      put := fun v c => { c with protocol := { c.protocol with v4AddrBase := v.toNat } } },
    { offset := 12, width := 1, kind := rangeKind 8 30, dflt := 24,
      put := fun v c => { c with protocol := { c.protocol with v4PrefixLen := v.toNat } } },
    { offset := 16, width := 4, kind := .bytes,
      put := fun v c => { c with protocol := { c.protocol with v4Gateway := v.toNat } } },
    { offset := 20, width := 8, kind := .bytes,
      put := fun v c => { c with protocol := { c.protocol with v6Prefix := v.toNat } } },
    { offset := 28, width := 8, kind := .bytes,
      put := fun v c => { c with protocol := { c.protocol with v6IidBase := v.toNat } } } ]

/-- Table 6-8. -/
def tenantFields (p : Part) (t : Nat) : List FieldDesc :=
  [ { offset := 0, width := 1, kind := .enum [0, 1], dflt := if t = 0 then 1 else 0,
      put := fun v c => c.modTenant t fun x => { x with enable := v.toNat } },
    { offset := 1, width := 1, kind := .flags 7, dflt := 6,
      put := fun v c => c.modTenant t fun x => { x with generations := v.toNat } },
    { offset := 2, width := 1, kind := .enum [0, 1], put := fun v c => c.modTenant t fun x => { x with legacy := v.toNat } },
    { offset := 3, width := 1, kind := rangeKind 1 32, dflt := 4,
      put := fun v c => c.modTenant t fun x => { x with sessionsMax := v.toNat } },
    { offset := 4, width := 1, kind := rangeKind 1 32, dflt := 8,
      put := fun v c => c.modTenant t fun x => { x with window := v.toNat } },
    { offset := 6, width := 2, kind := rangeKind 0 4094, put := fun v c => c.modTenant t fun x => { x with vid := v.toNat } },
    { offset := 8, width := 4, kind := rangeKind 0 (match p with | .ekv5240 => 192 | .ekv5480 => 384),
      put := fun v c => c.modTenant t fun x => { x with quotaGb := v.toNat } },
    { offset := 12, width := 2, kind := .range 0 2048 64 [], dflt := 256,
      put := fun v c => c.modTenant t fun x => { x with pinMaxKib := v.toNat } },
    { offset := 16, width := 16, kind := .bytes, put := fun v c => c.modTenant t fun x => { x with name := v.toNat } } ]

/-- Table 6-9. -/
def kvFields : List FieldDesc :=
  [ { offset := 0, width := 2, kind := rangeKind 0 2000, dflt := 1000,
      put := fun v c => { c with kv := { c.kv with startLimitMs := v.toNat } } },
    { offset := 4, width := 4, kind := rangeKind 1 65536, dflt := 4096,
      put := fun v c => { c with kv := { c.kv with rangeMaxKeys := v.toNat } } },
    { offset := 8, width := 4, kind := rangeKind 60 86400, dflt := 3600,
      put := fun v c => { c with kv := { c.kv with expirySweepS := v.toNat } } } ]

/-- Table 6-10, JOURNAL. -/
def journalFields : List FieldDesc :=
  [ { offset := 0, width := 2, kind := .range 50 1000 10 [], dflt := 200,
      put := fun v c => { c with journal := { c.journal with intervalMs := v.toNat } } },
    { offset := 2, width := 2, kind := rangeKind 16 256, dflt := 64,
      put := fun v c => { c with journal := { c.journal with intervalMib := v.toNat } } } ]

/-- Table 6-10, MEDIA. -/
def mediaFields (p : Part) : List FieldDesc :=
  [ { offset := 0, width := 1, kind := rangeKind 1 30, dflt := 30,
      put := fun v c => { c with media := { c.media with scrubDays := v.toNat } } },
    { offset := 1, width := 1, kind := rangeKind 50 95, dflt := 80,
      put := fun v c => { c with media := { c.media with wearWarnPct := v.toNat } } },
    { offset := 2, width := 1, kind := rangeKind 2 10, dflt := 4,
      put := fun v c => { c with media := { c.media with fgFreePct := v.toNat } } },
    { offset := 4, width := 2, kind := rangeKind 64 (match p with | .ekv5240 => 1024 | .ekv5480 => 2048),
      dflt := (match p with | .ekv5240 => 256 | .ekv5480 => 512),
      put := fun v c => { c with media := { c.media with spareWarnBlocks := v.toNat } } },
    { offset := 8, width := 4, kind := rangeKind 10 10000, dflt := 100,
      put := fun v c => { c with media := { c.media with bgIdleMs := v.toNat } } } ]

/-- Table 6-11, POWER. -/
def powerFields : List FieldDesc :=
  [ { offset := 0, width := 2, kind := rangeKind 14000 18000, dflt := 16000,
      put := fun v c => { c with power := { c.power with vinWarnMv := v.toNat } } },
    { offset := 2, width := 2, kind := rangeKind 10000 13000, dflt := 12000,
      put := fun v c => { c with power := { c.power with vinCutMv := v.toNat } } } ]

/-- Table 6-11, REGULATOR. -/
def regulatorFields : List FieldDesc :=
  [ { offset := 0, width := 1, kind := rangeKind 10 25, dflt := 10,
      put := fun v c => { c with regulator := { c.regulator with paceMarginPct := v.toNat } } },
    { offset := 2, width := 2, kind := rangeKind 100 800, dflt := 300,
      put := fun v c => { c with regulator := { c.regulator with energyKneeMj := v.toNat } } },
    { offset := 4, width := 1, kind := rangeKind 50 100, dflt := 100,
      put := fun v c => { c with regulator := { c.regulator with gainScale2 := v.toNat } } },
    { offset := 5, width := 1, kind := rangeKind 50 100, dflt := 100,
      put := fun v c => { c with regulator := { c.regulator with gainScale3 := v.toNat } } },
    { offset := 6, width := 1, kind := rangeKind 50 100, dflt := 100,
      put := fun v c => { c with regulator := { c.regulator with gainScale4 := v.toNat } } },
    { offset := 7, width := 1, kind := rangeKind 50 100, dflt := 100,
      put := fun v c => { c with regulator := { c.regulator with gainScale5 := v.toNat } } } ]

/-- Table 6-11, THERMAL. -/
def thermalFields : List FieldDesc :=
  [ { offset := 0, width := 1, kind := rangeKind 85 105, dflt := 100,
      put := fun v c => { c with thermalSetpointC := v.toNat } } ]

/-- Table 6-12. -/
def watchdogFields : List FieldDesc :=
  { offset := 0, width := 1, kind := .enum [0, 1, 2],
    put := fun v c => { c with watchdog := { c.watchdog with swStart := v.toNat } } } ::
  (List.range 8).map fun n =>
    { offset := 4 + n, width := 1, kind := .enum [0, 1, 2, 3, 4, 5, 6, 7, 8], dflt := (n : Int) + 1,
      put := fun v c =>
        { c with watchdog := { c.watchdog with tasks := modifyAt n (fun _ => v.toNat) c.watchdog.tasks } } }

/-- Table 6-14, SECURITY. -/
def securityFields : List FieldDesc :=
  [ { offset := 0, width := 1, kind := .enum [0, 1, 2], dflt := 1,
      put := fun v c => { c with security := { c.security with tamperAction := v.toNat } } },
    { offset := 1, width := 1, kind := .enum [0, 1],
      put := fun v c => { c with security := { c.security with svcCloseAction := v.toNat } } },
    { offset := 4, width := 16, kind := .bytes,
      put := fun v c => { c with security := { c.security with authTag := v.toNat } } } ]

/-- A class and instance of Table 5-4, or none for an unknown one. -/
inductive RecordClass where
  | identity | port (q : Port) | bridge | time | gateList (q : Port) | shaper (q : Port)
  | protocol | tenant (t : Nat) | kv | journal | media | power | regulator | thermal
  | watchdog | security | wrappedKey (n : Nat)
  deriving DecidableEq, Repr

/-- The port an instance byte names. -/
def portOfInstance : Nat → Option Port
  | 0 => some .A
  | 1 => some .B
  | _ => none

/-- REC_TYPE to its class, by Table 5-4. -/
def recordClass (recType : Nat) : Option RecordClass :=
  let inst := recType % 256
  let single (c : RecordClass) : Option RecordClass := if inst = 0 then some c else none
  match recType / 256 with
  | 0x01 => single .identity
  | 0x02 => (portOfInstance inst).map .port
  | 0x03 => single .bridge
  | 0x04 => single .time
  | 0x05 => (portOfInstance inst).map .gateList
  | 0x06 => (portOfInstance inst).map .shaper
  | 0x10 => single .protocol
  | 0x11 => if inst < 8 then some (.tenant inst) else none
  | 0x12 => single .kv
  | 0x20 => single .journal
  | 0x21 => single .media
  | 0x30 => single .power
  | 0x31 => single .regulator
  | 0x32 => single .thermal
  | 0x40 => single .watchdog
  | 0x50 => single .security
  | 0x51 => if inst < 16 then some (.wrappedKey inst) else none
  | _ => none

/-- The catalogue's payload length of a class, reserved bytes included (R116). -/
def cataloguePayload : RecordClass → Nat
  | .identity => 44 | .port _ => 8 | .bridge => 12 | .time => 12 | .gateList _ => 2072 | .shaper _ => 12
  | .protocol => 36 | .tenant _ => 32 | .kv => 12 | .journal => 4 | .media => 12 | .power => 4
  | .regulator => 8 | .thermal => 4 | .watchdog => 12 | .security => 20 | .wrappedKey _ => 136

/-- The descriptors of a class's clamped fields, in ascending offset. -/
def classFields (p : Part) (len : Nat) : RecordClass → List FieldDesc
  | .identity => identityFields
  | .port q => portFields q
  | .bridge => bridgeFields
  | .time => timeFields
  | .gateList q => gateListFields q len
  | .shaper q => shaperFields q
  | .protocol => protocolFields
  | .tenant t => tenantFields p t
  | .kv => kvFields
  | .journal => journalFields
  | .media => mediaFields p
  | .power => powerFields
  | .regulator => regulatorFields
  | .thermal => thermalFields
  | .watchdog => watchdogFields
  | .security => securityFields
  | .wrappedKey _ => []

/-! ## The walk of a body (R115, R116) -/

/-- One record as the walk finds it. -/
structure Record where
  recType : Nat
  payload : Bytes
  crcOk : Bool
  deriving DecidableEq, Repr

/-- R115: the records of a body from its start, and whether the last one is truncated (its REC_TYPE, 0 where the type
itself is cut). `fuel` bounds the walk; a record takes at least 8 bytes. -/
def walkBody : Nat → Bytes → List Record × Option Nat
  | 0, _ => ([], none)
  | fuel + 1, body =>
    if body.isEmpty then ([], none)
    else if body.length < 4 then ([], some (if body.length < 2 then 0 else fieldAt 0 2 body))
    else
      let len := fieldAt 2 2 body
      let total := 4 + roundUp len 4 + 4
      if body.length < total then ([], some (fieldAt 0 2 body))
      else
        let crcAt := 4 + roundUp len 4
        let r : Record := ⟨fieldAt 0 2 body, slice 4 len body, fieldAt crcAt 4 body = crc32c (body.take crcAt)⟩
        let (rs, t) := walkBody fuel (body.drop total)
        (r :: rs, t)

/-- Record-level entries and the records used, in body order (R115, R116). `bad` holds the types that the security block
rejects (R450, R454), `seen` those already used. A rejected record has verified: it keeps its RECORD_EXTRA_BYTES entry, and
later records of its type are duplicates (notes/assumptions/41.md). -/
def judgeRecords (bad : List Nat) : List Record → List Nat → List ReportEntry × List Record
  | [], _ => ([], [])
  | r :: rest, seen =>
    if !r.crcOk then
      let (es, us) := judgeRecords bad rest seen
      ({ kind := 0x10, detail := 1, recordType := r.recType } :: es, us)
    else match recordClass r.recType with
      | none =>
        let (es, us) := judgeRecords bad rest seen
        ({ kind := 0x11, recordType := r.recType } :: es, us)
      | some c =>
        if seen.contains r.recType then
          let (es, us) := judgeRecords bad rest seen
          ({ kind := 0x12, recordType := r.recType } :: es, us)
        else
          let (es, us) := judgeRecords bad rest (r.recType :: seen)
          let extra : List ReportEntry :=
            if cataloguePayload c < r.payload.length then
              [{ kind := 0x13, recordType := r.recType, fieldOffset := cataloguePayload c }]
            else []
          if bad.contains r.recType then
            (extra ++ { kind := 0x10, detail := 3, recordType := r.recType } :: es, us)
          else (extra ++ es, r :: us)

/-! ## Checked address fields (R121, R149) -/

/-- The report entry of one field. -/
def fieldEntry (recType off width : Nat) (e : Nat × Int × Int) : ReportEntry :=
  { kind := e.1, recordType := recType, fieldOffset := off, fieldWidth := width,
    found := if width ≤ 8 then e.2.1 else 0, applied := if width ≤ 8 then e.2.2 else 0 }

/-- A slot-relative base rounded down (R121), with its entry. -/
def roundBase (recType off width raw : Nat) : Nat × List ReportEntry :=
  let r := raw / 16 * 16
  (r, if r ≠ raw then [fieldEntry recType off width (0x21, raw, r)] else [])

/-- A locally administered unicast address: bit 1 of the first octet set, bit 0 clear (R121). -/
def localUnicast (mac : Nat) : Bool := bit (mac / 2 ^ 40) 1 && !bit (mac / 2 ^ 40) 0

/-- R121 for `ID_MAC_BASE`. -/
def checkMacBase (raw : Nat) : Nat × List ReportEntry :=
  if raw = 0 then (0, [])
  else
    let (r, es) := roundBase 0x0100 6 6 raw
    if localUnicast r then (r, es) else (0, es ++ [fieldEntry 0x0100 6 6 (0x22, raw, 0)])

/-- The network mask of a prefix length, as the count of host addresses. -/
def hostSpan (prefixLen : Nat) : Nat := 2 ^ (32 - prefixLen)

/-- The address test of `IP_V4_ADDR_BASE` on the value in use (Table 6-16). -/
def v4AddressValid (addr prefixLen : Nat) : Bool :=
  let first := addr / 2 ^ 24
  let host := addr % hostSpan prefixLen
  decide (1 ≤ first ∧ first ≤ 223 ∧ first ≠ 127 ∧ host ≠ 0 ∧ host ≠ hostSpan prefixLen - 1 ∧ addr < 2 ^ 32)

/-- R149 for the four checked fields of PROTOCOL, in ascending offset; only fields present in the record are tested. -/
def checkProtocol (slot : Nat) (payload : Bytes) (c : DriveConfig) : DriveConfig × List ReportEntry :=
  let p := c.protocol
  let (v4, e1) :=
    match fieldAt? 8 4 payload with
    | none => (0, [])
    | some 0 => (0, [])
    | some raw =>
      let (r, es) := roundBase 0x1000 8 4 raw
      if v4AddressValid (r + slot) p.v4PrefixLen then (r, es) else (0, es ++ [fieldEntry 0x1000 8 4 (0x22, raw, 0)])
  let (gw, e2) :=
    match fieldAt? 16 4 payload with
    | none => (0, [])
    | some 0 => (0, [])
    | some raw =>
      if v4 = 0 then (raw, [])
      else
        let addr := v4 + slot
        let span := hostSpan p.v4PrefixLen
        if raw / span = addr / span ∧ raw ≠ addr ∧ raw % span ≠ 0 ∧ raw % span ≠ span - 1 then (raw, [])
        else (0, [fieldEntry 0x1000 16 4 (0x22, raw, 0)])
  let (v6, e3) :=
    match fieldAt? 20 8 payload with
    | none => (0, [])
    | some raw =>
      let hi := raw / 2 ^ 48
      if raw = 0 ∨ ¬ ((0xFE80 ≤ hi ∧ hi ≤ 0xFEBF) ∨ 0xFF00 ≤ hi) then (raw, [])
      else (0, [fieldEntry 0x1000 20 8 (0x22, raw, 0)])
  let (iid, e4) :=
    match fieldAt? 28 8 payload with
    | none => (0, [])
    | some 0 => (0, [])
    | some raw =>
      let (r, es) := roundBase 0x1000 28 8 raw
      if r ≠ 0 then (r, es) else (0, es ++ [fieldEntry 0x1000 28 8 (0x22, raw, 0)])
  ({ c with protocol := { p with v4AddrBase := v4, v4Gateway := gw, v6Prefix := v6, v6IidBase := iid } },
    e1 ++ e2 ++ e3 ++ e4)

/-! ## Building the configuration (R117, R119) -/

/-- One record's fields clamped into the configuration, with its entries in ascending offset. A WRAPPED_KEY record shorter than
its 136 bytes carries no whole key and is ignored (notes/assumptions/41.md). -/
def applyRecord (p : Part) (slot : Nat) (c : DriveConfig) (r : Record) : DriveConfig × List ReportEntry :=
  match recordClass r.recType with
  | none => (c, [])
  | some (.wrappedKey n) =>
    let b := r.payload
    if b.length < 136 then (c, [])
    else
      ({ c with wrappedKeys := c.wrappedKeys ++
          [⟨n, fieldAt 0 8 b, fieldAt 8 4 b, slice 12 64 b, slice 76 12 b, slice 88 32 b, slice 120 16 b⟩] }, [])
  | some k =>
    let (c, es) := (classFields p r.payload.length k).foldl
      (fun (acc : DriveConfig × List ReportEntry) f =>
        match readField f r.payload with
        | none => acc
        | some raw =>
          let (v, log) := clampField f raw
          (f.put v acc.1, acc.2 ++ log.map (fieldEntry r.recType f.offset f.width))) (c, [])
    match k with
    | .identity =>
      let (m, e) := checkMacBase c.identity.macBase
      ({ c with identity := { c.identity with macBase := m } }, sortByKey ReportEntry.fieldOffset (es ++ e))
    | .protocol =>
      let (c, e) := checkProtocol slot r.payload c
      (c, sortByKey ReportEntry.fieldOffset (es ++ e))
    | _ => (c, es)

/-- R117: the used records applied in ascending REC_TYPE over a starting configuration. -/
def applyRecords (p : Part) (slot : Nat) (c : DriveConfig) (rs : List Record) : DriveConfig × List ReportEntry :=
  (sortByKey Record.recType rs).foldl
    (fun acc r => let (c, es) := applyRecord p slot acc.1 r; (c, acc.2 ++ es)) (c, [])

/-- A JOINT_ADJUSTED entry. -/
def jointEntry (rule recType off width before after : Nat) : ReportEntry :=
  { kind := 0x30, detail := rule, recordType := recType, fieldOffset := off, fieldWidth := width,
    found := before, applied := after }

/-- A configuration with the entries that its adjustment adds. -/
abbrev Adjusted := DriveConfig × List ReportEntry

/-- Joint rule 1 of Table 5-6: tenant 0 enabled, with LY2. -/
def joint1 (c : DriveConfig) : Adjusted :=
  let t := c.tenant 0
  let g := t.generations ||| 2
  (c.modTenant 0 fun x => { x with enable := 1, generations := g },
    (if t.enable ≠ 1 then [jointEntry 1 0x1100 0 1 t.enable 1] else []) ++
    (if g ≠ t.generations then [jointEntry 1 0x1100 1 1 t.generations g] else []))

/-- Joint rule 2 for one tenant: LY1 needs `TEN_LEGACY`. -/
def joint2Tenant (a : Adjusted) (t : Nat) : Adjusted :=
  let x := a.1.tenant t
  if x.enable = 1 ∧ bit x.generations 0 ∧ x.legacy = 0 then
    let g := x.generations - 1
    (a.1.modTenant t fun y => { y with generations := g }, a.2 ++ [jointEntry 2 (0x1100 + t) 1 1 x.generations g])
  else a

/-- Joint rule 2. -/
def joint2 (c : DriveConfig) : Adjusted := (List.range 8).foldl joint2Tenant (c, [])

/-- The enabled tenants, in ascending number. -/
def enabledTenants (c : DriveConfig) : List Nat := (List.range 8).filter fun t => (c.tenant t).enable = 1

/-- The enabled tenant with the largest `TEN_SESSIONS_MAX`, the highest number on a tie. -/
def largestSessions (c : DriveConfig) : Option Nat :=
  (enabledTenants c).foldl (fun best t =>
    match best with
    | none => some t
    | some b => if (c.tenant b).sessionsMax ≤ (c.tenant t).sessionsMax then some t else best) none

/-- The sum that joint rule 3 bounds. -/
def sessionsSum (c : DriveConfig) : Nat := natSum ((enabledTenants c).map fun t => (c.tenant t).sessionsMax)

/-- Joint rule 3: the largest limit lowered by 1 until the sum is 32; `fuel` bounds the lowering. -/
def lowerSessions : Nat → DriveConfig → DriveConfig
  | 0, c => c
  | fuel + 1, c =>
    if sessionsSum c ≤ 32 then c
    else match largestSessions c with
      | none => c
      | some t => lowerSessions fuel (c.modTenant t fun x => { x with sessionsMax := x.sessionsMax - 1 })

/-- Joint rule 3 with one entry for each tenant changed. -/
def joint3 (c : DriveConfig) : Adjusted :=
  let c' := lowerSessions 256 c
  (c', (List.range 8).flatMap fun t =>
    let v := (c.tenant t).sessionsMax
    let w := (c'.tenant t).sessionsMax
    if v ≠ w then [jointEntry 3 (0x1100 + t) 3 1 v w] else [])

/-- Joint rule 4: VIN_CUT at most VIN_WARN − 2 V. -/
def joint4 (c : DriveConfig) : Adjusted :=
  let m := c.power.vinWarnMv - 2000
  if m < c.power.vinCutMv then
    ({ c with power := { c.power with vinCutMv := m } }, [jointEntry 4 0x3000 2 2 c.power.vinCutMv m])
  else (c, [])

/-- Joint rule 5: the low watermark at least 10 points below the high one. -/
def joint5 (c : DriveConfig) : Adjusted :=
  let m := c.bridge.pauseHighPct - 10
  if m < c.bridge.pauseLowPct then
    ({ c with bridge := { c.bridge with pauseLowPct := m } }, [jointEntry 5 0x0300 5 1 c.bridge.pauseLowPct m])
  else (c, [])

/-- Joint rule 6: a forced 100BASE-TX port needs a deadline of at least 40 µs. -/
def joint6 (c : DriveConfig) : Adjusted :=
  if (c.port.a.speed = 1 ∨ c.port.b.speed = 1) ∧ c.protocol.ly3DeadlineUs < 40 then
    ({ c with protocol := { c.protocol with ly3DeadlineUs := 40 } },
      [jointEntry 6 0x1000 2 2 c.protocol.ly3DeadlineUs 40])
  else (c, [])

/-- The port rate of joint rule 7 in kb/s: the forced speed, or 1000 Mb/s. -/
def configuredRateKbps (p : PortCfg) : Nat :=
  match p.speed with
  | 1 => 100000
  | 2 => 10000
  | _ => 1000000

/-- Joint rule 7 for one port. -/
def joint7Port (a : Adjusted) (q : Port) : Adjusted :=
  let s := a.1.shaper.get q
  let sum := s.idleSlope5 + s.idleSlope6
  let lim := configuredRateKbps (a.1.port.get q) * 3 / 4
  if lim < sum then
    let x := s.idleSlope5 * lim / sum
    let y := s.idleSlope6 * lim / sum
    (a.1.modShaper q fun s => { s with idleSlope5 := x, idleSlope6 := y },
      a.2 ++ (if x ≠ s.idleSlope5 then [jointEntry 7 (0x0600 + q.index) 4 4 s.idleSlope5 x] else []) ++
      (if y ≠ s.idleSlope6 then [jointEntry 7 (0x0600 + q.index) 8 4 s.idleSlope6 y] else []))
  else a

/-- Joint rule 8's walk: how many entries begin before the cycle end, and the last one's shortened interval. -/
def fitEntries (cycle : Nat) : Nat → List GateEntry → Nat × List GateEntry
  | _, [] => (0, [])
  | start, e :: rest =>
    if cycle ≤ start then (0, e :: rest)
    else
      let (n, es) := fitEntries cycle (start + e.intervalNs) rest
      (n + 1, { e with intervalNs := min e.intervalNs (cycle - start) } :: es)

/-- Joint rule 8 for one port. -/
def joint8Port (a : Adjusted) (q : Port) : Adjusted :=
  let g := a.1.gates.get q
  let used := g.inUse
  if g.cycleNs < natSum (used.map GateEntry.intervalNs) then
    let (n, es) := fitEntries g.cycleNs 0 used
    let k := n - 1
    let before := (used.getD k {}).intervalNs
    let after := (es.getD k {}).intervalNs
    (a.1.modGates q fun g => { g with entryCount := n, entries := es.take n ++ g.entries.drop n },
      a.2 ++ (if n ≠ g.entryCount then [jointEntry 8 (0x0500 + q.index) 2 2 g.entryCount n] else []) ++
      (if before ≠ after then [jointEntry 8 (0x0500 + q.index) (28 + 8 * k) 4 before after] else []))
  else a

/-- One joint rule after the others. -/
def andThen (a : Adjusted) (f : DriveConfig → Adjusted) : Adjusted :=
  let b := f a.1
  (b.1, a.2 ++ b.2)

/-- R119: joint rules 1 to 8, once each, in order. -/
def applyJointRules (c : DriveConfig) : Adjusted :=
  let a := andThen (andThen (andThen (andThen (andThen (joint1 c) joint2) joint3) joint4) joint5) joint6
  joint8Port (joint8Port (joint7Port (joint7Port a .A) .B) .A) .B

/-! ## Headers and selection (R110 to R114) -/

/-- A copy header as read, Table 5-2. -/
structure CopyHeader where
  raw : Bytes
  formatMinor : Nat
  targetPart : Nat
  generation : Nat
  bodyOffset : Nat
  bodyLength : Nat
  bodyCrc : Nat
  slotMask : Nat
  /-- 0 when the header verifies, else the status of Table 5-9 -/
  status : Nat
  deriving DecidableEq, Repr

/-- R111 for the header at one position; `copyId` is 0x0A or 0x0B. -/
def judgeHeader (window copyId slot : Nat) (h : Bytes) : CopyHeader :=
  let gen := fieldAt 8 4 h
  let off := fieldAt 12 2 h
  let len := fieldAt 14 2 h
  let status :=
    if fieldAt 28 4 h ≠ crc32c (h.take 28) then 0x08
    else if fieldAt 0 4 h ≠ 0x454B4346 then 0x03
    else if fieldAt 4 1 h ≠ 1 then 0x04
    else if fieldAt 6 1 h ≠ copyId then 0x05
    else if gen = 0 ∨ gen = 0xFFFFFFFF then 0x06
    else if off < 64 ∨ off % 4 ≠ 0 ∨ len % 4 ≠ 0 ∨ window < off + len then 0x07
    else if ¬ bit (fieldAt 20 2 h) slot then 0x09
    else 0
  ⟨h, fieldAt 5 1 h, fieldAt 7 1 h, gen, off, len, fieldAt 16 4 h, fieldAt 20 2 h, status⟩

/-- Bytes of the memory from an offset of the window. -/
def CfgMemory.read (m : CfgMemory) (off n : Nat) : Bytes :=
  (List.range n).map fun k => m.bytes.getD (off + k) m.fill

/-- What the two headers of a full or header read give (R107, R108). -/
structure HeaderRead where
  /-- BUS_FORM and BUS_SPEED of Table 5-7 -/
  busForm : Nat
  busSpeed : Nat
  /-- bytes read so far, the SFDP header and a failed attempt included (R109) -/
  bytesRead : Nat
  /-- headers A and B, absent when the memory counts as absent -/
  headers : Option (CopyHeader × CopyHeader)
  deriving DecidableEq, Repr

/-- The range of offsets that the drive reads (R106, Table 5-1): 256 bytes of a short-form I²C memory, else 64 KiB. -/
def Straps.window (x : Straps) : Nat := if !x.spi && x.short then 256 else 65536

/-- R106 to R108: the headers, by the bus that CFG_MODE and CFG_ADDR2 select. An I²C memory at another address than that of
R50 does not acknowledge; two headers of which neither verifies in standard mode either are judged as they were read
(notes/assumptions/41.md). -/
def readHeaders (x : Straps) (m : CfgMemory) : HeaderRead :=
  let judge (_ : Unit) :=
    (judgeHeader x.window 0x0A x.slot (m.read 0 32), judgeHeader x.window 0x0B x.slot (m.read 32 32))
  if x.spi then
    let all := m.sfdp.take 8 ++ m.read 0 64
    if all.all (· == 0x00#8) || all.all (· == 0xFF#8) then ⟨0, 0, 72, none⟩
    else ⟨if m.sfdp.take 4 = [0x53#8, 0x46#8, 0x44#8, 0x50#8] then 3 else 4, 3, 72, some (judge ())⟩
  else if !m.busIdle || m.i2cAddr != x.i2cAddress then ⟨0, 0, 0, none⟩
  else
    let form := if x.short then 2 else 1
    let standard (n : Nat) : HeaderRead :=
      match m.standardFailsAfter with
      | some k => ⟨0, 0, n + k, none⟩
      | none => ⟨form, 1, n + 64, some (judge ())⟩
    match m.fastFailsAfter with
    | some k => standard k
    | none =>
      let hs := judge ()
      if hs.1.status ≠ 0 ∧ hs.2.status ≠ 0 then standard 64 else ⟨form, 2, 64, some hs⟩

/-- Microseconds × 10 for one byte on each bus (T_cfg of chapter 4): 90, 23 and 0.5 µs. An absent I²C memory was
given up in standard mode. -/
def perByteTenthsUs (spi : Bool) (speed : Nat) : Nat :=
  if spi then 5 else if speed = 2 then 230 else 900

/-- How a copy fared in the selection. -/
structure Selection where
  /-- SOURCE of Table 5-7 -/
  source : Nat
  statusA : Nat
  statusB : Nat
  /-- header and body of the source -/
  chosen : Option (CopyHeader × Bytes)
  /-- body bytes read on the way -/
  bodyBytes : Nat
  tie : Bool
  deriving DecidableEq, Repr

/-- R113: order the verifying headers, take the first whole body, else salvage, else defaults. -/
def selectCopy (m : CfgMemory) (hs : Option (CopyHeader × CopyHeader)) : Selection :=
  match hs with
  | none => ⟨5, 0x02, 0x02, none, 0, false⟩
  | some (a, b) =>
    let body (h : CopyHeader) := m.read h.bodyOffset h.bodyLength
    let whole (h : CopyHeader) := decide (crc32c (body h) = h.bodyCrc)
    match a.status, b.status with
    | 0, 0 =>
      let aFirst := decide (b.generation ≤ a.generation)
      let fst := if aFirst then a else b
      let snd := if aFirst then b else a
      let tie := decide (a.generation = b.generation)
      let mk (src fs ss : Nat) (h : CopyHeader) (n : Nat) : Selection :=
        ⟨src, if aFirst then fs else ss, if aFirst then ss else fs, some (h, body h), n, tie⟩
      if whole fst then mk (if aFirst then 1 else 2) 0 1 fst fst.bodyLength
      else if whole snd then mk (if aFirst then 2 else 1) 0x0A 0 snd (fst.bodyLength + snd.bodyLength)
      else mk (if aFirst then 3 else 4) 0x0B 0x0A fst (fst.bodyLength + snd.bodyLength)
    | 0, sb => if whole a then ⟨1, 0, sb, some (a, body a), a.bodyLength, false⟩
               else ⟨3, 0x0B, sb, some (a, body a), a.bodyLength, false⟩
    | sa, 0 => if whole b then ⟨2, sa, 0, some (b, body b), b.bodyLength, false⟩
               else ⟨4, sa, 0x0B, some (b, body b), b.bodyLength, false⟩
    | sa, sb => ⟨5, sa, sb, none, 0, false⟩

/-! ## The report (R122) -/

/-- The copy-level entries in their order (R122 item 1). -/
def copyEntries (p : Part) (x : Selection) : List ReportEntry :=
  let one (status copyId : Nat) : List ReportEntry :=
    if 0x02 ≤ status ∧ status ≤ 0x0A then [{ kind := 0x01, detail := status, found := copyId }]
    else if status = 0x0B then [{ kind := 0x02, detail := 0x0B, found := copyId }]
    else []
  one x.statusA 0x0A ++ one x.statusB 0x0B ++
  (match x.chosen with
   | some (h, _) =>
     (if x.tie then [{ kind := 0x04, found := h.generation }] else []) ++
     (if h.targetPart ≠ 0 ∧ h.targetPart ≠ p.code then [{ kind := 0x05, found := h.targetPart, applied := p.code }] else [])
   | none => [{ kind := 0x03 }])

/-- At most 500 entries; the last one then counts those omitted (R122). -/
def capEntries (es : List ReportEntry) : List ReportEntry :=
  if es.length ≤ 500 then es
  else es.take 499 ++ [{ kind := 0x7F, found := (es.length - 499 : Nat) }]

/-- What one full read leaves, before the security records are judged. -/
structure FullRead where
  header : HeaderRead
  selection : Selection
  /-- the records of the source's body, as walked -/
  walked : List Record
  /-- the type of a truncated last record -/
  cut : Option Nat
  deriving DecidableEq, Repr

/-- R113 and R115 on the memory as found. -/
def fullRead (x : Straps) (m : CfgMemory) : FullRead :=
  let h := readHeaders x m
  let sel := selectCopy m h.headers
  match sel.chosen with
  | none => ⟨h, sel, [], none⟩
  | some (_, body) =>
    let (rs, cut) := walkBody (body.length + 1) body
    ⟨h, sel, rs, cut⟩

/-- The records used and the record-level entries, with the types the security block rejects left out. -/
def FullRead.judged (f : FullRead) (bad : List Nat) : List ReportEntry × List Record :=
  let (es, used) := judgeRecords bad f.walked []
  (es ++ (match f.cut with
    | some t => [{ kind := 0x10, detail := 2, recordType := t }]
    | none => []), used)

/-- T_cfg in µs (R109). -/
def tCfgUs (spi : Bool) (f : FullRead) : Nat :=
  (f.header.bytesRead + f.selection.bodyBytes) * perByteTenthsUs spi f.header.busSpeed / 10

/-- LOGICAL_ID (R120). -/
def logicalId (cellId slot : Nat) : Nat := cellId * 2 ^ 16 + slot

/-- The classes that the escalated path keeps from the last cold start (R125): 0x02 to 0x06. -/
def keepBridge (kept c : DriveConfig) : DriveConfig :=
  { c with port := kept.port, bridge := kept.bridge, time := kept.time, gates := kept.gates, shaper := kept.shaper }

/-- Whether two configurations differ in the classes 0x02 to 0x06. -/
def bridgeDiffers (a b : DriveConfig) : Bool :=
  decide (a.port ≠ b.port ∨ a.bridge ≠ b.bridge ∨ a.time ≠ b.time ∨ a.gates ≠ b.gates ∨ a.shaper ≠ b.shaper)

/-- R117, R119, R122 and R125: the configuration and the report of one full read. `catalogue` is that of the running
firmware, `bad` are the REC_TYPEs that the security block rejected, and `kept` are the bridge settings kept on the escalated
path. With the defaults as the source IMAGE_FORMAT is 0, and so is the GENERATION of a copy whose memory is absent
(notes/assumptions/41.md). -/
def buildConfig (p : Part) (straps : Straps) (catalogue startCount : Nat) (f : FullRead) (bad : List Nat)
    (kept : Option DriveConfig) : DriveConfig × ConfigReport :=
  let slot := straps.slot
  let (recEs, rs) := f.judged bad
  let (c1, fieldEs) := applyRecords p slot (DriveConfig.defaults p) rs
  let (c2, waiting) := match kept with
    | none => (c1, false)
    | some k =>
      (keepBridge k c1, bridgeDiffers k (applyJointRules c1).1)
  let (c3, jointEs) := applyJointRules c2
  let hA := (f.header.headers.map fun h => h.1.generation).getD 0
  let hB := (f.header.headers.map fun h => h.2.generation).getD 0
  let src := f.selection.chosen.map Prod.fst
  (c3, { source := f.selection.source
         busForm := f.header.busForm
         busSpeed := f.header.busSpeed
         copyAStatus := f.selection.statusA
         copyBStatus := f.selection.statusB
         copyAGeneration := hA
         copyBGeneration := hB
         selectedBodyCrc := (src.map CopyHeader.bodyCrc).getD 0
         catalogueVersion := catalogue
         imageFormat := (src.map fun h => 0x0100 + h.formatMinor).getD 0
         tCfgUs := tCfgUs straps.spi f
         startCount := startCount
         logicalId := logicalId c3.identity.cellId slot
         slotMask := (src.map CopyHeader.slotMask).getD 0xFFFF
         slot := slot
         newerCopyWaiting := waiting
         sourceGeneration := (src.map CopyHeader.generation).getD 0
         entries := capEntries (copyEntries p f.selection ++ recEs ++ fieldEs ++ jointEs) })

/-- R124: what the header reread of a warm start finds. -/
inductive Reread where
  | failed | nothingNewer | newer
  deriving DecidableEq, Repr

/-- R113's order: does a verifying header at this position come before the source in use? -/
def ordersAbove (r : ConfigReport) (isA : Bool) (h : CopyHeader) : Bool :=
  decide (h.status = 0) && (decide (r.sourceGeneration < h.generation) ||
    (isA && decide (h.generation = r.sourceGeneration ∧ (r.source = 2 ∨ r.source = 4))))

/-- A copy whose header verified at the full read and fails R111 at the reread (its status of Table 5-9 is then one that
follows the header's). -/
def tornHeader (status : Nat) (h : CopyHeader) : Bool := decide (h.status ≠ 0) && [0x00, 0x01, 0x0A, 0x0B].contains status

/-- R124: the reread fails where the memory counts as absent, and where no newer copy is found and a header that verified at
the full read no longer does (notes/assumptions/17.md). -/
def rereadHeaders (x : Straps) (r : ConfigReport) (m : CfgMemory) : Reread :=
  match (readHeaders x m).headers with
  | none => .failed
  | some (a, b) =>
    if ordersAbove r true a || ordersAbove r false b then .newer
    else if tornHeader r.copyAStatus a || tornHeader r.copyBStatus b then .failed
    else .nothingNewer

/-- The 24 bytes of a report entry (Table 5-8). -/
def ReportEntry.encode (e : ReportEntry) : Bytes :=
  beBytes 1 e.kind ++ beBytes 1 e.detail ++ beBytes 2 e.recordType ++ beBytes 2 e.fieldOffset ++
  beBytes 1 e.fieldWidth ++ zeros 1 ++ beInt 8 e.found ++ beInt 8 e.applied

/-- The bytes of page 0x03 (Tables 5-7 and 5-8). -/
def ConfigReport.encode (r : ConfigReport) : Bytes :=
  beBytes 1 1 ++ beBytes 1 r.source ++ beBytes 2 r.entries.length ++ beBytes 1 r.busForm ++ beBytes 1 r.busSpeed ++
  beBytes 1 r.copyAStatus ++ beBytes 1 r.copyBStatus ++ beBytes 4 r.copyAGeneration ++ beBytes 4 r.copyBGeneration ++
  beBytes 4 r.selectedBodyCrc ++ beBytes 2 r.catalogueVersion ++ beBytes 2 r.imageFormat ++ beBytes 4 r.tCfgUs ++
  beBytes 4 r.startCount ++ beBytes 8 r.logicalId ++ beBytes 2 r.slotMask ++ beBytes 1 r.slot ++
  beBytes 1 (bitOf r.newerCopyWaiting) ++ zeros 20 ++ r.entries.flatMap ReportEntry.encode

end Sys2Proof.Machine
end

