-- ==== Sys2Proof/Config.lean ====
section
/-!
DEFINITION. The values the manual leaves open, as constants without a body. No proof can use a value of any of them.
-/
namespace Sys2Proof.Config

/-- The firmware verification keys of the boot ROM, by SIG_KEY_INDEX, byte by byte (R472). -/
opaque firmwareKeyByte : Nat → Nat → Byte

/-- Random bytes of the security block (nonces, ephemeral and data keys): a draw number and a place. -/
opaque randomByte : Nat → Nat → Byte

/-- READY_HINT_US of a HELD answer, an estimate that binds nothing (R253). -/
opaque readyHint : Nat → Nat

/-- RETRY_AFTER_US of a THROTTLED answer for the ledger, an estimate (R263). -/
opaque retryAfter : Nat → Nat

/-- Whether a tamper-loop reading between the two stated bands is judged open (R54). -/
opaque tamperBand : Nat → Bool

/-- Whether an SVC_EN level of 80 ms to less than 100 ms is judged ignored (R56). -/
opaque svcEnBand : Nat → Bool

/-- The index pages that have changed when a checkpoint begins at a WRITE_SEQ (R388): the manual gives index pages no layout. -/
opaque indexPages : Nat → Nat

/-- Bytes of the last staging line of an extent beyond its data, by their place in the line (R21). -/
opaque lineFiller : Nat → Byte

/-- Bytes of a page that hold neither an extent nor parity, and those that pad an area to 16 bytes, by their place (R455). -/
opaque pageFiller : Nat → Byte

/-- The header of an extent of a tenant, a key and a version: the manual gives it no layout (R381). -/
opaque extentHeader : Nat → Bytes → Nat → Bytes

/-- The hash-front hash of a tenant and key, which no chapter defines (R379). -/
opaque keyHash : Nat → Bytes → Nat

/-- The IV under which a key is wrapped in flash, by its place among the wrapped keys and the key itself: R448 names AES-256-GCM
and gives no IV. -/
opaque wrapIv : Nat → Bytes → Bytes

/-- Erase counts of the blocks that index and journal take, after a checkpoint at a WRITE_SEQ: their places are in no chapter
(R365). -/
opaque indexErases : Nat → Nat → Nat

/-- The blocks that index and journal take after a checkpoint at a WRITE_SEQ; Table 14-2 bounds them (R348). -/
opaque indexBlocks : Nat → Nat

/-- What a vendor debug instruction shifts out on TDO (R57). -/
opaque debugShift : Nat → Bool

/-- The gains and the trim of a regulator channel in a gain region: channel, region, coefficient (R427). -/
opaque regulatorGain : Nat → Nat → Nat → Int

/-- By how much the drive changes its rate for an offset of 1 ms or less, in parts per billion beyond the first: a draw number (R179). -/
opaque servoPpb : Nat → Nat

/-- TR_ERROR of a status that Table 11-8 does not map, where a set keeps its image (R286, R291): a draw number. -/
opaque ly1Error : Nat → Nat

/-- What an instruction-register value selects in the TAP: 0 BYPASS, 1 IDCODE, 2 SAMPLE/PRELOAD, 3 EXTEST, others a vendor
debug instruction (R57 names them, the encodings are in no chapter). -/
opaque tapDecode : Nat → Nat

/-- Bit `k` of the identification register. -/
opaque idcodeBit : Nat → Bool

/-- Length of the TAP's instruction register, and of its boundary register. -/
opaque irLength : Nat
/-- Number of boundary cells. -/
opaque boundaryLength : Nat

/-- The level that boundary cell `k` captures: a draw number and a cell. -/
opaque boundaryCell : Nat → Nat → Bool

/-- The boundary cell that drives a contact of row A while EXTEST is selected, if one does (R57: the BSDL file is in no chapter). -/
opaque boundaryOf : Nat → Option Nat

end Sys2Proof.Config
end

