-- ==== Sys2Proof/Machine/State/Reg.lean ====
section
/-!
DEFINITION. The regulator array: two compensators, four windbreak loops, their buckets and the bank-power estimator
(chapter 16). Q16 and Q40 values are integers held within 32 and 64 signed bits (R406, R407).
-/
namespace Sys2Proof.Machine

/-- The sticky and live flags of one channel (R407, R338). -/
structure ChFlags where
  satArith : Bool := false
  satIntegrator : Bool := false
  satOutput : Bool := false
  oscLatched : Bool := false
  region0 : Bool := false
  softStart : Bool := false
  deriving DecidableEq, Repr

/-- The oscillation detector (R421). -/
structure Detector where
  samples : Nat := 0
  crossings : Nat := 0
  badWindows : Nat := 0
  /-- sign of the error last seen, 0 before the first -/
  sign : Int := 0
  /-- the error went beyond ±A since the last crossing counted -/
  beyond : Bool := false
  /-- it has tripped: the channel reacts at its next sample (R422) -/
  tripped : Bool := false
  deriving DecidableEq, Repr

/-- A gain region with the samples in a row for which its variable has lain beyond each boundary, upwards or downwards
(R419). -/
structure Region where
  region : Nat := 1
  /-- above the boundary between regions 1 and 2, and below it -/
  up12 : Nat := 0
  down12 : Nat := 0
  /-- above the boundary between regions 2 and 3, and below it -/
  up23 : Nat := 0
  down23 : Nat := 0
  deriving DecidableEq, Repr

/-- A set-point on its ramp (R420): where it started, its target and the samples since. -/
structure Ramp where
  start : Int := 0
  target : Int := 0
  samples : Nat := 0
  /-- the set-point in force -/
  value : Int := 0
  deriving DecidableEq, Repr

/-- A compensator channel, CH0 or CH1: histories newest first. -/
structure Comp where
  running : Bool := false
  u : List Int := []
  e : List Int := []
  ramp : Ramp := {}
  region : Region := {}
  det : Detector := {}
  flags : ChFlags := {}
  measured : Int := 0
  /-- the computed output, reported in OUTPUT -/
  output : Int := 0
  /-- the first sample since a start is still to come -/
  fresh : Bool := true
  deriving DecidableEq, Repr

/-- A windbreak loop, CH2 to CH5. -/
structure Loop where
  running : Bool := false
  integ : Int := 0
  dst : Int := 0
  mPrev : Int := 0
  eLast : Int := 0
  ramp : Ramp := {}
  region : Region := {}
  det : Detector := {}
  flags : ChFlags := {}
  measured : Int := 0
  output : Int := 0x04000000
  fresh : Bool := true
  /-- the output is fixed at the floor until the next cold start (R422) -/
  floored : Bool := false
  /-- the gain scale and the region of the last output, in % and as R419 numbers them -/
  scale : Nat := 100
  gainRegion : Nat := 1
  deriving DecidableEq, Repr

/-- A byte bucket in units of 2⁻³² byte, settled at an elapsed time (R416). -/
structure Bucket where
  units : Nat := 0
  at_ : Nat := 0
  deriving DecidableEq, Repr

/-- The estimator's mode (R423). -/
inductive RateMode where
  | standstill | charging | discharging
  deriving DecidableEq, Repr

/-- The regulator array. -/
structure RegState where
  ch0 : Comp := {}
  ch1 : Comp := {}
  ch2 : Loop := {}
  ch3 : Loop := {}
  ch4 : Loop := {}
  ch5 : Loop := {}
  /-- CH0's written output is held at 0.90 V: by default, in Dusk, after a lost reference, or after oscillation -/
  ch0Held : Bool := true
  /-- the hold stands until the next cold start (R422) -/
  ch0OscHold : Bool := false
  /-- VCORE as written, in mV -/
  vcoreMv : Nat := 900
  /-- CH1 is stopped until the next cold start (R422) -/
  ch1Stopped : Bool := false
  /-- the hardware limit at 47.0 V holds the charger off (R83) -/
  overcharge : Bool := false
  writeBucket : Bucket := {}
  deleteBucket : Bucket := {}
  /-- estimator samples in mV, newest first, at most 8 -/
  filter : List Nat := []
  rateMode : RateMode := .standstill
  /-- when the hardware's standstill began, while it stands still -/
  stillSince : Option Nat := none
  /-- estimator samples for which SETTLING still stands -/
  settle : Nat := 0
  /-- RATE_MW -/
  rateMw : Int := 0
  deriving DecidableEq, Repr

end Sys2Proof.Machine
end

