-- ==== Sys2Proof/Machine/Regulator.lean ====
section
/-!
DEFINITION. The arithmetic of the regulator array (chapter 16): saturating Q-format operations, compensators, PID
steps, region scheduling, ramps, oscillation detectors, buckets and the bank-power estimator.
-/
namespace Sys2Proof.Machine

/-! ## Saturating arithmetic (R406, R407) -/

/-- A value with the mark that some operation on the way saturated. -/
structure SatVal where
  v : Int
  sat : Bool
  deriving DecidableEq, Repr

/-- A result held within 64 signed bits. -/
def sat64 (v : Int) : SatVal :=
  let w := clampInt (-9223372036854775808) 9223372036854775807 v
  ⟨w, decide (w ≠ v)⟩

/-- `sat_add` on 64 bits. -/
def satAdd (a b : SatVal) : SatVal := let r := sat64 (a.v + b.v); ⟨r.v, a.sat || b.sat || r.sat⟩

/-- `sat_sub` on 64 bits. -/
def satSub (a b : SatVal) : SatVal := let r := sat64 (a.v - b.v); ⟨r.v, a.sat || b.sat || r.sat⟩

/-- `sat_mul` of a Q24 and a Q16 value, a Q40 result. -/
def satMul (a b : Int) : SatVal := sat64 (a * b)

/-- Q40 to Q16: add 2²³, shift right by 24 places, saturate at 32 bits (R406). -/
def q40ToQ16 (a : SatVal) : SatVal :=
  let w := (a.v + 8388608) / 16777216
  let r := sat32 w
  ⟨r, a.sat || decide (r ≠ w)⟩

/-- A sum of products, in Q40. -/
def dot (cs xs : List Int) : SatVal :=
  (cs.zip xs).foldl (fun acc p => satAdd acc (satMul p.1 p.2)) ⟨0, false⟩

/-! ## Limits and units -/

/-- 0.62 V and 0.90 V in Q16 (R406: 0.90 V is 0xE666). -/
def vcoreMin : Int := 40632
/-- 0.90 V. -/
def vcoreMax : Int := 0xE666
/-- 1.2 W in Q16. -/
def chargeMax : Int := 78643
/-- The floor and the ceiling of CH2 to CH5. -/
def rateFloor : Int := 0x00010000
/-- The ceiling of CH2 to CH5. -/
def rateCeiling : Int := 0x04000000
/-- A Q16 value in Q40. -/
def toQ40 (q : Int) : Int := q * 16777216

/-- Millivolts as Q16 volts. -/
def mvToQ16 (mv : Nat) : Int := (mv : Int) * 65536 / 1000

/-- Q16 volts rounded to the nearest millivolt (R408). -/
def q16ToMv (q : Int) : Nat := ((q * 1000 + 32768) / 65536).toNat

/-- The integer square root, one bit at a time; `fuel` is the number of bits. -/
def isqrtLoop : Nat → Nat → Nat → Nat
  | 0, _, acc => acc
  | k + 1, n, acc =>
    let t := acc + 2 ^ k
    if t * t ≤ n then isqrtLoop k n t else isqrtLoop k n acc

/-- The integer square root of a number below 2⁸⁰. -/
def isqrt (n : Nat) : Nat := isqrtLoop 40 n 0

/-! ## Ramps (R411, R420) -/

/-- A ramp from a measured value to a target. -/
def Ramp.begin_ (measured target : Int) : Ramp := ⟨measured, target, 0, measured⟩

/-- One sample of a linear ramp of `num / den` Q16 units a sample. -/
def Ramp.step (num den : Int) (r : Ramp) : Ramp :=
  let n := r.samples + 1
  let d := num * n / den
  let v := if r.start ≤ r.target then min r.target (r.start + d) else max r.target (r.start - d)
  { r with samples := n, value := v }

/-- One sample of CH1's ramp: the square of the set-point rises by 3,600 mV² (R411). -/
def Ramp.stepSquare (r : Ramp) : Ramp :=
  let n := r.samples + 1
  let mv := q16ToMv r.start
  let sq := mv * mv + 3600 * n
  let v : Int := (isqrt (sq * 4294967296 / 1000000) : Nat)
  { r with samples := n, value := if r.start ≤ r.target then min r.target v else r.target }

/-- One sample of a ramp toward a target: a new target starts a new ramp from the measured value (R420). -/
def Ramp.toward (measured target num den : Int) (r : Ramp) : Ramp :=
  if r.target = target then r.step num den else Ramp.begin_ measured target

/-- SOFT_START: the ramp has not reached its target. -/
def Ramp.running (r : Ramp) : Bool := decide (r.value ≠ r.target)

/-! ## Regions (R419) -/

/-- A channel's boundaries, written so that the region number rises with the variable. -/
structure RegionPlan where
  b12 : Int
  b23 : Int
  hyst : Int
  dwell : Nat
  /-- a variable on the boundary belongs to the upper region -/
  closed : Bool
  deriving DecidableEq, Repr

/-- The region that a variable selects at a first sample. -/
def RegionPlan.select (p : RegionPlan) (v : Int) : Nat :=
  let above (b : Int) : Bool := if p.closed then decide (b ≤ v) else decide (b < v)
  if above p.b23 then 3 else if above p.b12 then 2 else 1

/-- One sample of region scheduling: at most one region, after the dwell beyond the boundary and its hysteresis. -/
def RegionPlan.step (p : RegionPlan) (v : Int) (r : Region) : Region :=
  let count (beyond : Bool) (n : Nat) : Nat := if beyond then n + 1 else 0
  let up12 := count (decide (p.b12 + p.hyst < v)) r.up12
  let down12 := count (decide (v < p.b12 - p.hyst)) r.down12
  let up23 := count (decide (p.b23 + p.hyst < v)) r.up23
  let down23 := count (decide (v < p.b23 - p.hyst)) r.down23
  let region :=
    if r.region = 1 then if p.dwell ≤ up12 then 2 else 1
    else if r.region = 2 then if p.dwell ≤ up23 then 3 else if p.dwell ≤ down12 then 1 else 2
    else if r.region = 3 then if p.dwell ≤ down23 then 2 else 3
    else r.region
  ⟨region, up12, down12, up23, down23⟩

/-- Table 16-5, in Q16; the variables of CH2, CH4 and CH5 enter negated, since their regions rise as they fall. -/
def plan0 : RegionPlan := ⟨45875, 52428, 655, 16, true⟩
/-- CH1: 15 V and 43 V, 0.5 V. -/
def plan1 : RegionPlan := ⟨983040, 2818048, 32768, 16, true⟩
/-- CH2: −200 mJ and 0, 20 mJ. -/
def plan2 : RegionPlan := ⟨-13107200, 0, 1310720, 4, false⟩
/-- CH3: −10 °C and 0, 1 °C. -/
def plan3 : RegionPlan := ⟨-655360, 0, 65536, 4, false⟩
/-- CH4: −2 % and 0, 0.1 %. -/
def plan4 : RegionPlan := ⟨-131072, 0, 6554, 4, false⟩
/-- CH5: 0 and 0.05, 0.005. -/
def plan5 : RegionPlan := ⟨0, 3277, 328, 4, false⟩

/-! ## The oscillation detector (R421) -/

/-- The sign of an error. -/
def signOf (e : Int) : Int := if e < 0 then -1 else if 0 < e then 1 else 0

/-- One sample of the detector with threshold `a`. -/
def Detector.step (a e : Int) (d : Detector) : Detector :=
  let out := decide (a < e ∨ e < -a)
  let s := signOf e
  let changed := decide (s ≠ 0 ∧ d.sign ≠ 0 ∧ s ≠ d.sign)
  let cross := changed && d.beyond
  let crossings := if cross then d.crossings + 1 else d.crossings
  let d := { d with sign := if s = 0 then d.sign else s, beyond := if cross then out else d.beyond || out }
  if d.samples + 1 < 64 then { d with samples := d.samples + 1, crossings := crossings }
  else
    let bad := if 8 ≤ crossings then d.badWindows + 1 else 0
    { d with samples := 0, crossings := 0, badWindows := if 4 ≤ bad then 0 else bad,
             tripped := d.tripped || decide (4 ≤ bad) }

/-! ## Compensators (R408, R410) -/

/-- A coefficient of a channel in a region (R427: not published), a Q24 value. -/
def coefficient (ch region k : Nat) : Int := sat32 (Config.regulatorGain ch region k)

/-- The coefficients of a compensator: `n` of the outputs, then `n + 1` of the errors. -/
def compCoeffs (ch region n : Nat) : List Int × List Int :=
  ((List.range n).map (coefficient ch region), (List.range (n + 1)).map fun k => coefficient ch region (n + k))

/-- One sample of a compensator of order `n` with its limits; the clamp at the upper limit is SAT_OUTPUT (R407). -/
def Comp.compute (ch n : Nat) (lo hi : Int) (measured : Int) (c : Comp) : Comp :=
  let e := sat32 (c.ramp.value - measured)
  let (as, bs) := compCoeffs ch c.region.region n
  let sum := satAdd (dot as (c.u.take n)) (dot bs (e :: c.e.take n))
  let q := q40ToQ16 sum
  let u := clampInt lo hi q.v
  { c with
    u := (u :: c.u).take n
    e := (e :: c.e).take n
    measured := measured
    output := u
    fresh := false
    flags := { c.flags with
      satArith := c.flags.satArith || q.sat || decide (e ≠ c.ramp.value - measured)
      satOutput := c.flags.satOutput || decide (hi < q.v)
      softStart := c.ramp.running } }

/-- What the reaction of R422 asks of the rest of the drive. -/
inductive OscEvent where
  | none | first | again
  deriving DecidableEq, Repr

/-- R422 at the sample after a trip: region 0 for good, or the second reaction. -/
def reactTrip (det : Detector) (region : Region) (flags : ChFlags) : Detector × Region × ChFlags × OscEvent :=
  if det.tripped then
    let d : Detector := { det with tripped := false }
    if flags.region0 then (d, region, flags, .again)
    else (d, { region := 0 }, { flags with oscLatched := true, region0 := true }, .first)
  else (det, region, flags, .none)

/-- The region of a sample: the first one takes the region that its variable selects. -/
def sampleRegion (p : RegionPlan) (fresh forced : Bool) (v : Int) (r : Region) : Region :=
  if fresh && !forced then { region := p.select v } else r

/-- The region of the next sample, whose gains apply from then on. -/
def nextRegion (p : RegionPlan) (forced : Bool) (v : Int) (r : Region) : Region := if forced then r else p.step v r

/-- One CH0 sample (R408, R419 to R422): the pace ratio in Q16. -/
def Comp.sample0 (written pace target : Int) (c : Comp) : Comp × OscEvent :=
  let (det, reg, flags, osc) := reactTrip c.det c.region c.flags
  let c := { c with det := det, region := reg, flags := flags }
  let c := { c with ramp := c.ramp.toward pace target 65536 10000, region := sampleRegion plan0 c.fresh c.flags.region0 written c.region }
  let c := c.compute 0 2 vcoreMin vcoreMax pace
  ({ c with det := c.det.step 1311 (c.ramp.value - pace), region := nextRegion plan0 c.flags.region0 written c.region }, osc)

/-- One CH1 sample (R410, R411): the bank voltage in Q16. -/
def Comp.sample1 (bank : Int) (c : Comp) : Comp × OscEvent :=
  let (det, reg, flags, osc) := reactTrip c.det c.region c.flags
  let c := { c with det := det, region := reg, flags := flags }
  let c := { c with ramp := c.ramp.stepSquare, region := sampleRegion plan1 c.fresh c.flags.region0 bank c.region }
  let c := c.compute 1 3 0 chargeMax bank
  ({ c with det := c.det.step 13107 (c.ramp.value - bank), region := nextRegion plan1 c.flags.region0 bank c.region }, osc)

/-- R411: CH1 starts or resumes with empty histories and a ramp from the measured bank voltage to 45.0 V. -/
def Comp.start1 (bankMv : Nat) (c : Comp) : Comp :=
  let ramp := Ramp.begin_ (mvToQ16 bankMv) 0x002D0000
  { c with running := true, u := [0, 0, 0], e := [0, 0, 0], ramp := ramp, det := {}, fresh := true, output := 0
           flags := { c.flags with softStart := ramp.running } }

/-- R412: CH1 stops at 0 W and abandons its ramp. -/
def Comp.stop1 (c : Comp) : Comp := 
  { c with running := false, output := 0, ramp := {}, flags := { c.flags with softStart := false } }

/-- R409: CH0 starts with both outputs at 0.90 V and both errors at 0; its set-point ramps from the pace measured at
its first sample. -/
def Comp.start0 (c : Comp) : Comp :=
  { c with running := true, u := [vcoreMax, vcoreMax], e := [0, 0], det := {}, fresh := true, ramp := {}, output := vcoreMax }

/-- CH0's output as last written, in Q16 (R409, R422). -/
def RegState.ch0Written (r : RegState) : Int := if r.ch0Held then vcoreMax else r.ch0.output

/-! ## Windbreak loops (R413, R414) -/

/-- The PID gains of a channel: kp, ki and kd of a region, each multiplied by the gain scale in Q24 (R406, R407, R413), and
whether one of them saturates. -/
def pidGains (ch region scale : Nat) : Int × Int × Int × Bool :=
  let s : Int := (scale : Int) * 16777216 / 100
  let exact (k : Nat) : Int := coefficient ch region k * s / 16777216
  (sat32 (exact 0), sat32 (exact 1), sat32 (exact 2), (List.range 3).any fun k => decide (sat32 (exact k) ≠ exact k))

/-- `alpha`, 0.875 in Q24. -/
def pidAlpha : Int := 0x00E00000

/-- `pid_step` of R413 on a loop whose gains are those of its region. -/
def Loop.pidStep (ch : Nat) (dir : Int) (m : Int) (c : Loop) : Loop :=
  let (kp, ki, kd, gainSat) := pidGains ch c.region.region c.scale
  let e := dir * (m - c.ramp.value)
  let dm := dir * (m - c.mPrev)
  let p := satMul kp e
  let ad := satMul pidAlpha c.dst
  let dterm := satMul kd (-dm)
  let dst := satAdd ⟨ad.v / 16777216, ad.sat⟩ ⟨dterm.v.tdiv 8, dterm.sat⟩
  let pd := satAdd p dst
  let i := satAdd ⟨c.integ, false⟩ (satMul ki e)
  let ilo := satSub ⟨toQ40 rateFloor, false⟩ pd
  let ihi := satSub ⟨toQ40 rateCeiling, false⟩ pd
  let low := decide (i.v < ilo.v)
  let iv := if i.v < ilo.v then ilo.v else i.v
  let iv := if ihi.v < iv then ihi.v else iv
  let u := satAdd pd ⟨iv, i.sat || ilo.sat || ihi.sat⟩
  let under := decide (u.v < toQ40 rateFloor)
  let uv := clampInt (toQ40 rateFloor) (toQ40 rateCeiling) u.v
  let q := q40ToQ16 ⟨uv, u.sat⟩
  { c with
    integ := iv, dst := dst.v, mPrev := m, eLast := e, measured := m, output := q.v, fresh := false
    flags := { c.flags with
      satArith := c.flags.satArith || q.sat || gainSat
      satIntegrator := c.flags.satIntegrator || low
      satOutput := c.flags.satOutput || under
      softStart := c.ramp.running } }

/-- R419: after a change of gains, the integrator is set so that unchanged inputs give the last output. -/
def Loop.bumpless (ch : Nat) (c : Loop) : Loop :=
  let kp := (pidGains ch c.region.region c.scale).1
  { c with integ := (satSub ⟨toQ40 c.output, false⟩ (satAdd (satMul kp c.eLast) ⟨c.dst, false⟩)).v }

/-- R415: a starting loop: integrator at `umax`, derivative state 0, first measurement still to come. The output last written
stands until then. -/
def Loop.start (scale : Nat) (c : Loop) : Loop :=
  { c with running := true, integ := toQ40 rateCeiling, dst := 0, fresh := true, det := {}, scale := scale,
           ramp := {}, region := if c.flags.region0 then c.region else {} }

/-- What distinguishes the four loops: direction, ramp rate, region plan and detector threshold. -/
structure LoopPlan where
  ch : Nat
  dir : Int
  rampNum : Int
  rampDen : Int
  regions : RegionPlan
  /-- +1 or −1: how the variable, measured less set-point, enters the region plan -/
  regionDir : Int
  oscA : Int
  deriving DecidableEq, Repr

/-- CH2 (Tables 16-5 to 16-7). -/
def loop2 : LoopPlan := ⟨2, 1, 65536, 10, plan2, -1, 1310720⟩
/-- CH3. -/
def loop3 : LoopPlan := ⟨3, -1, 65536, 1000, plan3, 1, 32768⟩
/-- CH4. -/
def loop4 : LoopPlan := ⟨4, 1, 65536, 10000, plan4, -1, 13107⟩
/-- CH5, whose set-point follows CH0's without a ramp of its own. -/
def loop5 : LoopPlan := ⟨5, 1, 65536, 1, plan5, -1, 1311⟩

/-- The part of a sample shared by CH2 to CH5: the ramp is already stepped. -/
def Loop.regulate (p : LoopPlan) (m : Int) (scale : Nat) (c : Loop) : Loop × OscEvent :=
  let (det, reg, flags, osc) := reactTrip c.det c.region c.flags
  let floored := c.floored || decide (osc = .again)
  let v := p.regionDir * (m - c.ramp.value)
  let reg := sampleRegion p.regions c.fresh flags.region0 v reg
  let changed := !c.fresh && decide (reg.region ≠ c.gainRegion ∨ scale ≠ c.scale)
  let c := { c with det := det, region := reg, flags := flags, floored := floored, scale := scale, gainRegion := reg.region
                    mPrev := if c.fresh then m else c.mPrev }
  let c := if changed then c.bumpless p.ch else c
  let c := c.pidStep p.ch p.dir m
  let c := if c.floored then { c with output := rateFloor } else c
  ({ c with det := c.det.step p.oscA (c.ramp.value - m), region := nextRegion p.regions c.flags.region0 v c.region }, osc)

/-- One sample of CH2, CH3 or CH4 with its target set-point. -/
def Loop.sample (p : LoopPlan) (m target : Int) (scale : Nat) (c : Loop) : Loop × OscEvent :=
  let ramp := if c.fresh then Ramp.begin_ m target else c.ramp.toward m target p.rampNum p.rampDen
  { c with ramp := ramp }.regulate p m scale

/-- One sample of CH5 (R414): while CH0 last wrote less than 0.90 V, `pid_step` is skipped, so that `m_prev` stands too. -/
def Loop.sample5 (ch0Written sp m : Int) (scale : Nat) (c : Loop) : Loop × OscEvent :=
  let c := { c with ramp := ⟨sp, sp, 0, sp⟩ }
  if ch0Written < vcoreMax then
    let (det, reg, flags, osc) := reactTrip c.det c.region c.flags
    let floored := c.floored || decide (osc = .again)
    let reg : Region := if flags.region0 then reg else {}
    ({ c with integ := toQ40 rateCeiling, dst := 0, measured := m, mPrev := if c.fresh then m else c.mPrev, eLast := 0
              scale := scale, gainRegion := reg.region, fresh := false, floored := floored
              output := if floored then rateFloor else rateCeiling, region := reg
              det := det.step loop5.oscA (sp - m), flags := { flags with softStart := false } }, osc)
  else c.regulate loop5 m scale

/-! ## Rates and buckets (R416 to R418) -/

/-- The lowest of some outputs with its channel, the lowest number on a tie. -/
def lowest : List (Nat × Int) → Nat × Int
  | [] => (0xFF, rateCeiling)
  | [x] => x
  | x :: y :: rest => let r := lowest (y :: rest); if x.2 ≤ r.2 then x else r

/-- The write rate and its limiting channel. -/
def RegState.writeRate (r : RegState) : Nat × Int :=
  lowest [(2, r.ch2.output), (3, r.ch3.output), (4, r.ch4.output), (5, r.ch5.output)]

/-- The delete rate, which CH4 does not slow (R319). -/
def RegState.deleteRate (r : RegState) : Nat × Int :=
  lowest [(2, r.ch2.output), (3, r.ch3.output), (5, r.ch5.output)]

/-- 2³² units make a byte; a bucket holds at most 131,072 bytes. -/
def bucketCap : Nat := 131072 * 4294967296

/-- Units gained in one reference period at a Q16 rate: (rate × 16) bytes/s for 40 ns, rounded down. -/
def unitsPerPeriod (rate : Int) : Nat := rate.toNat * 16 * 4294967296 * 40 / 1000000000

/-- A bucket brought up to an elapsed time at a rate. -/
def Bucket.settle (rate : Int) (now : Nat) (b : Bucket) : Bucket :=
  let periods := now / 40 - b.at_ / 40
  ⟨min bucketCap (b.units + unitsPerPeriod rate * periods), now⟩

/-- RETRY_AFTER_US of a refusal at the bucket: the deficit over the rate, rounded up, within 1 to 100,000 (R418). -/
def retryUs (rate : Int) (units len : Nat) : Nat :=
  let deficit := len * 4294967296 - units
  let perSecond := rate.toNat * 16 * 4294967296
  if perSecond = 0 then 100000 else min 100000 (max 1 ((deficit * 1000000 + perSecond - 1) / perSecond))

/-- Both buckets brought up to an elapsed time, before an output changes or a check reads them. -/
def RegState.settleBuckets (now : Nat) (r : RegState) : RegState :=
  { r with writeBucket := r.writeBucket.settle r.writeRate.2 now, deleteBucket := r.deleteBucket.settle r.deleteRate.2 now }

/-- R415: the loops that do not run start, with full buckets; running loops stay as they are. -/
def RegState.startLoops (now : Nat) (s2 s3 s4 s5 : Nat) (r : RegState) : RegState :=
  if r.ch2.running then r
  else { r with
    ch2 := r.ch2.start s2, ch3 := r.ch3.start s3, ch4 := r.ch4.start s4, ch5 := r.ch5.start s5
    writeBucket := ⟨bucketCap, now⟩, deleteBucket := ⟨bucketCap, now⟩ }

/-- A loop stops; its last output stands (R415), and no ramp runs. -/
def Loop.stop (c : Loop) : Loop := { c with running := false, flags := { c.flags with softStart := false } }

/-- The loops stop. -/
def RegState.stopLoops (r : RegState) : RegState :=
  { r with ch2 := r.ch2.stop, ch3 := r.ch3.stop, ch4 := r.ch4.stop, ch5 := r.ch5.stop }

/-- R328: a snapshot of page 0x09 clears the sticky saturation flags. -/
def ChFlags.clearSticky (f : ChFlags) : ChFlags :=
  { f with satArith := false, satIntegrator := false, satOutput := false }

/-- The sticky flags of every channel cleared. -/
def RegState.clearSticky (r : RegState) : RegState :=
  { r with ch0 := { r.ch0 with flags := r.ch0.flags.clearSticky }, ch1 := { r.ch1 with flags := r.ch1.flags.clearSticky },
           ch2 := { r.ch2 with flags := r.ch2.flags.clearSticky }, ch3 := { r.ch3 with flags := r.ch3.flags.clearSticky },
           ch4 := { r.ch4 with flags := r.ch4.flags.clearSticky }, ch5 := { r.ch5 with flags := r.ch5.flags.clearSticky } }

/-! ## The rate estimator (R423, R424) -/

/-- Numerator and denominator of the least-squares slope, in mV per ms, of samples given newest first. -/
def slopeOf (ys : List Nat) : Int × Int :=
  let n : Int := (ys.length : Nat)
  let pts := ys.reverse.zipIdx
  let sx : Int := pts.foldl (fun a p => a + (p.2 : Int)) 0
  let sy : Int := pts.foldl (fun a p => a + (p.1 : Int)) 0
  let sxy : Int := pts.foldl (fun a p => a + (p.1 : Int) * (p.2 : Int)) 0
  let sxx : Int := pts.foldl (fun a p => a + (p.2 : Int) * (p.2 : Int)) 0
  (n * sxy - sx * sy, n * sxx - sx * sx)

/-- The power in mW: capacitance in µF, times the latest sample in mV, times the slope. -/
def powerMw (cUf : Nat) (ys : List Nat) : Int :=
  let (num, den) := slopeOf ys
  if den = 0 then 0 else ((cUf : Int) * (ys.headD 0 : Nat) * num).tdiv (den * 1000000)

/-- A standstill that has lasted one estimator sample by an instant (R424). -/
def RegState.stoodStill (now : Nat) (r : RegState) : Bool :=
  match r.stillSince with
  | some t => decide (t + 1000000 ≤ now)
  | none => false

/-- R424: the hardware's mode at an instant. A standstill of one estimator sample empties the filter; a mode that follows it
waits for two estimator samples, and a reversal for eight, with SETTLING and no power reported. A shorter standstill leaves
the mode before it. -/
def RegState.noteRate (now : Nat) (mode : RateMode) (r : RegState) : RegState :=
  let r := if r.stoodStill now then { r with filter := [], rateMode := .standstill, settle := 0, rateMw := 0 } else r
  if mode = .standstill then { r with stillSince := some (r.stillSince.getD now) }
  else
    let r := { r with stillSince := none }
    if mode = r.rateMode then r
    else { r with filter := [], rateMode := mode, settle := if r.rateMode = .standstill then 2 else 8, rateMw := 0 }

/-- One estimator sample (R423): the power in the mode in force, with SETTLING until the samples waited for exist. -/
def RegState.estimate (cUf mv : Nat) (r : RegState) : RegState :=
  if r.rateMode = .standstill then r
  else
    let filter := (mv :: r.filter).take 8
    let settle := r.settle - 1
    let p := powerMw cUf filter
    let p := match r.rateMode with | .charging => max 0 p | .discharging => min 0 p | .standstill => 0
    { r with filter := filter, settle := settle, rateMw := if settle = 0 then p else 0 }

end Sys2Proof.Machine
end

