-- ==== Sys2Proof/Machine/State/Store.lean ====
section
/-!
DEFINITION. The key-value store: versions, staging extents, pins and what flash holds (chapters 1, 10 and 12).
-/
namespace Sys2Proof.Machine

/-- A present key of a tenant, newest version first. -/
structure KeyRec where
  tenant : Nat
  key : Bytes
  versions : List Version
  deriving DecidableEq, Repr

/-- What a staged extent does to the flash copy of the store when its program completes. -/
inductive Change where
  | put (tenant : Nat) (key : Bytes) (v : Version)
  /-- a segment of a segmented version: the version as it stands with this segment, and whether it was still the key's
  newest when the segment was staged -/
  | segment (tenant : Nat) (key : Bytes) (v : Version) (newest : Bool)
  | delete (tenant : Nat) (key : Bytes)
  /-- R314: keys from `start` to `last` (inclusive; absent: to the range's end) admitted before the timestamp; a TRIM
  takes sector keys alone -/
  | rangeDelete (tenant : Nat) (start : Bytes) (end_ last : Option Bytes) (admitAt : Nat) (sectors : Bool)
  deriving DecidableEq, Repr

/-- A staging extent (R21): its lines, its charge and what it changes. -/
structure Extent where
  id : Nat
  change : Change
  /-- staging-line bytes, a multiple of 64 -/
  bytes : Nat
  /-- its lines in order: runs of bytes of the 16 MiB buffer, each a start and a length -/
  lines : List (Nat × Nat)
  /-- the integrity tag of each line, written when the line was sealed (R21, R431) -/
  tags : List Nat := []
  /-- where its bytes stand in the value: the offset of the first, and their number -/
  off : Nat := 0
  len : Nat := 0
  /-- number and admission timestamp of the version whose bytes precede the extent's own: an APPEND stages its DATA only
  (R21) -/
  base : Option (Nat × Nat) := none
  /-- how many extents of its version stand up to this one: 1, or the segment's number from 1 -/
  part : Nat := 1
  /-- failed programs of its pages so far (R371), and the elapsed time before which it is not retried -/
  failures : Nat := 0
  retryAt : Option Nat := none
  deriving DecidableEq, Repr

/-- The store. -/
structure StoreState where
  /-- the newest admitted state: the hash front over flash and staging -/
  keys : List KeyRec := []
  /-- what flash holds: acknowledged and programmed versions -/
  flash : List KeyRec := []
  /-- staged extents in admission order -/
  staging : List Extent := []
  nextExtent : Nat := 1
  /-- where the search for free staging lines goes on, in bytes of the 16 MiB buffer -/
  nextLine : Nat := 0
  pins : List Pin := []
  flashPins : List Pin := []
  /-- elapsed time of the last write admitted (R366) -/
  lastWriteAt : Nat := 0
  /-- elapsed time at which the next lazy sweep is due (R316) -/
  sweepDue : Nat := 0
  deriving DecidableEq, Repr

end Sys2Proof.Machine
end

