-- ==== Sys2Proof/Machine/State.lean ====
section
/-!
DEFINITION. The whole state of the drive, its reset value, and the reasons a step can stop.
-/
namespace Sys2Proof.Machine

/-- The drive. -/
structure State where
  /-- commands waiting, first in first out -/
  pending : List Instr := []
  /-- the drive state of Table 0-5 -/
  mode : Mode := .off
  /-- elapsed time since the model's beginning, in ns -/
  elapsed : Nat := 0
  /-- the model's own counter: how many open values have been drawn (no rule rests on its value) -/
  draws : Nat := 0
  fused : Fused := {}
  cfg : CfgState := {}
  log : LogState := {}
  admin : AdminState := {}
  net : NetState := {}
  time : TimeState := {}
  ses : SessionState := {}
  store : StoreState := {}
  power : PowerState := { cMeasuredUf := Fused.firstUf {} }
  reg : RegState := {}
  start : StartState := {}
  media : MediaState := .shipped (Fused.part {})
  journal : JournalState := {}
  watch : WatchState := {}
  sec : SecState := {}
  fw : FwState := {}
  /-- START_COUNT -/
  startCount : Nat := 0
  deriving DecidableEq, Repr

/-- Reasons the block stops. -/
inductive Fault where
  /-- raised by INPUT_PROTECTION_TRIP; safe -/
  | damaged
  deriving DecidableEq, Repr

/-- Reasons a command is refused. -/
inductive Refusal where
  /-- raised by exec for a row without a meaning yet; safe -/
  | notModelled (mnemonic : String)
  deriving DecidableEq, Repr

/-- The drive right after reset: Off, nothing applied. -/
def State.reset : State := {}

end Sys2Proof.Machine
end

