-- ==== Sys2Proof/Machine/Store.lean ====
section
/-!
DEFINITION. The key-value store as chapter 12 defines it: key order, expiry, versions, charges, ranges, staged
extents and what their programs do to flash.
-/
namespace Sys2Proof.Machine

/-! ## Keys (R297) -/

/-- Unsigned byte-string order: the first difference decides, a proper prefix orders before. -/
def keyLt : Bytes → Bytes → Bool
  | [], [] => false
  | [], _ :: _ => true
  | _ :: _, [] => false
  | a :: as, b :: bs => if a = b then keyLt as bs else decide (a.toNat < b.toNat)

/-- The key lies at or above the start and below the end; no end means no upper bound (R312). -/
def inRange (start : Bytes) (end_ : Option Bytes) (k : Bytes) : Bool :=
  !keyLt k start && (match end_ with | none => true | some e => keyLt k e)

/-- The end bound of a request's END_KEY: an empty one sets no bound (R312). -/
def endBound (e : Bytes) : Option Bytes := if e.isEmpty then none else some e

/-- A range whose end key is not empty and not above its start key is empty (R312). -/
def rangeEmpty (start : Bytes) (end_ : Option Bytes) : Bool :=
  match end_ with | none => false | some e => !keyLt start e

/-- Sector n's key of 10 bytes (R284). -/
def sectorKey (n : Nat) : Bytes := [0x00#8, 0x4C#8, 0x59#8, 0x31#8] ++ beBytes 6 n

/-- A key of sector form (R285). -/
def isSectorKey (k : Bytes) : Bool := decide (k.length = 10 ∧ k.take 4 = [0x00#8, 0x4C#8, 0x59#8, 0x31#8])

/-! ## Expiry (R316) -/

/-- The largest 64-bit value. -/
def max64 : Nat := 0xFFFFFFFFFFFFFFFF

/-- `expiry_ns` of R316. -/
def expiryNs (admitAt ttl : Nat) : Nat :=
  if ttl = 0 then 0 else min max64 (admitAt + min max64 (ttl * 1000000000))

/-- `hit` of R316. -/
def hit (admitAt expiry : Nat) : Bool := expiry == 0 || decide (admitAt < expiry)

/-! ## Resolution (R299 to R303) -/

/-- The record of a tenant's key. -/
def findKey (ks : List KeyRec) (t : Nat) (k : Bytes) : Option KeyRec :=
  ks.find? fun r => r.tenant = t && r.key = k

/-- The newest version of a key, expired or not. -/
def newest (ks : List KeyRec) (t : Nat) (k : Bytes) : Option Version :=
  (findKey ks t k).bind fun r => r.versions.head?

/-- What a request admitted at a timestamp finds under a key. -/
inductive Found where
  | absent
  | expired (num : Nat)
  | present (v : Version)
  deriving DecidableEq, Repr

/-- Resolution of the newest version at an admission timestamp. -/
def resolve (ks : List KeyRec) (t : Nat) (k : Bytes) (admitAt : Nat) : Found :=
  match newest ks t k with
  | none => .absent
  | some v => if hit admitAt v.expiry then .present v else .expired v.num

/-- The version a GET that names `v` returns (R300): the newest, or one superseded less than 1 s before. -/
def readable (ks : List KeyRec) (t : Nat) (k : Bytes) (v admitAt : Nat) : Option Version :=
  match findKey ks t k with
  | none => none
  | some r =>
    match r.versions with
    | [] => none
    | n :: older =>
      if v = 0 ∨ v = n.num then some n
      else older.find? fun o => o.num = v && (match o.superseded with
        | some at_ => decide (admitAt < at_ + 1000000000)
        | none => false)

/-- VERSION_COND 0xFFFFFFFFFFFFFFFF: the key must be absent (R244). -/
def condAbsent : Nat := max64

/-- The number that the next write of a key takes, or none when the numbers are exhausted (R299). -/
def nextVersion : Found → Option Nat
  | .present v => if v.num = max64 - 1 then none else some (v.num + 1)
  | _ => some 1

/-- Table 12-1 for PUT and APPEND: the version to write, or the version that VERSION_MISMATCH carries. -/
def writeCondition (cond : Nat) (f : Found) : Except Nat Nat :=
  match f with
  | .present v =>
    if cond = 0 ∨ cond = v.num then
      match nextVersion f with
      | some n => .ok n
      | none => .error v.num
    else .error v.num
  | _ => if cond = 0 ∨ cond = condAbsent then .ok 1 else .error 0

/-! ## Changing the newest state -/

/-- How long a superseded version is kept for reads (R300): entries older than 1 s are dropped. -/
def pruneVersions (admitAt : Nat) : List Version → List Version
  | [] => []
  | n :: older => n :: older.filter fun o => match o.superseded with
    | some at_ => decide (admitAt < at_ + 1000000000)
    | none => false

/-- A write's version put in front of a key: the version before it is superseded at the write's admission. An expired
or absent key starts afresh (R299). -/
def putVersion (ks : List KeyRec) (t : Nat) (k : Bytes) (v : Version) : List KeyRec :=
  let old := match findKey ks t k with
    | none => []
    | some r => match r.versions with
      | [] => []
      | n :: rest => if hit v.admitAt n.expiry then { n with superseded := some v.admitAt } :: rest else []
  ⟨t, k, pruneVersions v.admitAt (v :: old)⟩ :: ks.filter fun r => !(r.tenant = t && r.key = k)

/-- One version of a key replaced by a function of it, wherever it stands in the key's list. -/
def modVersion (ks : List KeyRec) (t : Nat) (k : Bytes) (num : Nat) (f : Version → Version) : List KeyRec :=
  ks.map fun r => if r.tenant = t && r.key = k then
    { r with versions := r.versions.map fun v => if v.num = num then f v else v } else r

/-- A key removed with all its versions. -/
def dropKey (ks : List KeyRec) (t : Nat) (k : Bytes) : List KeyRec :=
  ks.filter fun r => !(r.tenant = t && r.key = k)

/-- One version withdrawn, as if it had never been written: the one before it is newest again (R304, R309). -/
def withdrawVersion (ks : List KeyRec) (t : Nat) (k : Bytes) (num : Nat) : List KeyRec :=
  (ks.map fun r => if r.tenant = t && r.key = k then
    { r with versions := match r.versions.filter (fun v => v.num ≠ num) with
      | [] => []
      | n :: rest => { n with superseded := none } :: rest } else r).filter fun r => !r.versions.isEmpty

/-! ## Charges (R317, R318) -/

/-- A key's charge at a timestamp: key length plus the newest version's (declared) length, 0 once expired. -/
def keyCharge (now : Nat) (r : KeyRec) : Nat :=
  match r.versions with
  | [] => 0
  | v :: _ => if hit now v.expiry then r.key.length + v.total else 0

/-- A tenant's charge. -/
def tenantCharge (ks : List KeyRec) (t now : Nat) : Nat :=
  natSum ((ks.filter fun r => r.tenant = t).map (keyCharge now))

/-- The live data of the drive. -/
def liveData (ks : List KeyRec) (now : Nat) : Nat := natSum (ks.map (keyCharge now))

/-- The charge that one key holds. -/
def chargeOf (ks : List KeyRec) (t : Nat) (k : Bytes) (now : Nat) : Nat :=
  match findKey ks t k with
  | none => 0
  | some r => keyCharge now r

/-- Whether a write that takes a key's charge to `new` raises the tenant's charge above its quota (R317). -/
def overQuota (ks : List KeyRec) (t : Nat) (k : Bytes) (now new quotaGb : Nat) : Bool :=
  let old := chargeOf ks t k now
  decide (0 < quotaGb) && decide (old < new) && decide (quotaGb * 1000000000 < tenantCharge ks t now - old + new)

/-- Whether a write that takes a key's charge to `new` raises the live data above the capacity (R318). -/
def overCapacity (ks : List KeyRec) (t : Nat) (k : Bytes) (now new capacity : Nat) : Bool :=
  let old := chargeOf ks t k now
  decide (old < new) && decide (capacity < liveData ks now - old + new)

/-! ## Pins (R258 to R260) -/

/-- A pin's charge: key, value and 64 bytes, rounded up to 64 (R258). -/
def pinCharge (keyLen valueLen : Nat) : Nat := roundUp (keyLen + valueLen + 64) 64

/-- The pin of a key. -/
def findPin (ps : List Pin) (t : Nat) (k : Bytes) : Option Pin := ps.find? fun p => p.tenant = t && p.key = k

/-- A tenant's charge of pin space. -/
def tenantPins (ps : List Pin) (t : Nat) : Nat := natSum ((ps.filter fun p => p.tenant = t).map Pin.charge)

/-- The pin cache of 2 MiB (Table 1-2). -/
def pinCacheBytes : Nat := 2097152

/-- Bytes of the pin cache that all pins take. -/
def pinsTotal (ps : List Pin) : Nat := natSum (ps.map Pin.charge)

/-- A pin ended. -/
def dropPin (ps : List Pin) (t : Nat) (k : Bytes) : List Pin := ps.filter fun p => !(p.tenant = t && p.key = k)

/-- Whether a write that takes a pinned key's charge to `new` is refused for pin space (R258). -/
def pinRefuses (ps : List Pin) (t : Nat) (k : Bytes) (new maxKib : Nat) : Bool :=
  match findPin ps t k with
  | none => false
  | some p => decide (p.charge < new) &&
      (decide (maxKib * 1024 < tenantPins ps t - p.charge + new) ||
       decide (pinCacheBytes < pinsTotal ps - p.charge + new))

/-- A pinned key's charge after a write. -/
def repin (ps : List Pin) (t : Nat) (k : Bytes) (new : Nat) : List Pin :=
  ps.map fun p => if p.tenant = t && p.key = k then { p with charge := new } else p

/-! ## Staging (R21, R80) -/

/-- Staging-line bytes of a span of `n` bytes: 64-byte lines, one line for an empty value (R21, R80). -/
def lineBytes (n : Nat) : Nat := if n = 0 then 64 else roundUp n 64

/-- Bytes of staging lines that hold a charge (R79). -/
def stagedBytes (xs : List Extent) : Nat := natSum (xs.map Extent.bytes)

/-- Bytes of the staging buffer (Table 1-2). -/
def stagingBytes : Nat := 16777216

/-- The lowest start of a run at or above an address, or the end of the buffer. -/
def nextBusy (busy : List (Nat × Nat)) (p : Nat) : Nat :=
  busy.foldl (fun n r => if p ≤ r.1 then min n r.1 else n) stagingBytes

/-- `need` bytes of lines that belong to no extent, from an address on and around the end of the buffer (R21). `fuel` bounds
the runs looked at. -/
def freeLines : Nat → List (Nat × Nat) → Nat → Nat → List (Nat × Nat)
  | 0, _, _, _ => []
  | fuel + 1, busy, p, need =>
    if need = 0 then []
    else match busy.find? fun r => decide (r.1 ≤ p ∧ p < r.1 + r.2) with
      | some r => freeLines fuel busy ((r.1 + r.2) % stagingBytes) need
      | none =>
        let n := min need (nextBusy busy p - p)
        (p, n) :: freeLines fuel busy ((p + n) % stagingBytes) (need - n)

/-- The lines that staged extents hold. -/
def busyLines (xs : List Extent) : List (Nat × Nat) := xs.flatMap Extent.lines

/-- The value bytes that an extent of a change holds. -/
def Change.data (off len : Nat) (c : Change) : Bytes :=
  match c with
  | .put _ _ v => slice off len v.value
  | .segment _ _ v _ => slice off len v.value
  | .delete .. | .rangeDelete .. => []

/-- The value bytes that an extent's lines hold. -/
def Extent.data (x : Extent) : Bytes := x.change.data x.off x.len

/-- The integrity tag of a 64-byte SRAM line at an address (R431). -/
def lineTag (addr : Nat) (line : Bytes) : Nat := crc32c (line ++ (List.range (64 - line.length)).map (fun i => Config.lineFiller (line.length + i)) ++ beBytes 4 addr) % 65536

/-- The addresses of the lines of some runs, in order. -/
def lineAddrs (runs : List (Nat × Nat)) : List Nat := runs.flatMap fun r => (List.range (r.2 / 64)).map fun i => r.1 + 64 * i

/-- The tags of lines that hold bytes one after the other. -/
def sealLines (runs : List (Nat × Nat)) (data : Bytes) : List Nat :=
  let addrs := lineAddrs runs
  (List.range addrs.length).map fun i => lineTag (addrs.getD i 0) (slice (64 * i) 64 data)

/-- An extent staged at the end of the admission order, in new lines (R21), each of them sealed; `off` and `len` say which bytes
of its version it holds. -/
def StoreState.stage (c : Change) (bytes off len : Nat) (base : Option (Nat × Nat)) (part : Nat) (s : StoreState) : StoreState :=
  let busy := busyLines s.staging
  let lines := freeLines (2 * busy.length + 2) busy s.nextLine bytes
  { s with
    staging := s.staging ++ [{ id := s.nextExtent, change := c, bytes := bytes, lines := lines, tags := sealLines lines (c.data off len), off := off, len := len, base := base, part := part }]
    nextExtent := s.nextExtent + 1
    nextLine := match lines.getLast? with
      | some r => (r.1 + r.2) % stagingBytes
      | none => s.nextLine }

/-- Whether an extent holds bytes of the version of a number and an admission timestamp. -/
def Extent.holds (t : Nat) (k : Bytes) (id : Nat × Nat) (x : Extent) : Bool :=
  match x.change with
  | .put t' k' v => decide (t' = t ∧ k' = k ∧ (v.num, v.admitAt) = id)
  | .segment t' k' v _ => decide (t' = t ∧ k' = k ∧ (v.num, v.admitAt) = id)
  | .delete .. | .rangeDelete .. => false

/-- The pin cache holds the named version of a key. -/
def inPinCache (s : StoreState) (t : Nat) (k : Bytes) (num : Nat) : Bool :=
  match findPin s.pins t k with
  | some p => decide (p.loaded = some num)
  | none => false

/-- Bytes `lo` to `hi − 1` lie in spans, each a start and a length. `fuel` bounds the spans used. -/
def spanCovered : Nat → List (Nat × Nat) → Nat → Nat → Bool
  | 0, _, lo, hi => decide (hi ≤ lo)
  | fuel + 1, xs, lo, hi =>
    decide (hi ≤ lo) ||
    (match xs.find? fun x => decide (x.1 ≤ lo ∧ lo < x.1 + x.2) with
     | some x => spanCovered fuel xs (x.1 + x.2) hi
     | none => false)

/-- Where in its value the bytes that a write itself staged begin: behind those of the version it built on. -/
def Extent.dataStart (x : Extent) : Nat := x.off - (x.part - 1) * 65536

/-- Bytes `lo` to `hi − 1` of a version stand in SRAM: in the pin cache, or in staging extents, together with those of the
version an APPEND built on. `fuel` bounds the chain of appends. -/
def coveredBy : Nat → StoreState → Nat → Bytes → Nat × Nat → Nat → Nat → Bool
  | 0, _, _, _, _, _, _ => false
  | fuel + 1, s, t, k, id, lo, hi =>
    inPinCache s t k id.1 ||
    (match s.staging.filter (Extent.holds t k id) with
     | [] => false
     | x :: rest =>
       let d := x.dataStart
       spanCovered (rest.length + 1) ((x :: rest).map fun y => (y.off, y.len)) (max lo d) hi &&
       (match x.base with
        | none => true
        | some b => decide (min hi d ≤ lo) || coveredBy fuel s t k b lo (min hi d)))

/-- The requested bytes of a version, `len` of them from an offset, can be read from SRAM: from the staging buffer, or from the
pin cache (R34, R252, R310). -/
def spanInSram (s : StoreState) (t : Nat) (k : Bytes) (v : Version) (off len : Nat) : Bool :=
  coveredBy (s.staging.length + 1) s t k (v.num, v.admitAt) (min off v.total) (min (off + len) v.total)

/-- A whole version can be read from SRAM. -/
def inSram (s : StoreState) (t : Nat) (k : Bytes) (v : Version) : Bool := spanInSram s t k v 0 v.total

/-! ## Ranges (R313, R314) -/

/-- Insertion of a record in key order. -/
def insertRec (r : KeyRec) : List KeyRec → List KeyRec
  | [] => [r]
  | x :: xs => if keyLt r.key x.key then r :: x :: xs else x :: insertRec r xs

/-- A tenant's keys of a range in ascending key order. -/
def keysInRange (ks : List KeyRec) (t : Nat) (start : Bytes) (end_ : Option Bytes) : List KeyRec :=
  (ks.filter fun r => r.tenant = t && inRange start end_ r.key).foldl (fun acc r => insertRec r acc) []

/-- The keys present for a request admitted at a timestamp. -/
def presentInRange (ks : List KeyRec) (t : Nat) (start : Bytes) (end_ : Option Bytes) (admitAt : Nat) : List (Bytes × Version) :=
  (keysInRange ks t start end_).filterMap fun r => match r.versions with
    | [] => none
    | v :: _ => if hit admitAt v.expiry then some (r.key, v) else none

/-- An entry of a RANGE_READ answer (Table 10-5). -/
def rangeEntry (k : Bytes) (v : Version) : Bytes := beBytes 1 k.length ++ k ++ beBytes 8 v.num ++ beBytes 4 v.total

/-- As many entries as fit in `room` bytes and `most` keys: data, count, and whether keys remain (R313). -/
def packRange : Nat → Nat → List (Bytes × Version) → Bytes × Nat × Bool
  | _, _, [] => ([], 0, false)
  | room, most, (k, v) :: rest =>
    let e := rangeEntry k v
    if most = 0 ∨ room < e.length then ([], 0, true)
    else
      let (b, n, more) := packRange (room - e.length) (most - 1) rest
      (e ++ b, n + 1, more)

/-- The keys a range delete removes, ascending, and the last key examined when KEY_COUNT_MAX stopped it (R314). -/
def rangeVictims (ks : List KeyRec) (t : Nat) (start : Bytes) (end_ : Option Bytes) (admitAt most : Nat) (sectors : Bool) :
    List Bytes × Option Bytes :=
  let vs := ((presentInRange ks t start end_ admitAt).filter fun p =>
    decide (p.2.admitAt < admitAt) && (!sectors || isSectorKey p.1)).map Prod.fst
  if vs.length < most then (vs, none) else (vs.take most, (vs.take most).getLast?)

/-- R314 on a set of records: present keys up to `last` lose every version admitted before the timestamp. -/
def applyRangeDelete (ks : List KeyRec) (t : Nat) (start : Bytes) (end_ last : Option Bytes) (admitAt : Nat) (sectors : Bool) :
    List KeyRec :=
  (ks.map fun r =>
    if r.tenant = t && inRange start end_ r.key && (!sectors || isSectorKey r.key) && (match last with | none => true | some l => !keyLt l r.key) &&
      (match r.versions with | v :: _ => hit admitAt v.expiry | [] => false) then
      { r with versions := r.versions.filter fun v => decide (admitAt ≤ v.admitAt) }
    else r).filter fun r => !r.versions.isEmpty

/-! ## The drain (R33, R259, R304) -/

/-- Flash after an extent's pages are programmed and verified. Flash keeps a key's newest version. -/
def Change.apply (c : Change) (flash : List KeyRec) : List KeyRec :=
  match c with
  | .put t k v => ⟨t, k, [{ v with superseded := none }]⟩ :: dropKey flash t k
  | .segment t k v newest => if newest then ⟨t, k, [{ v with superseded := none }]⟩ :: dropKey flash t k else flash
  | .delete t k => dropKey flash t k
  | .rangeDelete t start end_ last admitAt sectors => applyRangeDelete flash t start end_ last admitAt sectors

/-- The pin cache takes a drained version before its lines are released (R259). -/
def Change.loadPins (c : Change) (ps : List Pin) : List Pin :=
  match c with
  | .put t k v => ps.map fun p => if p.tenant = t && p.key = k then { p with loaded := some v.num } else p
  | .segment t k v newest => if newest then ps.map fun p => if p.tenant = t && p.key = k then { p with loaded := some v.num } else p else ps
  | .delete .. | .rangeDelete .. => ps

/-- The tenant and key that a point change touches. -/
def Change.touches (c : Change) : Option (Nat × Bytes) :=
  match c with
  | .put t k _ => some (t, k)
  | .segment t k .. => some (t, k)
  | .delete t k => some (t, k)
  | .rangeDelete .. => none

/-- Two changes must keep their order: they touch the same key, or one is a range delete of the same tenant. -/
def Change.ordered (a b : Change) : Bool :=
  match a, b with
  | .rangeDelete t .., .rangeDelete t' .. => t = t'
  | .rangeDelete t start end_ .., x => match x.touches with | some (t', k) => t = t' && inRange start end_ k | none => false
  | x, .rangeDelete t start end_ .. => match x.touches with | some (t', k) => t = t' && inRange start end_ k | none => false
  | x, y => decide (x.touches = y.touches)

/-- An extent may be drained when no earlier extent must precede it (R33: admission order per key). -/
def drainable (id : Nat) : List Extent → Bool
  | [] => false
  | x :: xs =>
    if x.id = id then true
    else match xs.find? (fun y => y.id = id) with
      | none => false
      | some y => !x.change.ordered y.change && drainable id xs

/-- One extent drained: flash and the pin cache take it, its lines and charge are released. -/
def StoreState.drain (id : Nat) (s : StoreState) : StoreState :=
  match s.staging.find? fun x => x.id = id with
  | none => s
  | some x => { s with
      flash := x.change.apply s.flash
      pins := x.change.loadPins s.pins
      staging := s.staging.filter fun y => y.id ≠ id }

/-- Every staged extent drained in admission order (R73 step 5, and the drains of orderly stops). -/
def StoreState.drainAll (s : StoreState) : StoreState :=
  { s with
    flash := s.staging.foldl (fun f x => x.change.apply f) s.flash
    pins := s.staging.foldl (fun p x => x.change.loadPins p) s.pins
    staging := [] }

/-- An extent withdrawn: its lines and charge are released and flash never sees it. -/
def StoreState.withdraw (id : Nat) (s : StoreState) : StoreState :=
  { s with staging := s.staging.filter fun y => y.id ≠ id }

/-- An open version ended at what was staged of it (R309, R317). -/
def closeVersion (v : Version) : Version := { v with isOpen := false, total := v.value.length }

/-- A record with every open version ended. -/
def KeyRec.close (r : KeyRec) : KeyRec := { r with versions := r.versions.map closeVersion }

/-- A pin whose key's newest version is among some records takes the charge of its length. -/
def Pin.recharge (ks : List KeyRec) (p : Pin) : Pin :=
  match newest ks p.tenant p.key with
  | some v => { p with charge := pinCharge p.key.length v.total }
  | none => p

/-- Every open version ends at its staged bytes (R309); a pin of one takes the charge of what is left (R310). -/
def StoreState.closeOpen (s : StoreState) : StoreState :=
  let ks := s.keys.map KeyRec.close
  { s with keys := ks, pins := s.pins.map (Pin.recharge ks) }

/-- A version of a key by its number and its admission timestamp. -/
def versionIn (ks : List KeyRec) (t : Nat) (k : Bytes) (num admitAt : Nat) : Option Version :=
  (findKey ks t k).bind fun r => r.versions.find? fun v => v.num = num && v.admitAt = admitAt

/-- What the lazy sweep leaves of a key that has expired: the number and the expiry instant that a GET still reports (R316). -/
def KeyRec.sweep (now : Nat) (r : KeyRec) : KeyRec :=
  match r.versions with
  | v :: _ => if hit now v.expiry then r else { r with versions := [{ v with value := [], crc16 := none, isOpen := false }] }
  | [] => r

/-- Pins of the keys of a range that a request finds expired end (R260, R316). -/
def dropExpiredPins (ks : List KeyRec) (ps : List Pin) (t : Nat) (start : Bytes) (end_ last : Option Bytes) (admitAt : Nat) : List Pin :=
  ps.filter fun p => !(p.tenant = t && inRange start end_ p.key && (match last with | none => true | some l => !keyLt l p.key) &&
    (match resolve ks t p.key admitAt with | .expired _ => true | .absent | .present _ => false))

/-- After a start the newest state is what flash holds (R22); the pin set is reloaded (R258). An open version that Dusk
cut ends at its staged bytes (R309). -/
def StoreState.reload (s : StoreState) : StoreState :=
  let f := s.flash.map KeyRec.close
  { s with
    keys := f, flash := f, staging := []
    pins := s.flashPins.map fun p => { p with loaded := (newest f p.tenant p.key).map Version.num } }

end Sys2Proof.Machine
end

