-- ==== Sys2Proof/Machine/Ops.lean ====
section
/-!
DEFINITION. Operations shared by the commands: time, open values, counters, events and latched faults, and small
updates of one part of the state.
-/
namespace Sys2Proof.Machine

/-! ## One part of the state at a time -/

/-- The network part changed. -/
def State.modNet (f : NetState → NetState) (s : State) : State := { s with net := f s.net }
/-- The time base changed. -/
def State.modTime (f : TimeState → TimeState) (s : State) : State := { s with time := f s.time }
/-- The session part changed. -/
def State.modSes (f : SessionState → SessionState) (s : State) : State := { s with ses := f s.ses }
/-- The store changed. -/
def State.modStore (f : StoreState → StoreState) (s : State) : State := { s with store := f s.store }
/-- Supply and bank changed. -/
def State.modPower (f : PowerState → PowerState) (s : State) : State := { s with power := f s.power }
/-- The regulator array changed. -/
def State.modReg (f : RegState → RegState) (s : State) : State := { s with reg := f s.reg }
/-- The administrative figures changed. -/
def State.modAdmin (f : AdminState → AdminState) (s : State) : State := { s with admin := f s.admin }
/-- The logs changed. -/
def State.modLog (f : LogState → LogState) (s : State) : State := { s with log := f s.log }
/-- The configuration changed. -/
def State.modCfg (f : CfgState → CfgState) (s : State) : State := { s with cfg := f s.cfg }
/-- The watchdog and scan engine changed. -/
def State.modWatch (f : WatchState → WatchState) (s : State) : State := { s with watch := f s.watch }
/-- The firmware part changed. -/
def State.modFw (f : FwState → FwState) (s : State) : State := { s with fw := f s.fw }
/-- The drive state changed. -/
def State.setMode (m : Mode) (s : State) : State := { s with mode := m }
/-- One more start (Table 4-6). -/
def State.countStart (s : State) : State := { s with startCount := inc32 s.startCount }
/-- One line port changed. -/
def State.modPort (q : Port) (f : PortState → PortState) (s : State) : State :=
  s.modNet fun n => { n with port := n.port.modify q f }
/-- A state changed where a condition holds. -/
def State.when (c : Bool) (f : State → State) (s : State) : State := if c then f s else s
/-- A line port. -/
def State.portOf (s : State) (q : Port) : PortState := s.net.port.get q

/-! ## Time (R178 to R180) -/

/-- The drive's time in ns at an elapsed time. -/
def TimeState.at (t : TimeState) (elapsed : Nat) : Nat :=
  if t.running then t.anchorNs + ((elapsed - t.anchorAt : Nat) * (1000000000 + t.ratePpb) / 1000000000).toNat else t.anchorNs

/-- The drive's time in ns at an instant that may lie before its last set, step or change of rate (R180). -/
def TimeState.stampAt (t : TimeState) (elapsed : Nat) : Nat :=
  if t.running then ((t.anchorNs : Int) + ((elapsed : Int) - t.anchorAt) * (1000000000 + t.ratePpb) / 1000000000).toNat else t.anchorNs

/-- The drive's time now, in ns. -/
def State.timeNs (s : State) : Nat := s.time.at s.elapsed

/-- A count of nanoseconds as seconds and nanoseconds. -/
def Time.ofNs (n : Nat) : Time := ⟨n / 1000000000, n % 1000000000⟩

/-- A time as a count of nanoseconds. -/
def Time.toNs (t : Time) : Nat := t.s * 1000000000 + t.ns

/-- The later of two times. -/
def Time.later (a b : Time) : Time := if a.toNs < b.toNs then b else a

/-- The drive's time now. -/
def State.timeNow (s : State) : Time := Time.ofNs s.timeNs

/-- The time set or stepped to a value, counting on from now (R178, R179). -/
def State.setTime (ns : Nat) (s : State) : State :=
  s.modTime fun t => { t with anchorNs := ns, anchorAt := s.elapsed }

/-- The rate changed from now on, the time itself unchanged (R179). -/
def State.setRate (ppb : Int) (s : State) : State :=
  s.modTime fun t => { t with anchorNs := t.at s.elapsed, anchorAt := s.elapsed, ratePpb := clampInt (-500000) 500000 ppb }

/-- Time passes up to an instant, if it has not come yet. -/
def State.waitUntil (at_ : Nat) (s : State) : State := { s with elapsed := max s.elapsed at_ }

/-- Milliseconds in ns. -/
def ms (n : Nat) : Nat := n * 1000000

/-- Seconds in ns. -/
def secs (n : Nat) : Nat := n * 1000000000

/-- Whether an instant lies within the last `span` ns. -/
def State.within (span : Nat) (at_ : Nat) (s : State) : Bool := decide (s.elapsed < at_ + span)

/-- A rate-limited happening: it is due when the last one lies at least `span` back (R266, Table 7-3 row 7). -/
def State.dueAgain (span : Nat) (last : Option Nat) (s : State) : Bool :=
  match last with
  | none => true
  | some t => decide (t + span ≤ s.elapsed)

/-- The admission timestamp of a message whose last frame was stamped `stamp`; they never decrease (R180). -/
def State.admission (stamp : Nat) (s : State) : Nat := max stamp s.time.admitFloor

/-- An admission made: later ones are not earlier than it. -/
def State.noteAdmission (admitAt : Nat) (s : State) : State :=
  s.modTime fun t => { t with admitFloor := max t.admitFloor admitAt }

/-! ## Open values -/

/-- The next open value is drawn. -/
def State.draw (s : State) : Nat × State := (s.draws, { s with draws := s.draws + 1 })

/-! ## Counters (R18, R176) -/

/-- One more on a port counter. -/
def State.bump (q : Port) (k : PortCounter) (s : State) : State :=
  s.modNet fun n => { n with counters := n.counters.bumpPort q k }

/-- `n` more on a device counter. -/
def State.count (k : DevCounter) (n : Nat) (s : State) : State :=
  s.modNet fun x => { x with counters := x.counters.addDev k n }

/-! ## Events (R331 to R333, R345) -/

/-- The location an error-history entry of an event names (Table 13-6). -/
def EventCode.location (ev : EventCode) (a b : Nat) : Nat :=
  match ev with
  | .readUncorrectable | .programFailed | .linePoisoned => a
  | .checkMismatch => b
  | _ => 0

/-- An event logged at a given time, state and synchronisation, with the request it concerns: the event log, the error history
for severity 3, and the latched-fault bit. -/
def LogState.add (time : Time) (state : Nat) (synced : Bool) (startCount : Nat) (r : Option RequestRef) (ev : EventCode)
    (a b c : Nat) (l : LogState) : LogState :=
  let entry : LogEntry := ⟨time, ev.code, l.eventSeq, ev.severity, state, synced, a, b, c⟩
  let errs := if ev.severity = 3 then
    ((⟨time, ev.code, startCount, r, ev.location a b⟩ : ErrorEntry) :: l.errors).take 256 else l.errors
  { l with
    events := (entry :: l.events).take 1024
    errors := errs
    eventSeq := inc32 l.eventSeq
    latched := match ev.latch a with
      | none => l.latched
      | some k => l.latched ||| BitVec.ofNat 32 (2 ^ k) }

/-- An event that arises where it cannot be logged, kept for the next start as it is now (R333). -/
def State.deferEvent (ev : EventCode) (a b c : Nat) (s : State) : State :=
  s.modLog fun l => { l with deferred := l.deferred ++ [⟨ev, a, b, c, s.timeNow, s.mode.code, s.time.synced, s.startCount⟩] }

/-- An event of Table 13-16 logged now, with the request it concerns; in Rescue it waits for the next start (R333). -/
def State.eventFor (r : Option RequestRef) (ev : EventCode) (a b c : Nat) (s : State) : State :=
  if s.mode = .rescue then s.deferEvent ev a b c
  else s.modLog (LogState.add s.timeNow s.mode.code s.time.synced s.startCount r ev a b c)

/-- An event that no request is involved in. -/
def State.event (ev : EventCode) (a b c : Nat) (s : State) : State := s.eventFor none ev a b c

/-- An event logged with the time, the state and the synchronisation of its own instant, as that of a Dusk record is (R73). -/
def State.eventAt (t : Time) (m : Mode) (synced : Bool) (ev : EventCode) (a b c : Nat) (s : State) : State :=
  s.modLog (LogState.add t m.code synced s.startCount none ev a b c)

/-- A condition bit cleared when its condition ends (R331). -/
def State.unlatch (k : Nat) (s : State) : State :=
  s.modLog fun l => { l with latched := l.latched &&& ~~~ BitVec.ofNat 32 (2 ^ k) }

/-- The error-history entry of an answer with MEDIA_ERROR, INTEGRITY 0x02 or INTERNAL (R332). -/
def State.errorAnswer (r : RequestRef) (location : Nat) (s : State) : State :=
  let e : ErrorEntry := ⟨s.timeNow, 0, s.startCount, some r, location⟩
  s.modLog fun l => { l with errors := (e :: l.errors).take 256 }

/-- A deferred event logged as it was kept. -/
def LogState.addDeferred (l : LogState) (e : DeferredEvent) : LogState :=
  l.add e.time e.state e.synced e.startCount none e.ev e.a e.b e.c

/-- The deferred events logged, in their order. -/
def State.logDeferred (s : State) : State :=
  s.modLog fun l => { l.deferred.foldl LogState.addDeferred l with deferred := [] }

/-- The pages 0x02 and 0x04 written to flash (R333). -/
def LogState.persist (l : LogState) : LogState :=
  { l with flashEvents := l.events, flashErrors := l.errors, flashSeq := l.eventSeq }

/-! ## Drive states -/

/-- A serving level of R101: Ready-Read, Ready, Overcast or Sealed. -/
def Mode.serving : Mode → Bool
  | .readyRead | .ready | .overcast | .sealed => true
  | _ => false

/-- The state that decides what is served: in Brace, the state Brace was entered from (R10, R69). -/
def State.servingMode (s : State) : Mode :=
  match s.mode, s.power.brace with
  | .brace, some b => b.entered
  | m, _ => m

/-- Powered time over life, in ns. -/
def State.powered (s : State) : Nat :=
  s.power.poweredNs + (match s.power.onAt with | some t => s.elapsed - t | none => 0)

/-- The bin of Table 13-10 that a temperature falls into. -/
def binOf (t : Int) : Nat := min 15 ((t + 400) / 100).toNat

/-- Powered time spent in each bin up to now: since the last count the junction stood as it was last read (R336). -/
def State.binsNow (s : State) : List Nat := modifyAt (binOf s.power.junction) (· + (s.powered - s.admin.binAt)) s.admin.binNs

/-- A junction reading noted: the time in the bins, the extremes of the start and those of the unit's life (R330, R336). -/
def State.noteJunction (j : Int) (s : State) : State :=
  (s.modAdmin fun a => { a with
    binNs := s.binsNow, binAt := s.powered, tMinLife := min a.tMinLife j, tMaxLife := max a.tMaxLife j }).modPower fun p =>
    { p with junction := j, junctionMax := max p.junctionMax j }

/-- The time that the scrub interval counts, in ns: every state but Off and Dusk (R363). -/
def State.scrubTime (s : State) : Nat :=
  s.powered - s.power.duskNs - (match s.power.dusk with | some d => s.elapsed - d.at_ | none => 0)

/-- The configuration of a tenant. -/
def State.tenant (s : State) (t : Nat) : TenantCfg := s.cfg.inUse.tenant t

/-- The endpoint MAC address in use (R121). -/
def State.macInUse (s : State) : Mac :=
  let base := s.cfg.inUse.identity.macBase
  if base = 0 ∨ s.mode = .rescue then s.fused.macEndpoint else BitVec.ofNat 48 (base + s.cfg.report.slot)

/-- The IPv4 address in use, 0 while IPv4 is off (R269, R282). -/
def State.ip4 (s : State) : Nat :=
  let base := s.cfg.inUse.protocol.v4AddrBase
  if base = 0 ∨ s.mode = .rescue then 0 else base + s.cfg.report.slot

/-- The modified EUI-64 identifier of a MAC address (R142, RFC 4291). -/
def eui64 (m : Mac) : Nat :=
  let hi := m.toNat / 2 ^ 24
  let lo := m.toNat % 2 ^ 24
  (hi * 2 ^ 40 + 0xFFFE * 2 ^ 24 + lo) ^^^ (2 ^ 57)

/-- The IPv6 interface identifier in use (R142). -/
def State.iid6 (s : State) : Nat :=
  let base := s.cfg.inUse.protocol.v6IidBase
  if base = 0 ∨ s.mode = .rescue then eui64 s.macInUse else (base + s.cfg.report.slot) % 2 ^ 64

/-- The IPv6 addresses the drive holds (R269): link-local, and global when a prefix is set. -/
def State.ip6s (s : State) : List Nat :=
  let iid := s.iid6
  let p := s.cfg.inUse.protocol.v6Prefix
  (0xFE80 * 2 ^ 112 + iid) :: (if p = 0 ∨ s.mode = .rescue then [] else [p * 2 ^ 64 + iid])

/-! ## The ledger and windbreak (R78 to R82, R416 to R418) -/

/-- The bank class that admission sees: failed while CH1 is stopped by R422. -/
def State.bankClass (s : State) : BankClass := if s.power.ch1Failed then .failed else s.power.bankClass

/-- The staging limit in bytes (R82, R85). -/
def State.stagingLimit (s : State) : Nat :=
  if s.bankClass = .failed then 0 else stagingLimitMib s.power.cLedUf * mib

/-- CH1 charges: its output is above 0 W and the hardware limit does not hold the charger off (R85, R423). -/
def State.charging (s : State) : Bool := s.reg.ch1.running && decide (0 < s.reg.ch1.output) && !s.reg.overcharge

/-- Bytes of staging lines holding a charge. -/
def State.staged (s : State) : Nat := stagedBytes s.store.staging

/-- `avail_uj` now. -/
def State.avail (s : State) : Nat := availUj s.power.vMv s.power.cLedUf

/-- What windbreak says to a write (R417). -/
inductive Judgement where
  | granted
  | bracing (reason : Nat)
  /-- THROTTLED with its reason and RETRY_AFTER_US -/
  | throttled (reason retry : Nat)
  deriving DecidableEq, Repr

/-- How windbreak charges a write (R319, R417): its bytes, and the bucket it draws on. -/
structure Charge where
  len : Nat
  /-- PUT, APPEND and WRITE_SECTORS draw on the write bucket; deletes draw 64 bytes on the delete bucket -/
  write : Bool
  /-- the admission would raise the live data above the user capacity (R318) -/
  overCapacity : Bool
  deriving DecidableEq, Repr

/-- R417 steps 1 to 4: the judgement, without its effect. -/
def State.judge (c : Charge) (s : State) : Judgement :=
  let r := s.reg.settleBuckets s.elapsed
  if s.power.thermalRefuse then .bracing 3
  else if s.mode = .brace then .bracing ((s.power.brace.map fun b => b.cause.reason).getD 1)
  else if c.overCapacity then .throttled 4 100000
  else if !ledgerAdmit s.staged c.len s.stagingLimit s.power.vMv s.power.cLedUf then
    .throttled 1 (min 100000 (Config.retryAfter s.draws))
  else
    let (rate, b) := if c.write then (r.writeRate, r.writeBucket) else (r.deleteRate, r.deleteBucket)
    let need := if c.write then c.len else 64
    if b.units < need * 4294967296 then .throttled rate.1 (retryUs rate.2 b.units need) else .granted

/-- R417 step 5: what an admitted write takes from its bucket. The ledger's charge is the staged extent itself. -/
def State.takeBucket (c : Charge) (s : State) : State :=
  let r := s.reg.settleBuckets s.elapsed
  let need := (if c.write then c.len else 64) * 4294967296
  { s with reg := if c.write
      then { r with writeBucket := { r.writeBucket with units := r.writeBucket.units - need } }
      else { r with deleteBucket := { r.deleteBucket with units := r.deleteBucket.units - need } } }

end Sys2Proof.Machine
end

