-- ==== Sys2Proof/Machine/Keys.lean ====
section
/-!
DEFINITION. Keys as chapter 18 derives them: the device key, the site key, credentials and session keys (R218, R448,
R450, R452, R454, R532).
-/
namespace Sys2Proof.Machine

/-- The security block changed. -/
def State.modSec (f : SecState → SecState) (s : State) : State := { s with sec := f s.sec }

/-- A label in ASCII, without a terminator. -/
def ascii (x : String) : Bytes := x.toList.map fun c => byte c.toNat

/-- SHA-256 over the counter 0x00000001 and what follows it. -/
def kdf (x : Bytes) : Bytes := sha256 (beBytes 4 1 ++ x)

/-- Candidate `i` for DEV_PRIV (R532). -/
def devCandidate (ds : Bytes) (i : Nat) : Nat := beNat (kdf (ds ++ ascii "EKC-DEVKEY" ++ beBytes 4 i))

/-- The first of `n` candidates from number `i` on that is at or below n − 2 of FIPS 186-4; 0 where none is. -/
def devSearch (ds : Bytes) : Nat → Nat → Nat
  | 0, _ => 0
  | n + 1, i =>
    let c := devCandidate ds i
    if c ≤ p256Order - 2 then c else devSearch ds n (i + 1)

/-- DEV_PRIV (R532): the first candidate at or below n − 2, plus 1. The search is bounded at 4,096 candidates. -/
def Fused.devPriv (f : Fused) : Bytes := beBytes 32 (devSearch f.deviceSecret 4096 1 + 1)

/-- The factory credential TK_F. -/
def Fused.tkFactory (f : Fused) : Bytes := kdf (f.deviceSecret ++ ascii "LYK-FACTORY" ++ beBytes 8 f.unitId)

/-- The derived credential of a tenant (R452). -/
def derivedTk (sk : Bytes) (logicalId t version : Nat) : Bytes :=
  kdf (sk ++ ascii "LYK-TENANT" ++ beBytes 8 logicalId ++ beBytes 1 t ++ beBytes 4 version)

/-- The credential in use for a tenant with its CREDENTIAL_VERSION (R452, R453): the installed one, the derived one, or
for tenant 0 the factory one, whose version the manual does not give (0, DESIGN CHOICE). -/
def State.credential (t : Nat) (s : State) : Option (Bytes × Nat) :=
  if s.mode = .rescue then (if t = 0 then some (s.fused.tkFactory, 0) else none)
  else if s.start.scanReleased ∧ t = 0 then some (s.fused.tkFactory, 0)
  else match s.sec.installed.getD t none with
    | some c => some c
    | none => match s.sec.site with
      | some (sk, v) => some (derivedTk sk s.cfg.report.logicalId t v, v)
      | none => if t = 0 then some (s.fused.tkFactory, 0) else none

/-- The site key of a WRAPPED_KEY record (R450); none when the record is rejected. -/
def Fused.openSite (f : Fused) (w : WrappedKey) : Option Bytes :=
  if !p256Valid w.ephPub then none
  else
    let z := ecdhX f.devPriv w.ephPub
    let head := beBytes 8 w.unitId ++ beBytes 4 w.keyVersion
    let kw := kdf (z ++ ascii "EKW-SITE" ++ head)
    match gcmOpen kw w.nonce (head ++ w.ephPub) w.wrapped w.tag with
    | none => none
    | some sk => if 1 ≤ w.keyVersion ∧ w.keyVersion ≤ 0x7FFFFFFF then some sk else none

/-- K_cfg (Table 18-1). -/
def configKey (sk : Bytes) : Bytes := kdf (sk ++ ascii "EKC-CFG")

/-- The key-encryption key: KBK and the site key, 32 bytes of 0 while none is held; none once KBK is zeroized (Table 18-1). -/
def State.kek (s : State) : Option Bytes :=
  s.sec.kbk.map fun kbk => kdf (kbk ++ ((s.sec.site.map Prod.fst).getD (zeros 32)) ++ ascii "EKC-KEK")

/-- A key as flash holds it: its IV, its ciphertext and its tag. -/
def wrapKey (key : Bytes) (place : Nat) (b : Bytes) : Bytes := Config.wrapIv place b ++ gcmSeal key (Config.wrapIv place b) [] b

/-- The wrapped keys of Table 18-1 in flash: the site key under KBK; MK, the DK_t and the installed credentials under the KEK.
Nothing is held without KBK. -/
def State.wrappedKeys (s : State) : List (Option Bytes) :=
  match s.sec.kbk, s.kek with
  | some kbk, some kek =>
    let keys := s.sec.mapKey :: s.sec.dk ++ s.sec.installed.map (·.map Prod.fst)
    (s.sec.site.map fun k => wrapKey kbk 0 k.1) :: keys.zipIdx.map fun k => k.1.map (wrapKey kek (k.2 + 1))
  | _, _ => List.replicate 18 none

/-- SEC_AUTH_TAG of a SECURITY payload verifies under a site key (R454). -/
def securityTagOk (sk : Bytes) (generation : Nat) (payload : Bytes) : Bool :=
  decide (slice 4 16 payload =
    gmac (configKey sk) (beBytes 4 0x53454331 ++ beBytes 4 generation ++ beBytes 4 0) (payload.take 4))

/-- The session keys and salts of R218: K_h2d, K_d2h, SALT_h2d, SALT_d2h. -/
def sessionKeys (z tk h : Bytes) : Bytes × Bytes × Bytes × Bytes :=
  let s := kdf (z ++ tk ++ ascii "LYK-SALT" ++ h)
  (kdf (z ++ tk ++ ascii "LYK-H2D" ++ h), kdf (z ++ tk ++ ascii "LYK-D2H" ++ h), slice 0 4 s, slice 4 4 s)

/-- The key that encrypts a credential on its way in (R464). -/
def credentialKey (kH2d : Bytes) : Bytes := kdf (kH2d ++ ascii "LYK-CRED")

/-- `n` random bytes of the security block. -/
def State.random (n : Nat) (s : State) : Bytes × State :=
  let (d, s) := s.draw
  ((List.range n).map (Config.randomByte d), s)

end Sys2Proof.Machine
end

