-- ==== Sys2Proof/Machine/Operands.lean ====
section
/-!
DEFINITION. Operand forms: the common header of Table 9-2, the request bodies of Tables 9-4, 10-2 and 11-4, the
answer prefix of Table 10-4 and the LY1 image of Table 11-6, with their tag and check.
-/
namespace Sys2Proof.Machine

/-! ## The common header (R206 to R210) -/

/-- Table 9-2 as read from a frame. -/
structure Header where
  kind : Nat
  gen : Nat
  hdrFormat : Nat
  length : Nat
  tenant : Nat
  final : Bool
  session : Nat
  seq : Nat
  alive : Nat
  frameIndex : Nat
  msgId : Nat
  opcode : Nat
  bodyTotal : Nat
  deriving DecidableEq, Repr

/-- The header fields of a message frame. -/
def parseHeader (b : Bytes) : Header :=
  { kind := fieldAt 0 1 b, gen := fieldAt 1 1 b / 16, hdrFormat := fieldAt 1 1 b % 16, length := fieldAt 2 2 b
    tenant := fieldAt 4 1 b % 8, final := bit (fieldAt 5 1 b) 0, session := fieldAt 6 2 b, seq := fieldAt 8 8 b
    alive := fieldAt 16 2 b, frameIndex := fieldAt 18 2 b, msgId := fieldAt 20 4 b, opcode := fieldAt 24 1 b
    bodyTotal := fieldAt 28 4 b }

/-- The body of a message frame: between the header and the tag. -/
def frameBody (b : Bytes) : Bytes := slice 32 (b.length - 52) b

/-- MSG_CHECK (R209): CRC-32C from offset 0 to the last byte of MSG_TAG with SEQ and ALIVE folded in. -/
def msgCheck (seq alive : Nat) (b : Bytes) : Nat := crc32c (b ++ beBytes 8 seq ++ beBytes 2 alive)

/-- Whether a received frame's MSG_CHECK matches. -/
def checkOk (b : Bytes) : Bool :=
  let h := parseHeader b
  decide (fieldAt (b.length - 4) 4 b = msgCheck h.seq h.alive (b.take (b.length - 4)))

/-- MSG_TAG (R208): GMAC over everything before it, with the direction's salt and SEQ as IV. -/
def msgTag (key salt : Bytes) (seq : Nat) (b : Bytes) : Bytes := gmac key (salt ++ beBytes 8 seq) b

/-- Whether a received frame's MSG_TAG verifies under a key and salt. -/
def tagOk (key salt : Bytes) (b : Bytes) : Bool :=
  decide (slice (b.length - 20) 16 b = msgTag key salt (parseHeader b).seq (b.take (b.length - 20)))

/-- The largest message frame of a transport (R207): LY1 and LY3, LY2 over IPv4, LY2 over IPv6. -/
def frameLimit (gen : Nat) (peer : Peer) : Nat :=
  if gen = 2 then (match peer.ip with | some (true, _) => 1452 | _ => 1472) else 1500

/-- R210 on a received frame: format, transport and length. -/
def frameWellFormed (ly2 : Bool) (peer : Peer) (b : Bytes) : Bool :=
  let h := parseHeader b
  decide (32 ≤ b.length ∧ h.hdrFormat = 1 ∧ (if ly2 then h.gen = 2 else h.gen = 1 ∨ h.gen = 3) ∧
    52 ≤ h.length ∧ h.length ≤ frameLimit h.gen peer ∧ h.length = b.length)

/-! ## Request bodies -/

/-- Table 10-2, the prefix and the keys of a request. -/
structure ReqBody where
  keyLen : Nat
  param16 : Nat
  versionCond : Nat
  a : Nat
  b : Nat
  key : Bytes
  endKey : Bytes
  data : Bytes
  /-- the body holds its prefix and keys -/
  whole : Bool
  deriving DecidableEq, Repr

/-- The body of an LY2 or LY3 request; `range` says that END_KEY follows the key. -/
def parseBody (range : Bool) (b : Bytes) : ReqBody :=
  let k := fieldAt 0 1 b
  let p := fieldAt 2 2 b
  let e := if range then p else 0
  { keyLen := k, param16 := p, versionCond := fieldAt 4 8 b, a := fieldAt 12 4 b, b := fieldAt 16 4 b
    key := slice 20 k b, endKey := slice (20 + k) e b, data := b.drop (20 + k + e)
    whole := decide (20 + k + e ≤ b.length) }

/-- Table 11-4, the LY1 register block. -/
structure Ly1Body where
  set : Nat
  lba : Nat
  count : Nat
  data : Bytes
  deriving DecidableEq, Repr

/-- The body of an LY1 request; TR_SET reads as 0xFF when the body is empty (Table 11-6). -/
def parseLy1 (b : Bytes) : Ly1Body :=
  { set := if b.isEmpty then 0xFF else fieldAt 0 1 b, lba := fieldAt 4 6 b, count := fieldAt 10 2 b, data := b.drop 16 }

/-! ## The wake frame -/

/-- WAKE_CHECK and the fields of a wake frame (R238): its format, this unit, and its check. -/
def State.wakeFrameOk (b : Bytes) (s : State) : Bool :=
  decide (32 ≤ b.length) && decide (fieldAt 0 1 b = 0xDC ∧ fieldAt 1 1 b = 1 ∧ fieldAt 2 2 b = 32) && decide (fieldAt 8 8 b = s.fused.unitId) &&
  decide (fieldAt 28 4 b = crc32c (b.take 28 ++ zeros 10))

/-! ## Bodies of answers -/

/-- The 32-byte answer prefix of Table 10-4 with its data. -/
def AnswerBody.encode (priorLate : Bool) (x : AnswerBody) : Bytes :=
  let t := Time.ofNs x.admitAt
  beBytes 1 1 ++ beBytes 1 (bitOf priorLate + 2 * bitOf x.pinned + 4 * bitOf x.more + 8 * bitOf x.segmented) ++
  beBytes 2 x.ready ++ beBytes 4 x.token ++ beBytes 8 x.version ++ beBytes 6 t.s ++ zeros 2 ++ beBytes 4 t.ns ++
  beBytes 4 x.result ++ x.data

/-- The 16-byte LY1 image of Table 11-6. -/
def Ly1Image.encode (x : Ly1Image) : Bytes :=
  beBytes 1 x.set ++ beBytes 1 x.flags ++ beBytes 1 x.error ++ beBytes 1 x.driveState ++ beBytes 6 x.lba ++
  beBytes 2 x.count ++ beBytes 4 x.cmdMsgId

/-- Table 11-8: flags and TR_ERROR of a status. `range` marks check 3 of R289. -/
def ly1Map (status reason : Nat) (range : Bool) : Nat × Nat :=
  match status with
  | 0x00 => (0x00, 0x00)
  | 0x13 => (0x01, if range then 0x02 else 0x01)
  | 0x12 => (0x01, if reason = 3 then 0x05 else 0x01)
  | 0x41 => (0x01, 0x03)
  | 0x21 => (0x03, 0x10)
  | 0x22 => (0x03, 0x11)
  | 0x31 => (0x03, 0x12)
  | 0x32 => (0x03, 0x13)
  | 0x30 => (0x05, 0x20)
  | 0x42 => (0x05, 0x21)
  | 0x50 => if reason = 2 then (0x21, 0x31) else (0x01, 0x30)
  | 0x51 => (0x01, 0x32)
  | 0x60 => (0x01, 0x40)
  | _ => (0x21, 0x7F)

/-! ## Drive frames -/

/-- Body bytes of a message whose content stands. -/
def LyMsg.bodyBytes (m : LyMsg) : Bytes :=
  match m.body with
  | .answer x => x.encode m.priorLate
  | .raw b => b
  | .admin .. => []

/-- Body bytes that one frame of a message carries (R207, R275). -/
def bodyLimit (gen : Nat) (peer : Peer) : Nat := frameLimit gen peer - 52

/-- How many frames a body of `n` bytes takes. -/
def frameCount (limit n : Nat) : Nat := max 1 ((n + limit - 1) / limit)

/-- Frame `k` of a drive message, header to check (R207 to R209, R226, R230). -/
def LyMsg.encodeFrame (limit k : Nat) (m : LyMsg) : Bytes :=
  let body := m.bodyBytes
  let part := slice (k * limit) limit body
  let final := decide (k + 1 = frameCount limit body.length)
  let seq := m.seq + k
  let head :=
    beBytes 1 m.kind ++ beBytes 1 (m.gen * 16 + 1) ++ beBytes 2 (52 + part.length) ++ beBytes 1 m.tenant ++
    beBytes 1 (bitOf final + 2 * bitOf m.risk + 4 * bitOf m.aliveGap) ++ beBytes 2 m.session ++ beBytes 8 seq ++
    beBytes 2 m.alive ++ beBytes 2 k ++ beBytes 4 m.msgId ++ beBytes 1 m.opcode ++ beBytes 1 m.status ++
    beBytes 1 m.reason ++ zeros 1 ++ beBytes 4 body.length
  let aad := head ++ part
  let tag := match m.key with
    | some (key, salt) => msgTag key salt seq aad
    | none => zeros 16
  aad ++ tag ++ beBytes 4 (msgCheck seq m.alive (aad ++ tag))

/-- Bytes of a frame on the line, destination to FCS, for a payload of `n` bytes (R155, R159). -/
def wireLength (tagged : Bool) (n : Nat) : Nat := max 64 ((if tagged then 18 else 14) + n + 4)

/-- Bytes that IP and UDP headers take in front of a datagram's payload. -/
def ipOverhead (p : Peer) : Nat :=
  match p.ip with
  | none => 0
  | some (true, _) => 48
  | some (false, _) => 28

/-- Length on the line of frame `k` of an endpoint entry. -/
def EpEntry.lengthAt (k : Nat) (e : EpEntry) : Nat :=
  match e.load with
  | .raw b => wireLength e.tag.isSome b.length
  | .dawn .. => wireLength e.tag.isSome 64
  | .ly m =>
    let limit := bodyLimit m.gen e.dst
    wireLength e.tag.isSome (ipOverhead e.dst + 52 + min limit (m.bodyBytes.length - k * limit))

/-- Length on the line of the next frame of an endpoint entry. -/
def EpEntry.length (e : EpEntry) : Nat := e.lengthAt e.next

/-- Frames of an entry that have not left. -/
def EpEntry.left (e : EpEntry) : Nat :=
  match e.load with
  | .raw _ | .dawn .. => 1
  | .ly m => frameCount (bodyLimit m.gen e.dst) m.bodyBytes.length - e.next

/-! ## The endpoint queue of a port (R173) -/

/-- Bytes of the queue that an entry's frames take. -/
def EpEntry.queuedBytes (e : EpEntry) : Nat := natSum ((List.range e.queued.length).map fun k => e.lengthAt (e.next + k))

/-- Frames of an entry queued now while they fit in the room left; the room after them, and whether all of them are in.
`fuel` bounds the frames. -/
def EpEntry.enter (now : Nat) : Nat → Nat → EpEntry → EpEntry × Nat × Bool
  | 0, room, e => (e, room, true)
  | fuel + 1, room, e =>
    let n := e.lengthAt (e.next + e.queued.length)
    if e.left ≤ e.queued.length then (e, room, true)
    else if room < n then (e, room, false)
    else EpEntry.enter now fuel (room - n) { e with queued := e.queued ++ [now] }

/-- The entries in their order, each with the frames that enter the room left; behind a frame that does not fit, none does. -/
def enterQueue (now : Nat) : Nat → List EpEntry → List EpEntry
  | _, [] => []
  | room, e :: rest =>
    let x := e.enter now e.left room
    if x.2.2 then x.1 :: enterQueue now x.2.1 rest else x.1 :: rest

/-- R173: the endpoint frames of a port that wait for room enter its 32 KiB, oldest first. A frame that finds no room waits in
the protocol engine (notes/assumptions/10.md). -/
def PortState.fillEp (now : Nat) (p : PortState) : PortState :=
  { p with epQ := enterQueue now (32768 - natSum (p.epQ.map EpEntry.queuedBytes)) p.epQ }

/-! ## Queues -/

/-- The tag of an answer to a frame (R163), with `LY3_REPLY_PCP` for an LY3 reply. -/
def answerTag (ly3 : Bool) (pcp : Nat) : RxTag → Option TxTag
  | .vlan v p => some ⟨v, if ly3 then pcp else p⟩
  | .priority p => some ⟨0, if ly3 then pcp else p⟩
  | .untagged => none

/-- The class of an answer: its PCP, or for an untagged one `LY3_REPLY_PCP` or 0 (R163). -/
def answerClass (ly3 : Bool) (pcp : Nat) (t : Option TxTag) : Nat :=
  match t with
  | some x => x.pcp
  | none => if ly3 then pcp else 0

/-- Whether a class travels by the express MAC of a port (R201). -/
def State.expressClass (q : Port) (cls : Nat) (s : State) : Bool := bit (s.cfg.inUse.port.get q).expressTc cls

/-- The destination of an LY2 answer: an off-link IPv4 peer is reached by the port's gateway (R270). -/
def State.nextHop (rx : Rx) (s : State) : Peer :=
  match rx.peer.ip with
  | some (false, a, _, _) =>
    let span := hostSpan s.cfg.inUse.protocol.v4PrefixLen
    if s.ip4 / span = a / span then rx.peer
    else match (s.portOf rx.port).gateway with
      | some g => { rx.peer with mac := g }
      | none => rx.peer
  | _ => rx.peer

/-- An entry put at the end of what a port's endpoint has to send. -/
def State.enqueue (q : Port) (e : EpEntry) (s : State) : State :=
  s.modPort q fun p => { p with epQ := p.epQ ++ [{ e with queued := [] }] }.fillEp s.elapsed

/-- A message of the drive queued in answer to a received frame, or to where a session was last heard (R163, R201). -/
def State.sendLy (rx : Rx) (admitAt : Nat) (m : LyMsg) (s : State) : State :=
  let ly3 := decide (m.gen = 3)
  let pcp := s.cfg.inUse.protocol.ly3ReplyPcp
  let tag := answerTag ly3 pcp rx.tag
  let cls := answerClass ly3 pcp tag
  let alwaysExpress := ly3 && (decide (m.kind = 0x11) || decide (m.kind = 0x12))
  s.enqueue rx.port
    { dst := s.nextHop rx, ethertype := if m.gen = 2 then (match rx.peer.ip with | some (true, _) => 0x86DD | _ => 0x0800)
                                        else s.cfg.inUse.protocol.ly3Ethertype
      tag := tag, cls := cls, express := alwaysExpress || s.expressClass rx.port cls
      admitAt := admitAt, rxEnd := rx.at_, queuedAt := s.elapsed, load := .ly { m with risk := s.power.deadlineRisk } }

/-- A frame of the endpoint's services queued in answer to a received frame (ARP, ND, echo). One that would be longer than
1,518 bytes untagged or 1,522 tagged is not sent (R159). -/
def State.sendRaw (rx : Rx) (ethertype : Nat) (dst : Mac) (payload : Bytes) (s : State) : State :=
  let tag := answerTag false 0 rx.tag
  let cls := answerClass false 0 tag
  if 1500 < payload.length then s
  else s.enqueue rx.port
    { dst := { mac := dst }, ethertype := ethertype, tag := tag, cls := cls, express := s.expressClass rx.port cls
      admitAt := s.timeNs, rxEnd := rx.at_, queuedAt := s.elapsed, load := .raw payload }

/-! ## Pause and the ingress buffer (R164 to R166) -/

/-- Bytes a stored frame occupies: without FCS and tag, rounded up to 64, plus 64 (R164). -/
def occupancyOf (length : Nat) (tagged : Bool) : Nat := roundUp (length - 4 - (if tagged then 4 else 0)) 64 + 64

/-- The high threshold H of R164. -/
def State.highMark (s : State) : Nat := 196608 * s.cfg.inUse.bridge.pauseHighPct / 100 / 64 * 64

/-- The low threshold L of R164. -/
def State.lowMark (s : State) : Nat := 196608 * s.cfg.inUse.bridge.pauseLowPct / 100 / 64 * 64

/-- Half the pause time of quanta 0xFFFF at a speed, in ns (R166). -/
def halfPauseNs (speed : Nat) : Nat :=
  if speed = 1000 then 16776960 else if speed = 100 then 167769600 else 1677696000

/-- A pause frame with quanta 0xFFFF queued on a port: the pause is in force from now (R165). -/
def PortState.putPause (now : Nat) (p : PortState) : PortState :=
  { p with pauseQ := p.pauseQ ++ [0xFFFF], pauseForce := some (now + halfPauseNs p.speed) }

/-- The cancel of a pause in force. -/
def PortState.cancelPause (p : PortState) : PortState :=
  if p.pauseForce.isSome then { p with pauseQ := p.pauseQ ++ [0], pauseForce := none } else p

/-- The drive sends pause frames on a port: pause is in effect there, and `NET_PAUSE_ENABLE` is on (R165, R169). -/
def State.sendsPause (q : Port) (s : State) : Bool := (s.portOf q).pauseInEffect && decide (s.cfg.inUse.bridge.pauseEnable = 1)

/-- R165, a frame arrives for the endpoint while the state is paused: the arrival port gets a pause if pause is in
effect there and not already in force. -/
def State.pauseWhilePaused (q : Port) (s : State) : State :=
  let p := s.portOf q
  if s.net.paused && s.sendsPause q && p.pauseForce.isNone then s.modPort q (PortState.putPause s.elapsed) else s

/-- A frame stored in the ingress buffer, with the high crossing of R165 and the notices of R168. -/
def State.storeFrame (q : Port) (occ : Nat) (s : State) : State :=
  let level := s.net.level + occ
  let s := s.modNet fun n => { n with level := level, peak := max n.peak level }
  if !s.net.paused && decide (s.highMark ≤ level) then
    let s := s.modNet fun n => { n with paused := true, crossedHigh := true, crossCount := inc32 n.crossCount }
    if s.sendsPause q then s.modPort q (PortState.putPause s.elapsed) else s
  else s

/-- Bytes released from the ingress buffer, with the low crossing of R165. -/
def State.release (occ : Nat) (s : State) : State :=
  let level := s.net.level - occ
  let s := s.modNet fun n => { n with level := level }
  if s.net.paused && decide (level ≤ s.lowMark) then
    (s.modNet fun n => { n with paused := false }).modPort .A PortState.cancelPause |>.modPort .B PortState.cancelPause
  else s

end Sys2Proof.Machine
end

