-- ==== Sys2Proof/Machine/Lumyoty.lean ====
section
/-!
DEFINITION. Sessions and messages (chapter 9): finding and changing a session, forming answers and completions,
requests in flight, cancellation, closing, and range locks.
-/
namespace Sys2Proof.Machine

/-! ## Sessions -/

/-- The session or pending handshake with an identifier. -/
def SessionState.find (x : SessionState) (id : Nat) : Option Sess := x.sessions.find? fun e => e.id = id

/-- One session changed. -/
def State.modSess (id : Nat) (f : Sess → Sess) (s : State) : State :=
  s.modSes fun x => { x with sessions := x.sessions.map fun e => if e.id = id then f e else e }

/-- A download ends with its session, and its package is discarded (R478). -/
def State.endDownload (id : Nat) (s : State) : State :=
  match s.fw.download with
  | none => s
  | some d => if d.session = id then (s.modFw fun f => { f with download := none }).event .fwRefused 0x0D 0 0 else s

/-- A session removed; its identifier rests for 1 s (R215), its snapshots and its download are discarded (R327, R478). -/
def State.removeSess (id : Nat) (s : State) : State :=
  let s := s.endDownload id
  let s := s.modSes fun x => { x with
    sessions := x.sessions.filter fun e => e.id ≠ id
    closed := (id, s.elapsed) :: x.closed.filter fun c => s.elapsed < c.2 + 1000000000
    held := x.held.filter fun l => l.session ≠ id
    waiting := x.waiting.filter fun l => l.session ≠ id }
  s.modAdmin fun a => { a with snapshots := a.snapshots.filter fun p => p.session ≠ id }

/-- Whether a session still takes host frames. -/
def Phase.live : Phase → Bool
  | .pending _ | .open => true
  | .closing .. | .dropping .. => false

/-- Whether requests that a session holds complete are still taken: it is open, or it closes and has not been answered (R221). -/
def Phase.answers : Phase → Bool
  | .open => true
  | .closing _ _ _ _ sent => !sent
  | .dropping _ sent => !sent
  | .pending _ => false

/-- Whether a session is open. -/
def Phase.isOpen : Phase → Bool
  | .open => true
  | .pending _ | .closing .. | .dropping .. => false

/-- Requests in flight on the whole drive. -/
def SessionState.inFlight (x : SessionState) : Nat := natSum (x.sessions.map fun e => e.flights.length)

/-- Requests of one tenant in flight. -/
def SessionState.tenantInFlight (x : SessionState) (t : Nat) : Nat :=
  natSum ((x.sessions.filter fun e => e.tenant = t).map fun e => e.flights.length)

/-- A request in flight of a session. -/
def Sess.flight (e : Sess) (msgId : Nat) : Option Flight := e.flights.find? fun f => f.msgId = msgId

/-- A request in flight changed. -/
def State.modFlight (id msgId : Nat) (f : Flight → Flight) (s : State) : State :=
  s.modSess id fun e => { e with flights := e.flights.map fun x => if x.msgId = msgId then f x else x }

/-- Opcodes that load a register set (Table 11-5). -/
def loadsSet (op : Nat) : Bool := op = 0x20 || op = 0x30 || op = 0x31

/-- A flush no longer waits for a command that has ended. -/
def Flight.unwait (msgId : Nat) (f : Flight) : Flight :=
  match f.work with
  | .flush waits => { f with work := .flush (waits.filter (· ≠ msgId)) }
  | _ => f

/-- A request leaves flight; its LY1 set is free again (R231, R286). -/
def State.endFlight (id msgId : Nat) (s : State) : State :=
  s.modSess id fun e =>
    let sets := match e.flight msgId with
      | some { ly1 := some (n, _, _), opcode := op, .. } => if loadsSet op then modifyAt n (fun x => { x with busy := false }) e.sets else e.sets
      | _ => e.sets
    { e with flights := (e.flights.filter fun x => x.msgId ≠ msgId).map (Flight.unwait msgId), sets := sets }

/-! ## Speaking on a session -/

/-- A message of the drive on a session: it takes the session's next SEQ values and its PRIOR_LATE, and is tagged
under K_d2h (R208, R226, R266). An administrative body takes its SEQ at its selection. -/
def State.say (id : Nat) (rx : Rx) (admitAt : Nat) (m : LyMsg) (s : State) : State :=
  match s.ses.find id with
  | none => s
  | some e =>
    let m := { m with gen := e.gen, tenant := e.tenant, session := id, seq := e.driveSeq,
                      key := some (e.kD2h, e.saltD2h), priorLate := e.priorLate }
    let n := match m.body with
      | .admin .. => 0
      | _ => frameCount (bodyLimit e.gen rx.peer) m.bodyBytes.length
    (s.modSess id fun e => { e with driveSeq := e.driveSeq + n, priorLate := if n = 0 then e.priorLate else false }).sendLy rx admitAt m

/-- An answer without a session: SESSION_ID 0, SEQ 0 and no tag (R217). -/
def State.sayRefusal (rx : Rx) (gen tenant msgId alive status reason : Nat) (s : State) : State :=
  s.sendLy rx s.timeNs
    { kind := 0x11, gen := gen, tenant := tenant, session := 0, msgId := msgId, alive := alive, status := status, reason := reason
      body := if gen = 1 then .raw [] else .answer { admitAt := rx.stamp } }

/-- What a request's answer needs to know of it. -/
structure Ask where
  sid : Nat
  gen : Nat
  tenant : Nat
  msgId : Nat
  opcode : Nat
  alive : Nat
  gap : Bool
  rx : Rx
  admitAt : Nat
  bodyTotal : Nat
  /-- TR_SET, TR_LBA and TR_COUNT of an LY1 command -/
  ly1 : Option (Nat × Nat × Nat) := none
  /-- the request has a HELD answer and its token -/
  token : Option Nat := none
  /-- the request is in flight: its answer ends it -/
  flying : Bool := false
  /-- the location that its answer's error-history entry names -/
  location : Nat := 0
  deriving DecidableEq, Repr

/-- A request in flight as its answer needs it. -/
def Flight.ask (e : Sess) (f : Flight) : Ask :=
  ⟨e.id, e.gen, e.tenant, f.msgId, f.opcode, f.alive, f.aliveGap, f.rx, f.admitAt, f.bodyTotal, f.ly1, f.token, true, 0⟩

/-- A request as the events and error-history entries about it name it, with the status that answers it (Table 13-6). -/
def Ask.ref (a : Ask) (status reason : Nat) : RequestRef := ⟨a.tenant, a.opcode, a.msgId, status, reason⟩

/-- Answers with MEDIA_ERROR, INTEGRITY 0x02 and INTERNAL go to the error history (R332). -/
def State.noteError (a : Ask) (status reason : Nat) (s : State) : State :=
  if status = 0x50 ∨ (status = 0x51 ∧ reason = 2) ∨ status = 0x7F then s.errorAnswer (a.ref status reason) a.location else s

/-- The result of an LY2 or LY3 request: its first answer, or its completion once HELD (R247, R253, R277). Its PINNED stands
for a cancel as well, but for a PIN, whose own pin a cancel undoes. -/
def State.finish (a : Ask) (status reason : Nat) (b : AnswerBody) (s : State) : State :=
  let b := { b with admitAt := a.admitAt, token := a.token.getD 0 }
  let s := s.noteError a status reason
  let s := if a.flying then s.modFlight a.sid a.msgId fun f =>
      { f with work := .answered, pinned := if a.opcode = 0x40 then f.pinned else b.pinned } else s
  s.say a.sid a.rx a.admitAt
    { kind := if a.token.isSome then 0x12 else 0x11, gen := a.gen, tenant := a.tenant, session := a.sid, msgId := a.msgId
      alive := a.alive, opcode := a.opcode, status := status, reason := reason
      aliveGap := a.gap && a.token.isNone, body := .answer b, first := decide (a.gen = 3) && a.token.isNone, ends := a.flying
      reqTotal := a.bodyTotal }

/-- The result of an LY1 command, with its register image (R290, R291): sectors completed and data. -/
def State.finishLy1 (a : Ask) (status reason : Nat) (range : Bool) (set lba count : Nat) (data : Bytes) (s : State) : State :=
  let (flags, err) := ly1Map status reason range
  let img : Ly1Image := ⟨set, flags, err, s.mode.code, lba, count, a.msgId⟩
  let s := s.noteError a status reason
  let s := if a.flying then s.modFlight a.sid a.msgId fun f => { f with work := .answered } else s
  let s := match a.flying, a.ly1 with
    | true, some (n, _, _) => if loadsSet a.opcode then
        s.modSess a.sid fun e => { e with sets := modifyAt n (fun x => { x with image := img }) e.sets } else s
    | _, _ => s
  s.say a.sid a.rx a.admitAt
    { kind := 0x11, gen := a.gen, tenant := a.tenant, session := a.sid, msgId := a.msgId, alive := a.alive, opcode := a.opcode
      status := status, reason := reason, aliveGap := a.gap, body := .raw (img.encode ++ data), ends := a.flying }

/-- A refusal or failure of any generation: LY1 carries an image that names the first sector not completed. -/
def State.fail (a : Ask) (status reason : Nat) (b : AnswerBody) (s : State) : State :=
  if a.gen = 1 then
    match a.ly1 with
    | some (n, lba, _) => s.finishLy1 a status reason false n lba 0 []
    | none => s.finishLy1 a status reason false 0xFF 0 0 []
  else s.finish a status reason b

/-- An answer that is the header alone: steps 6 and 7 of Table 9-3, row 3 of Table 9-7 on LY1 (R290). LY2 and LY3
answers always carry the prefix (R247). -/
def State.failBare (a : Ask) (status reason : Nat) (s : State) : State :=
  if a.gen = 1 then
    s.say a.sid a.rx a.admitAt
      { kind := 0x11, gen := a.gen, tenant := a.tenant, session := a.sid, msgId := a.msgId, alive := a.alive, opcode := a.opcode
        status := status, reason := reason, aliveGap := a.gap, body := .raw [] }
  else s.finish a status reason {}

/-- The next HELD_TOKEN: non-zero, cyclic over 32 bits (R253). -/
def nextToken (last : Nat) : Nat := if last + 1 < 2 ^ 32 then last + 1 else 1

/-- A HELD first answer of LY3: the request waits with this work; on LY2 and LY1 it waits without one (R253, R277). -/
def State.hold (a : Ask) (w : Work) (pinned : Bool) (s : State) : State :=
  if a.gen = 3 then
    let tok := nextToken s.ses.lastToken
    let (d, s) := s.draw
    let s := s.modSes fun x => { x with lastToken := tok }
    let s := s.modFlight a.sid a.msgId fun f => { f with work := w, token := some tok, pinned := pinned }
    (s.say a.sid a.rx a.admitAt
      { kind := 0x11, gen := 3, tenant := a.tenant, session := a.sid, msgId := a.msgId, alive := a.alive, opcode := a.opcode
        status := 0x01, aliveGap := a.gap
        body := .answer { ready := min 0xFFFF (Config.readyHint d), token := tok, admitAt := a.admitAt, pinned := pinned }
        first := true }).bump a.rx.port .ly3Held
  else s.modFlight a.sid a.msgId fun f => { f with work := w, pinned := pinned }

/-! ## Messages -/

/-- Frames 0 to the final one are all present (R227). -/
def Assembly.complete (a : Assembly) : Bool :=
  match a.frames.getLast? with
  | none => false
  | some f => f.final && decide (f.index + 1 = a.frames.length)

/-- A complete message that waits for its row. -/
def Assembly.waits (a : Assembly) : Bool := a.complete && !a.admitted

/-- The body of a message, as far as its frames go. -/
def Assembly.body (a : Assembly) : Bytes := a.frames.flatMap MsgFrame.body

/-- Where the last frame of a message came from: of its frames the one received last. -/
def Assembly.rx (a : Assembly) : Rx :=
  match a.frames with
  | [] => ⟨.A, .untagged, { mac := 0 }, 0, 0⟩
  | f :: rest => (rest.foldl (fun b x => if b.rx.at_ ≤ x.rx.at_ then x else b) f).rx

/-- The ingress time-stamp of a message's last frame (R32, R180). -/
def Assembly.stamp (a : Assembly) : Nat := a.rx.stamp

/-- The oldest message of a session with a MSG_ID and kind. -/
def Sess.message (e : Sess) (kind msgId : Nat) : Option Assembly :=
  e.assembling.find? fun a => a.msgId = msgId && a.kind = kind

/-- The message of a MSG_ID and kind that is still being assembled. -/
def Sess.joining (e : Sess) (kind msgId : Nat) : Option Assembly :=
  e.assembling.find? fun a => !a.complete && a.msgId = msgId && a.kind = kind

/-- A message leaves the session's list. -/
def State.dropMessage (sid serial : Nat) (s : State) : State :=
  s.modSess sid fun e => { e with assembling := e.assembling.filter fun a => a.serial ≠ serial }

/-- Bytes of the ingress buffer that a message's frames hold. -/
def Assembly.occupancy (a : Assembly) : Nat := natSum (a.frames.map MsgFrame.occupancy)

/-- A message taken by the protocol engine: its frames are released. -/
def State.takeMessage (sid : Nat) (a : Assembly) (s : State) : State := (s.dropMessage sid a.serial).release a.occupancy

/-- A message of a session noted as ended. -/
def State.noteEnded (sid msgId : Nat) (inconsistent : Bool) (s : State) : State :=
  s.modSess sid fun e => { e with
    ended := ⟨msgId, s.elapsed, inconsistent⟩ :: e.ended.filter fun x => s.elapsed < x.at_ + 2000000000 && x.msgId ≠ msgId }

/-- A message ended before it was complete: its frames are released, later ones are discarded. -/
def State.endMessage (sid : Nat) (inconsistent : Bool) (a : Assembly) (s : State) : State :=
  (s.takeMessage sid a).noteEnded sid a.msgId inconsistent

/-- What an answer needs to know of a message that is not in flight. -/
def Assembly.ask (e : Sess) (a : Assembly) : Ask :=
  let p := parseLy1 a.body
  { sid := e.id, gen := e.gen, tenant := e.tenant, msgId := a.msgId, opcode := if a.kind = 0x10 then a.opcode else 0, alive := a.alive
    gap := a.aliveGap, rx := a.rx, admitAt := a.stamp, bodyTotal := a.bodyTotal
    ly1 := if e.gen = 1 ∧ a.kind = 0x10 then some (p.set, p.lba, p.count) else none }

/-- A refused later segment is judged again (R308). -/
def Assembly.stir (a : Assembly) : Assembly := { a with refused := a.refused.map fun w => { w with stirred := true } }

/-- The drain has released charge, or a loop has written a new output: every segment that waits is judged again (R308). -/
def State.stirSegments (s : State) : State :=
  s.modSes fun x => { x with sessions := x.sessions.map fun e => { e with assembling := e.assembling.map Assembly.stir } }

/-! ## Completions kept across a start (R97, R257) -/

/-- A message of the drive in a queue that is the completion of a held request. -/
def EpEntry.completion (e : EpEntry) : Bool :=
  match e.load with
  | .ly m => m.kind == 0x12
  | .raw _ | .dawn .. => false

/-- Completions not yet selected are kept with their sessions. -/
def State.keepCompletions (q : Port) (s : State) : State :=
  let cs := (s.portOf q).epQ.filter EpEntry.completion
  (s.modSes fun x => { x with kept := x.kept ++ cs.map fun e => (q, e) }).modPort q fun p =>
    { p with epQ := p.epQ.filter fun e => !e.completion }

/-! ## Windows (R231, R232) -/

/-- The admission-limit window of R105 is judged by the caller; the reason of a full window, if any. -/
def State.windowFull (e : Sess) (limitRuns : Bool) (s : State) : Option Nat :=
  if e.window ≤ e.flights.length then some 1
  else if 256 ≤ s.ses.inFlight then some 2
  else if limitRuns && decide (32 ≤ s.ses.tenantInFlight e.tenant) then some 3
  else none

/-! ## Range locks (R315) -/

/-- The lowest possible key at or above a start key: an empty start key begins at the key of one byte 0 (R297, R312). -/
def lowestKey (start : Bytes) : Bytes := if start.isEmpty then [0] else start

/-- Two ranges share at least one possible key: both ends lie above both lowest keys. -/
def rangesMeet (s1 : Bytes) (e1 : Option Bytes) (s2 : Bytes) (e2 : Option Bytes) : Bool :=
  let below (a : Bytes) (e : Option Bytes) : Bool := match e with | none => true | some x => keyLt (lowestKey a) x
  below s1 e1 && below s1 e2 && below s2 e1 && below s2 e2

/-- `overlaps` of R315. -/
def RangeLock.overlaps (a b : RangeLock) : Bool := decide (a.tenant = b.tenant) && rangesMeet a.start a.end_ b.start b.end_

/-- Entries of the table that a tenant holds. -/
def tenantHeld (held : List RangeLock) (t : Nat) : Nat := (held.filter fun h => h.tenant = t).length

/-- `grantable` of R315, given the requests that arrived before. -/
def grantable (held before : List RangeLock) (q : RangeLock) : Bool :=
  decide (held.length < 64) && decide (tenantHeld held q.tenant < 16) && !held.any (RangeLock.overlaps · q) &&
  !before.any (RangeLock.overlaps · q)

/-- The first waiting request that can be granted, with those before it. -/
def firstGrantable (held : List RangeLock) : List RangeLock → List RangeLock → Option RangeLock
  | _, [] => none
  | before, q :: rest => if grantable held before q then some q else firstGrantable held (before ++ [q]) rest

/-- A lock granted: it leaves the waiting requests and enters the table. -/
def SessionState.grant (q : RangeLock) (x : SessionState) : SessionState :=
  { x with held := x.held ++ [q], waiting := x.waiting.filter fun w => !(w.session = q.session && w.msgId = q.msgId) }

/-- The lock or the waiting request of an operation withdrawn. -/
def SessionState.unlock (id msgId : Nat) (x : SessionState) : SessionState :=
  { x with
    held := x.held.filter fun l => !(l.session = id && l.msgId = msgId)
    waiting := x.waiting.filter fun l => !(l.session = id && l.msgId = msgId) }

/-! ## Cancellation (R234, R235) -/

/-- Whether an entry carries a message of a request whose selection has not begun. -/
def EpEntry.isUnsentOf (id msgId : Nat) (e : EpEntry) : Bool :=
  match e.load with
  | .ly m => decide (m.session = id ∧ m.msgId = msgId ∧ (m.kind = 0x11 ∨ m.kind = 0x12) ∧ m.ends = true ∧ e.next = 0)
  | .raw _ | .dawn .. => false

/-- The message of an uncommitted request withdrawn from the port's queue. -/
def State.unqueue (q : Port) (id msgId : Nat) (s : State) : State :=
  s.modPort q fun p => { p with epQ := p.epQ.filter fun e => !e.isUnsentOf id msgId }

/-- The pin change of a cancelled PIN or UNPIN undone: a cancelled request leaves no trace. -/
def State.undoPin (u : Option (Bool × Pin)) (s : State) : State :=
  match u with
  | none => s
  | some (true, p) => s.modStore fun x => { x with pins := dropPin x.pins p.tenant p.key }
  | some (false, p) => s.modStore fun x => { x with pins := if (findPin x.pins p.tenant p.key).isSome then x.pins else p :: x.pins }

/-- An uncommitted request ended with a status: as its first answer, or as its completion once held. It leaves no trace. -/
def State.stopFlight (status reason : Nat) (e : Sess) (f : Flight) (s : State) : State :=
  let a := f.ask e
  let s := s.unqueue f.rx.port e.id f.msgId
  let s := s.undoPin f.undo
  let s := s.modSes (SessionState.unlock e.id f.msgId)
  let s := s.modFlight e.id f.msgId fun f => { f with undo := none }
  if e.gen = 1 then
    match f.ly1 with
    | some (n, lba, _) => s.finishLy1 a status reason false n lba 0 []
    | none => s.finishLy1 a status reason false 0xFF 0 0 []
  else s.finish a status reason { pinned := f.pinned }

/-- An uncommitted request ended with CANCELLED (R234). -/
def State.cancelFlight (e : Sess) (f : Flight) (s : State) : State := s.stopFlight 0x60 0 e f

/-- A complete request that still waits for its row is cancelled: CANCELLED is its first answer. -/
def State.cancelWaiting (e : Sess) (a : Assembly) (s : State) : State := (s.takeMessage e.id a).fail (a.ask e) 0x60 0 {}

/-- Every request of a session that has not reached its commit point cancelled (R221 step 2). -/
def State.cancelAll (id : Nat) (s : State) : State :=
  match s.ses.find id with
  | none => s
  | some e =>
    let s := (e.flights.filter fun f => !f.committed).foldl (fun s f => s.cancelFlight e f) s
    (e.assembling.filter fun a => a.waits && a.kind = 0x10).foldl (fun s a => s.cancelWaiting e a) s

/-! ## Closing (R221, R222) -/

/-- Bytes of assembling messages, released with them. -/
def Sess.assemblyBytes (e : Sess) : Nat :=
  natSum (e.assembling.map fun a => natSum (a.frames.map MsgFrame.occupancy))

/-- A session's half-assembled messages discarded and their ingress space released. Complete messages that wait for their row
stay (R221 step 3), and so do those of a segmented write whose segments still come. -/
def State.dropAssemblies (id : Nat) (s : State) : State :=
  match s.ses.find id with
  | none => s
  | some e =>
    let gone := e.assembling.filter fun a => !a.admitted && !a.complete
    let bytes := natSum (gone.map fun a => natSum (a.frames.map MsgFrame.occupancy))
    (s.modSess id fun e => { e with assembling := e.assembling.filter fun a => a.admitted || a.complete }).release bytes

/-- Some frame of the session is still queued on the port. -/
def State.hasQueued (q : Port) (id : Nat) (s : State) : Bool :=
  (s.portOf q).epQ.any fun e => match e.load with
    | .ly m => decide (m.session = id)
    | .raw _ | .dawn .. => false

/-- The close answer or the notice of one session, once every other frame of it has been selected. -/
def State.settleClose (s : State) (e : Sess) : State :=
  if !e.flights.isEmpty || e.assembling.any Assembly.waits || s.hasQueued e.port e.id then s
  else match e.phase with
    | .closing msgId alive gap rx false =>
      (s.modSess e.id fun e => { e with phase := .closing msgId alive gap rx true }).say e.id rx s.timeNs
        { kind := 0x11, gen := e.gen, tenant := e.tenant, session := e.id, msgId := msgId, alive := alive, aliveGap := gap
          body := if e.gen = 1 then .raw [] else .answer { admitAt := rx.stamp }, ends := true }
    | .dropping cause false =>
      (s.modSess e.id fun e => { e with phase := .dropping cause true }).say e.id
        ⟨e.port, e.tag, e.peer, s.timeNs, s.elapsed⟩ s.timeNs
        { kind := 0x05, gen := e.gen, tenant := e.tenant, session := e.id, reason := cause, ends := true }
    | _ => s

/-- An LY1 FLUSH is answered once the commands it waits for have ended (Table 11-5). -/
def State.settleFlush (s : State) (e : Sess) : State :=
  e.flights.foldl (fun s f => match f.work with
    | .flush waits =>
      if !waits.isEmpty then s
      else
        let a := f.ask e
        match a.ly1 with
        | some (n, lba, _) => s.finishLy1 a 0 0 false n lba 0 []
        | none => s.finishLy1 a 0 0 false 0xFF 0 0 []
    | _ => s) s

/-- The flushes and the closing sessions moved on, where their last frame can be queued now. -/
def State.settleCloses (s : State) : State :=
  let s := s.ses.sessions.foldl State.settleFlush s
  s.ses.sessions.foldl State.settleClose s

/-- R222: the drive closes a session by itself. A pending handshake is discarded without notice (Table 9-6). -/
def State.dropSession (id cause : Nat) (s : State) : State :=
  match s.ses.find id with
  | none => s
  | some e => match e.phase with
    | .pending _ => s.removeSess id
    | .open =>
      let s := s.event .sessionClosed (cause * 2 ^ 24 + e.tenant * 2 ^ 16 + id) 0 0
      let s := s.modSess id fun e => { e with phase := .dropping cause false }
      (s.dropAssemblies id).cancelAll id |>.settleCloses
    | .closing .. => s
    | .dropping .. => s

/-- R222 for several sessions. -/
def State.dropSessions (p : Sess → Bool) (cause : Nat) (s : State) : State :=
  (s.ses.sessions.filter p).foldl (fun s e => s.dropSession e.id cause) s

end Sys2Proof.Machine
end

