-- ==== Sys2Proof/Machine/Outputs.lean ====
section
/-!
DEFINITION. The output contacts: status patterns with their phase (R41, R42, R531), and the other contacts as a view of
the state (Table 2-2).
-/
namespace Sys2Proof.Machine

/-- Starts and outputs changed. -/
def State.modStart (f : StartState → StartState) (s : State) : State := { s with start := f s.start }

/-- The latched-fault summary of R41. -/
def State.faultLatched (s : State) : Bool := s.log.latched != 0

/-- STAT_READY_N by state (Table 2-3). -/
def readyPattern : Mode → Pattern
  | .off | .coldStart | .warmStart | .dusk | .sealed | .rescue => .released
  | .readyRead | .overcast => .hz1
  | .ready => .asserted
  | .brace => .hz4
  | .deepSleep => .sleep

/-- STAT_FAULT_N by state and latched-fault summary (Table 2-3). -/
def faultPattern (latched : Bool) : Mode → Pattern
  | .off | .coldStart | .warmStart | .dusk | .deepSleep => .released
  | .readyRead | .ready | .brace => if latched then .asserted else .released
  | .overcast => .hz1
  | .sealed => .asserted
  | .rescue => .hz4

/-- Time in ns for which a pattern shows its asserted or its released part. -/
def Pattern.span (p : Pattern) (on : Bool) : Option Nat :=
  match p with
  | .released | .asserted => none
  | .hz1 => some (ms 500)
  | .hz4 => some (ms 125)
  | .sleep => some (if on then ms 100 else ms 3900)

/-- A pattern on an output: a new one begins in its asserted part, the same one keeps its phase (R531). -/
def StatusOut.show (now : Nat) (p : Pattern) (x : StatusOut) : StatusOut :=
  if x.pattern = p then x
  else
    let on := decide (p ≠ .released)
    ⟨p, on, (p.span on).map (now + ·)⟩

/-- One change of a blinking output at its due instant. -/
def StatusOut.toggle (x : StatusOut) : StatusOut :=
  match x.due with
  | none => x
  | some t => ⟨x.pattern, !x.on, (x.pattern.span (!x.on)).map (t + ·)⟩

/-- The status outputs brought up to the state: in Overcast STAT_FAULT_N takes its phase from STAT_READY_N. -/
def State.settle (s : State) : State :=
  s.modStart fun x =>
    let ready := x.statReady.show s.elapsed (readyPattern s.mode)
    let fault := if s.mode = .overcast then ready else x.statFault.show s.elapsed (faultPattern s.faultLatched s.mode)
    let quiet (a b : StatusOut) : Bool := a.pattern = .released && b.pattern = .released
    { x with statReady := ready, statFault := fault
             releasedAt := if quiet ready fault && !quiet x.statReady x.statFault then s.elapsed else x.releasedAt }

/-- The outcome of a command that goes on: the next state with its status outputs settled. -/
def State.done (s : State) : Host.Outcome State Fault Refusal := .next s.settle

/-- The states in which STAT_ACT_N shows activity (Table 2-3). -/
def Mode.active : Mode → Bool
  | .readyRead | .ready | .brace | .overcast | .sealed | .rescue => true
  | .off | .coldStart | .warmStart | .deepSleep | .dusk => false

/-- Activity of the endpoint: STAT_ACT_N is asserted for 50 ms (R43). -/
def State.activity (s : State) : State :=
  if s.mode.active then s.modNet fun n => { n with actUntil := some (s.elapsed + ms 50) } else s

/-- How a line contact of a port stands (Table 2-2). -/
inductive LinePin where
  | highImpedance | silent | active | electricalIdle
  deriving DecidableEq, Repr

/-- How a digital output stands (Table 2-2). -/
inductive OutPin where
  | highImpedance | low | high
  deriving DecidableEq, Repr

/-- A driven level. -/
def OutPin.level (high : Bool) : OutPin := if high then .high else .low

/-- Which configuration bus the drive is master of (R52). -/
inductive CfgBus where
  | highImpedance | i2c | spi
  deriving DecidableEq, Repr

/-- The output contacts of Table 2-2. -/
structure Pins where
  mdiA : LinePin
  mdiB : LinePin
  sgmiiA : LinePin
  sgmiiB : LinePin
  v3p3aux : Bool
  /-- the configuration bus that is driven -/
  cfg : CfgBus
  statReady : Bool
  statFault : Bool
  statAct : Bool
  pps : OutPin
  tamperPulsing : Bool
  tdo : Option Bool
  /-- EXTEST drives the contacts: the level of each boundary cell -/
  extest : Option (List Bool)
  deriving DecidableEq, Repr

/-- The MDI pairs of a port. -/
def mdiPin (sgmii phyReset : Bool) : Mode → LinePin
  | .off => .highImpedance
  | .dusk => if sgmii then .highImpedance else .silent
  | _ => if sgmii then .highImpedance else if phyReset then .silent else .active

/-- The SGMII transmitter of a port. -/
def sgmiiPin (sgmii phyReset : Bool) : Mode → LinePin
  | .off => .highImpedance
  | .dusk => .electricalIdle
  | _ => if !sgmii ∨ phyReset then .electricalIdle else .active

/-- The levels that EXTEST puts on the boundary cells, while it is selected (R57). -/
def State.extest (s : State) : Option (List Bool) :=
  if s.start.scanReleased ∧ s.start.tap.instr = .extest then some s.start.tap.cells else none

/-- The level that EXTEST puts on a contact of row A, where a cell of its own drives the contact. -/
def State.extestAt (contact : Nat) (s : State) : Option Bool :=
  match s.extest, Config.boundaryOf contact with
  | some cells, some k => cells[k]?
  | _, _ => none

/-- A status output sinks current: as its pattern has it, or as EXTEST drives the contact low. -/
def State.sinks (contact : Nat) (on : Bool) (s : State) : Bool :=
  match s.extestAt contact with
  | some high => !high
  | none => on

/-- PPS_OUT (Table 2-2): it is high-impedance in Off, and low while no second pulse stands. -/
def State.ppsPin (s : State) : OutPin :=
  if s.mode = .off then .highImpedance
  else match s.extestAt 30 with
    | some high => .level high
    | none => .level (s.time.ppsHigh && !s.start.coldHeld && decide (s.mode ≠ .dusk))

/-- The configuration bus that a start drives: the one that CFG_MODE selects, during the read of step 11 (R40, R52). -/
def State.cfgBus (s : State) : CfgBus :=
  match s.start.run with
  | some r => if r.reading then (if s.start.straps.spi then .spi else .i2c) else .highImpedance
  | none => .highImpedance

/-- The output contacts of a state. -/
def State.pins (s : State) : Pins :=
  let powered := decide (s.mode ≠ .off ∧ s.mode ≠ .dusk)
  let a := s.portOf .A
  let b := s.portOf .B
  let x := s.start.straps
  { mdiA := mdiPin x.sgmiiA a.phyReset s.mode, mdiB := mdiPin x.sgmiiB b.phyReset s.mode
    sgmiiA := sgmiiPin x.sgmiiA a.phyReset s.mode, sgmiiB := sgmiiPin x.sgmiiB b.phyReset s.mode
    v3p3aux := powered
    cfg := s.cfgBus
    statReady := s.sinks 50 (s.start.statReady.on && powered)
    statFault := s.sinks 51 (s.start.statFault.on && powered)
    statAct := s.sinks 52 (s.mode.active && s.net.actUntil.isSome)
    pps := s.ppsPin
    tamperPulsing := decide (s.mode ≠ .off)
    tdo := if s.start.scanReleased ∧ s.start.coldHeld = false then s.start.tap.tdo else none
    extest := s.extest }

end Sys2Proof.Machine
end

