-- ==== Sys2Proof/Machine/Requests.lean ====
section
/-!
DEFINITION. Requests from their complete message to their admission: rows 3 to 7 of Table 9-7 (R231 to R233, R237,
R265, R286, R294), and what rows 8 and 9 share.
-/
namespace Sys2Proof.Machine

/-! ## Opcodes (Tables 10-1, 11-5, 13-1, 13-15 and 18-5) -/

/-- Administrative opcodes (R242). -/
def isAdminOp (op : Nat) : Bool := decide (0x80 ≤ op ∧ op ≤ 0xBF)

/-- Firmware opcodes (Table 13-15). -/
def isFirmwareOp (op : Nat) : Bool := decide (0x90 ≤ op ∧ op ≤ 0x96)

/-- The opcodes a generation lists. -/
def listedOpcodes (gen : Nat) : List Nat :=
  if gen = 1 then [0x01, 0x20, 0x30, 0x31, 0x40, 0x50, 0x51]
  else [0x01, 0x10, 0x20, 0x21, 0x22, 0x30, 0x31, 0x40, 0x41, 0x80, 0x81, 0x82, 0x84, 0x85, 0x88, 0x89, 0x8A, 0x8C,
        0x90, 0x91, 0x92, 0x93, 0x94, 0x95, 0x96, 0xA0, 0xA1, 0xA2, 0xA3, 0xA4]

/-- The firmware opcodes that Rescue serves (R282, R494). -/
def isDownloadOp (op : Nat) : Bool := isFirmwareOp op && decide (op ≠ 0x93 ∧ op ≠ 0x95)

/-- The largest MSG_BODY_TOTAL of a generation (R228, R245, R277, R289). -/
def bodyMost (gen : Nat) : Nat := if gen = 1 then 65552 else if gen = 2 then 1048724 else 65684

/-- Opcodes whose answers the LY2 answer cache keeps (R280, Table 13-1). -/
def altersStore (op : Nat) : Bool :=
  [0x20, 0x21, 0x22, 0x31, 0x40, 0x41, 0x82, 0x85, 0x88, 0x89, 0x8A, 0x8C].contains op || decide (0x90 ≤ op ∧ op ≤ 0xAF)

/-! ## Rows 3 to 7 of Table 9-7 -/

/-- The VID of a frame is one that the tenant is reached by (R212). -/
def State.vidOk (t : Nat) (tag : RxTag) (s : State) : Bool :=
  let v := (s.tenant t).vid
  v = 0 || tag.vid s.cfg.inUse.bridge.pvid = v

/-- Row 4: the reason of TENANT_DENIED, if any (R211, R212, R282). -/
def State.tenantDenied (t gen : Nat) (opcode : Option Nat) (s : State) : Option Nat :=
  let c := s.tenant t
  if s.mode = .rescue ∧ t ≠ 0 then some 5
  else if c.enable ≠ 1 then some 1
  else if !bit c.generations (gen - 1) then some 2
  else if (s.credential t).isNone then some 4
  else match opcode with
    | some op => if s.mode = .rescue ∧ !isDownloadOp op then some 5 else none
    | none => none

/-- The admission-limit window of R105 is open. -/
def State.limitRuns (s : State) : Bool :=
  match s.start.limit with
  | .until_ t => decide (s.elapsed < t)
  | .awaitingLink | .closed => false

/-- A request that passed row 7, with its body. -/
structure Admitted where
  ask : Ask
  body : Bytes
  deriving DecidableEq, Repr

/-- The request enters flight (R231): its LY1 set, if it loads one, is busy from now (R286). -/
def State.fly (e : Sess) (a : Assembly) (admitAt : Nat) (s : State) : State :=
  let p := parseLy1 a.body
  let loads := decide (e.gen = 1) && loadsSet a.opcode && decide (p.set < 16)
  let f : Flight :=
    { msgId := a.msgId, opcode := a.opcode, alive := a.alive, aliveGap := a.aliveGap, rx := a.rx, admitAt := admitAt
      admittedAt := s.elapsed, ly1 := if e.gen = 1 then some (p.set, p.lba, p.count) else none, bodyTotal := a.bodyTotal }
  (s.modSess e.id fun e => { e with
    flights := e.flights ++ [f]
    sets := if loads then modifyAt p.set (fun _ => ⟨true, { set := p.set, lba := p.lba, cmdMsgId := a.msgId }⟩) e.sets else e.sets }).noteAdmission admitAt

/-- Rows 3 to 7 on a message of an open session: the request admitted, or the state after its refusal. -/
def State.judgeRequest (e : Sess) (a : Assembly) (s : State) : Option Admitted × State :=
  let k := a.ask e
  let p := parseLy1 a.body
  if e.gen ≠ 2 ∧ (e.flight a.msgId).isSome then (none, s.failBare k 0x51 3)
  else match s.tenantDenied e.tenant e.gen (some a.opcode) with
    | some r => (none, s.fail k 0x41 r {})
    | none =>
      if s.servingMode = .sealed ∧ !(e.tenant = 0 ∧ (a.opcode = 0x01 ∨ isAdminOp a.opcode)) then (none, s.fail k 0x42 1 {})
      else match s.windowFull e s.limitRuns with
        | some r => (none, s.fail k 0x22 r {})
        | none =>
          if e.gen = 1 ∧ loadsSet a.opcode ∧ ((e.sets.getD p.set {}).busy) = true then
            (none, (s.count .ly1SetBusy 1).fail k 0x22 1 {})
          else
            let admitAt := s.admission a.stamp
            let s := s.fly e a admitAt
            let ly1 := if e.gen = 1 then some (p.set, p.lba, p.count) else none
            (some ⟨{ k with admitAt := admitAt, flying := true, ly1 := ly1 }, a.body⟩, s)

/-! ## The first segment of a segmented message (R307) -/

/-- The frames present without a gap from frame 0. -/
def leadFrom : Nat → List MsgFrame → List MsgFrame
  | _, [] => []
  | i, f :: fs => if f.index = i then f :: leadFrom (i + 1) fs else []

/-- The body bytes present without a gap. -/
def Assembly.lead (a : Assembly) : Bytes := (leadFrom 0 a.frames).flatMap MsgFrame.body

/-- The frames that carry the first `n` body bytes. -/
def coverOf : Nat → List MsgFrame → List MsgFrame
  | _, [] => []
  | n, f :: fs => if n = 0 then [] else f :: coverOf (n - f.body.length) fs

/-- One segment (R306). -/
def segmentBytes : Nat := 65536

/-- A message that the segmented path admits once its first segment is present (R307): an LY2 PUT or APPEND with more than
65,536 bytes of DATA declared. -/
def Assembly.early (gen : Nat) (a : Assembly) : Bool :=
  let b := a.lead
  let p := parseBody false b
  decide (gen = 2 ∧ (a.opcode = 0x20 ∨ a.opcode = 0x21) ∧ segmentBytes < p.b ∧ 20 + p.keyLen + segmentBytes ≤ b.length)

/-- The message as it is judged at its admission: the frames of segment 0. -/
def Assembly.firstSegment (a : Assembly) : Assembly :=
  { a with frames := coverOf (20 + fieldAt 0 1 a.lead + segmentBytes) a.frames }

/-! ## The order of requests on one key (R35) -/

/-- The request that a message stands for once its row can take it: the message itself, or its first segment. -/
def Assembly.ready (gen : Nat) (a : Assembly) : Option Assembly :=
  if a.kind ≠ 0x10 ∨ a.admitted = true then none
  else if a.early gen then some a.firstSegment
  else if a.complete then some a else none

/-- The keys that a point request names, or the sectors of an LY1 command. The order of range operations is that of their
locks (R315). -/
def Assembly.keys (gen : Nat) (a : Assembly) : List Bytes :=
  if gen = 1 then
    let p := parseLy1 a.body
    if a.opcode = 0x20 ∨ a.opcode = 0x30 then (List.range (min 16 p.count)).map fun i => sectorKey (p.lba + i) else []
  else if [0x10, 0x20, 0x21, 0x22, 0x40, 0x41].contains a.opcode then [(parseBody false a.body).key] else []

/-- A request comes before another in admission order: by its time-stamp, and port A first on equal ones (R35). -/
def Assembly.ranksBefore (a b : Assembly) : Bool :=
  decide (a.stamp < b.stamp ∨ (a.stamp = b.stamp ∧ a.rx.port = .A ∧ b.rx.port = .B))

/-- A request on the same key of the same tenant that comes before a request still waits for its own row. -/
def State.outranked (e : Sess) (a : Assembly) (s : State) : Bool :=
  s.ses.sessions.any fun x => decide (x.tenant = e.tenant) && x.phase.answers && x.assembling.any fun m =>
    match m.ready x.gen with
    | some b => b.ranksBefore a && (b.keys x.gen).any (a.keys e.gen).contains
    | none => false

/-- A request row takes its message: rows 3 to 7 of Table 9-7 on the complete message that a session holds under a MSG_ID,
if its generation is LY1 or not, as the row has it, and its opcode one of the row's. Without such a message, with the ingress
gate closed, or while an earlier request on its key waits, there is nothing to do. -/
def State.takeRequest (sid msgId : Nat) (ly1 : Bool) (ops : List Nat) (s : State) : Option Admitted × State :=
  match s.ses.find sid with
  | none => (none, s)
  | some e =>
    match e.message 0x10 msgId with
    | none => (none, s)
    | some a =>
      if !e.phase.answers ∨ !s.net.gateOpen ∨ !a.waits ∨ decide (e.gen = 1) ≠ ly1 ∨ !ops.contains a.opcode ∨ s.outranked e a then (none, s)
      else (s.takeMessage sid a).judgeRequest e a

/-! ## Rows 8 and 9 -/

/-- A status with its reason. -/
abbrev Refused := Nat × Nat

/-- Table 10-7 at row 9, for a write or a PIN. A drive in Ready whose bank has failed answers as it will in Ready-Read (R85). -/
def State.writeRefused (s : State) : Option Refused :=
  if s.power.sleep ≠ .awake then some (0x31, 0x14)
  else match s.servingMode with
    | .ready => if s.bankClass = .failed then some (0x31, 0x11) else none
    | .readyRead => some (0x31, if s.bankClass = .failed then 0x11 else 0x10)
    | .overcast => some (0x30, 1)
    | _ => some (0x31, 0x10)

/-- Row 9 for every other request: only the entry to Deep Sleep refuses it (R87). -/
def State.readRefused (s : State) : Option Refused := if s.power.sleep ≠ .awake then some (0x31, 0x14) else none

/-- The key limits of R245 steps 1 and 2 for an opcode with a key of 1 to 128 bytes. -/
def ReqBody.keyBad (p : ReqBody) : Option Refused :=
  if p.keyLen = 0 ∨ 128 < p.keyLen then some (0x13, 1) else if !p.whole then some (0x13, 2) else none

/-- The first refusal of a list of checks. -/
def firstOf : List (Option Refused) → Option Refused
  | [] => none
  | some r :: _ => some r
  | none :: rest => firstOf rest

/-- A check that refuses when its condition holds. -/
def refuseIf (c : Bool) (status reason : Nat) : Option Refused := if c then some (status, reason) else none

/-- The pin state that a request sees (R247). -/
def State.pinned (a : Ask) (k : Bytes) (s : State) : Bool := (findPin s.store.pins a.tenant k).isSome

end Sys2Proof.Machine
end

