-- ==== Sys2Proof/Machine/Arbiter.lean ====
section
/-!
DEFINITION. The egress arbiter of a port: gates (R191 to R194), credit (R195 to R197), eligibility and order
(R188, R192, R198 to R201).
-/
namespace Sys2Proof.Machine

/-! ## Instants of the drive's time -/

/-- Time passes until the drive's time reaches a value, if it has not. -/
def State.waitTime (ns : Nat) (s : State) : State :=
  let d : Int := (ns - s.timeNs : Nat)
  let pace := 1000000000 + s.time.ratePpb
  { s with elapsed := s.elapsed + ((d * 1000000000 + pace - 1) / pace).toNat }

/-! ## Wire time -/

/-- Nanoseconds of one bit at a link speed in Mb/s. -/
def bitNs (speed : Nat) : Nat := if speed = 1000 then 1 else if speed = 100 then 10 else 100

/-- Wire time of a frame with preamble, SFD and inter-frame gap. -/
def wireNs (speed length : Nat) : Nat := (length + 20) * 8 * bitNs speed

/-! ## Gates -/

/-- The entries of a list that run: those in use with a non-zero interval (R139, R192). -/
def GateListCfg.runs (g : GateListCfg) : List GateEntry := g.inUse.filter fun e => e.intervalNs ≠ 0

/-- The list keeps no gate shut where R139 says so. -/
def GateListCfg.active (g : GateListCfg) : Bool := decide (g.enable = 1) && !g.runs.isEmpty

/-- The base time in ns. -/
def GateListCfg.base (g : GateListCfg) : Nat := g.baseS * 1000000000 + g.baseNs

/-- The first cycle boundary at or after an instant (R191). -/
def GateListCfg.boundary (g : GateListCfg) (t : Nat) : Nat :=
  if t ≤ g.base then g.base else g.base + (t - g.base + g.cycleNs - 1) / g.cycleNs * g.cycleNs

/-- A list put to use at an instant: gates open until the first cycle starts (R191). -/
def GateListCfg.arm (g : GateListCfg) (now : Nat) : GateRun :=
  { running := false, cycleStart := g.boundary now, entry := 0, entryEnd := g.boundary now }

/-- The segments of one cycle: gates and length; the last entry holds until the cycle ends (R192). -/
def GateListCfg.segments (g : GateListCfg) : List (Nat × Nat) :=
  let rs := g.runs
  let total := natSum (rs.map GateEntry.intervalNs)
  match rs.getLast? with
  | none => []
  | some l => rs.dropLast.map (fun e => (e.gates, e.intervalNs)) ++ [(l.gates, l.intervalNs + (g.cycleNs - total))]

/-- How long a class's gate stays open over some segments; none when it does not close in them. -/
def openFor (cls : Nat) : List (Nat × Nat) → Option Nat
  | [] => none
  | (gates, n) :: rest => if bit gates cls then (openFor cls rest).map (n + ·) else some 0

/-- Time until a class's gate closes, from an instant of the drive's time; none when it stays open. -/
def gateCloses (g : GateListCfg) (r : GateRun) (now cls : Nat) : Option Nat :=
  if !r.running then
    if r.gates = 0xFF ∧ g.active then (openFor cls g.segments).map (r.cycleStart - now + ·) else none
  else (openFor cls ((g.segments.drop (r.entry + 1)) ++ g.segments)).map (r.entryEnd - now + ·)

/-- The effect of an entry: its gates, and hold or release while preemption is active (R139, R193). -/
def GateRun.apply (active : Bool) (e : GateEntry) (r : GateRun) : GateRun :=
  { r with gates := e.gates, hold := if active ∧ e.op = 1 then true else if active ∧ e.op = 2 then false else r.hold }

/-- The next entry or cycle of a list begins (R192). -/
def GateRun.next (g : GateListCfg) (active : Bool) (r : GateRun) : GateRun :=
  let rs := g.runs
  let last := rs.length - 1
  let fresh := !r.running || decide (last ≤ r.entry)
  let start := if !r.running then r.cycleStart else if last ≤ r.entry then r.cycleStart + g.cycleNs else r.entryEnd
  let k := if fresh then 0 else r.entry + 1
  let cycle := if fresh then start else r.cycleStart
  let e := rs.getD k {}
  { r with running := true, cycleStart := cycle, entry := k, entryEnd := if k = last then cycle + g.cycleNs else start + e.intervalNs }.apply active e

/-- R194: the cycle realigned to a stepped time. -/
def GateRun.realign (g : GateListCfg) (now : Nat) (r : GateRun) : GateRun :=
  let b := g.boundary now
  let b := if b - now < g.cycleExtNs then b + g.cycleNs else b
  if r.running then { r with cycleStart := b - g.cycleNs, entry := g.runs.length - 1, entryEnd := b }
  else { r with cycleStart := b, entryEnd := b }

/-- The gate list of a port is in use. -/
def State.listInUse (q : Port) (s : State) : Bool := s.net.configured && (s.cfg.inUse.gates.get q).active

/-! ## Shapers -/

/-- A class is shaped on a port (R195). -/
def State.shaped (q : Port) (cls : Nat) (s : State) : Bool :=
  s.net.configured && ((decide (cls = 5) && bit (s.cfg.inUse.shaper.get q).enable 0) ||
    (decide (cls = 6) && bit (s.cfg.inUse.shaper.get q).enable 1))

/-- The shaper of a class. -/
def PortState.shaper (p : PortState) (cls : Nat) : Shaper := if cls = 5 then p.shaper5 else p.shaper6

/-- One shaper changed. -/
def PortState.modShaper (cls : Nat) (f : Shaper → Shaper) (p : PortState) : PortState :=
  if cls = 5 then { p with shaper5 := f p.shaper5 } else { p with shaper6 := f p.shaper6 }

/-- `bounds` of R195 with a slope, a rate and the largest frame's bits. -/
def Shaper.bounds (idle r f : Nat) (c : Shaper) : Shaper :=
  let hi : Int := (f * idle : Nat)
  let lo : Int := (f : Int) * ((idle : Int) - r)
  { idle := idle, hi := hi, lo := lo, cs := max (min c.cs hi) lo }

/-- `credit_per_bit_time` of R195. -/
def Shaper.bitTime (r : Nat) (gateOpen sending waiting : Bool) (c : Shaper) : Shaper :=
  if c.idle = 0 ∨ !gateOpen then c
  else
    let cs : Int :=
      if sending then c.cs + c.idle - r
      else if waiting then c.cs + c.idle
      else if c.cs < 0 then min 0 (c.cs + c.idle)
      else 0
    { c with cs := max (min cs c.hi) c.lo }

/-- The slopes in effect on a port that came up at a rate (R197): both scaled together above 75 %. -/
def scaleSlopes (s5 s6 rate : Nat) : Nat × Nat :=
  if 75 * rate < 100 * (s5 + s6) then (s5 * (75 * rate) / (100 * (s5 + s6)), s6 * (75 * rate) / (100 * (s5 + s6))) else (s5, s6)

/-- Port rate in kb/s. -/
def rateKbps (speed : Nat) : Nat := speed * 1000

/-- Bits of the largest frame with its overhead. -/
def State.frameBits (q : Port) (s : State) : Nat := ((s.cfg.inUse.port.get q).maxFrame + 20) * 8

/-- R196: the slopes of the configuration in use put on a port's shapers. -/
def State.setSlopes (q : Port) (s : State) : State :=
  let c := s.cfg.inUse.shaper.get q
  let p := s.portOf q
  let (a, b) := if p.up then scaleSlopes c.idleSlope5 c.idleSlope6 (rateKbps p.speed) else (c.idleSlope5, c.idleSlope6)
  let f := s.frameBits q
  s.modPort q fun p => { p with shaper5 := p.shaper5.bounds a (rateKbps p.speed) f, shaper6 := p.shaper6.bounds b (rateKbps p.speed) f }

/-! ## Frames -/

/-- An LY3 first answer (row 2 of Table 8-2). -/
def EpEntry.first (e : EpEntry) : Bool :=
  match e.load with
  | .ly m => m.first
  | .raw _ | .dawn .. => false

/-- The class of a frame on the wire; pause and 802.1AS frames have none. -/
def OnWire.cls : OnWire → Option Nat
  | .pause _ | .gptp _ => none
  | .ep e => some e.cls
  | .fwd f => some f.cls

/-- Whether a frame travels by the express MAC (R201). -/
def OnWire.express : OnWire → Bool
  | .pause _ | .gptp _ => true
  | .ep e => e.express
  | .fwd f => f.express

/-- Bytes of the message of an 802.1AS frame (R181). -/
def GptpMsg.length : GptpMsg → Nat
  | .sync .. | .signaling => 44
  | .followUp .. => 76
  | .pdelayReq .. | .pdelayResp .. | .pdelayRespFollowUp .. => 54
  | .announce a => 68 + 8 * a.path.length

/-- Bytes of a frame on the wire. -/
def OnWire.length : OnWire → Nat
  | .pause _ => 64
  | .gptp f => wireLength false f.msg.length
  | .ep e => e.length
  | .fwd f => f.length

/-- Bytes on the wire of the first piece of a preemptable frame, or of a remainder (R192, R200): a fragment of 64 bytes of a
frame, or of 60 of a remainder, with its mCRC, where 64 bytes stay for the last one; else the whole of it. -/
def firstPiece (resumed : Bool) (length : Nat) : Nat :=
  let least := if resumed then 60 else 64
  if least + 64 ≤ length then least + 4 else length

/-- R188: whether a frame of a class may start now; `length` is that of the piece that must leave before the gate closes where
the frame is express or preemption is not active, and of the frame or `resumed` remainder itself otherwise. -/
def State.eligible (q : Port) (cls length : Nat) (express first : Bool) (s : State) (resumed : Bool := false) : Bool :=
  let p := s.portOf q
  let active := decide (p.preempt = .active)
  let fragment := active && !express
  p.heldUntil.isNone && bit p.gate.gates cls &&
  (match (if s.listInUse q then gateCloses (s.cfg.inUse.gates.get q) p.gate s.timeNs cls else none) with
   | none => true
   | some t => decide (wireNs p.speed (if fragment then firstPiece resumed length else length) ≤ t)) &&
  (first || !s.shaped q cls || (decide (0 < (p.shaper cls).idle) && decide (0 ≤ (p.shaper cls).cs))) &&
  !(fragment && p.gate.hold)

/-- What the arbiter takes. -/
inductive Pick where
  | pause
  | gptp
  | ep (index : Nat)
  | fwd (index : Nat)
  /-- the remainder of the preempted frame -/
  | resume
  deriving DecidableEq, Repr

/-- Index of the first element with a property. -/
def firstIdx {α : Type} (p : α → Bool) (l : List α) : Option Nat := (l.zipIdx.find? fun x => p x.1).map Prod.snd

/-- The next frame of an entry is in the port's queue (R173). -/
def EpEntry.entered (e : EpEntry) : Bool := !e.queued.isEmpty

/-- The session whose message an entry carries. -/
def EpEntry.session (e : EpEntry) : Option Nat :=
  match e.load with
  | .ly m => some m.session
  | .raw _ | .dawn .. => none

/-- An entry of a class waits behind one of its own session, whose messages of a class leave in the order of their forming (R255). -/
def EpEntry.behind (before : List EpEntry) (e : EpEntry) : Bool :=
  e.session.isSome && before.any fun x => x.cls = e.cls && !x.first && decide (x.session = e.session)

/-- Row 2: the eligible first answer of the earliest admission. -/
def State.pickFirst (q : Port) (s : State) : Option Nat :=
  let xs := ((s.portOf q).epQ.zipIdx).filter fun x => x.1.first && x.1.entered && s.eligible q x.1.cls x.1.length true true
  match xs with
  | [] => none
  | x :: rest => some (rest.foldl (fun b y => if y.1.admitAt < b.1.admitAt then y else b) x).2

/-- Rows 4 and 5: class 7 down to 0, endpoint frames before forwarded ones, by a test on the express mark. -/
def State.pickClass (q : Port) (want : Bool → Bool) (s : State) : Option Pick :=
  let p := s.portOf q
  [7, 6, 5, 4, 3, 2, 1, 0].findSome? fun c =>
    match (p.epQ.zipIdx).find? fun (e, k) => e.cls = c && !e.first && want e.express && e.entered && !e.behind (p.epQ.take k) &&
        s.eligible q c e.length e.express false with
    | some (_, k) => some (.ep k)
    | none =>
      match firstIdx (fun (f : FwdFrame) => f.cls = c && want f.express && s.eligible q c f.length f.express false) p.fwdQ with
      | some k => some (.fwd k)
      | none => none

/-- The express rows of Table 8-2: 1 to 4. -/
def State.pickExpress (q : Port) (s : State) : Option Pick :=
  let p := s.portOf q
  if !p.pauseQ.isEmpty then some .pause
  else match s.pickFirst q with
    | some k => some (.ep k)
    | none =>
      if !p.gptpQ.isEmpty && p.heldUntil.isNone then some .gptp
      else if p.preempt = .active then s.pickClass q id else s.pickClass q fun _ => true

/-- The frame that an idle port takes next (Table 8-2). A preempted frame ends before another preemptable one begins. -/
def State.pick (q : Port) (s : State) : Option Pick :=
  match s.pickExpress q with
  | some x => some x
  | none =>
    let p := s.portOf q
    match p.preempted with
    | some (w, n) => if s.eligible q (w.cls.getD 0) (w.length - n) false false (resumed := true) then some .resume else none
    | none => if p.preempt = .active then s.pickClass q not else none

/-- R200: a preemptable frame of which `sent` bytes are out may be preempted here; a fragment has 64 bytes with its mCRC. -/
def PortState.mayPreempt (sent : Nat) (p : PortState) : Bool :=
  match p.onWire with
  | none => false
  | some w => decide (p.preempt = .active) && p.cut.isNone && !w.express && decide (64 ≤ sent ∧ p.fragFrom + 60 ≤ sent) &&
    decide (sent + 64 ≤ w.length)

/-- The preemptable frame on the wire must stop: its gate is closed or the MAC holds (R192, R193). -/
def PortState.mustStop (p : PortState) : Bool :=
  match p.onWire with
  | none => false
  | some w => p.gate.hold || !bit p.gate.gates (w.cls.getD 0)

/-! ## Room in the queues (R173) -/

/-- Whether a forwarded frame of a class finds its guaranteed 4 KiB or free shared space of the 96 KiB. A frame takes its bytes
from destination to FCS, from the guaranteed space first and the rest from the shared space (notes/assumptions/10.md). -/
def fwdRoom (queued : List FwdFrame) (cls length : Nat) : Bool :=
  let used (c : Nat) := natSum ((queued.filter fun f => f.cls = c).map FwdFrame.length)
  let shared := natSum ((List.range 8).map fun c => used c - 4096)
  let mine := used cls + length
  decide (mine ≤ 4096) || decide (shared - (used cls - 4096) + (mine - 4096) ≤ 65536)

end Sys2Proof.Machine
end

