-- ==== Sys2Proof/Machine/Services.lean ====
section
/-!
DEFINITION. What the endpoint says outside sessions: dawn announcements (R101, R102), ARP (R272), Neighbor Discovery
(R273) and echoes (R274).
-/
namespace Sys2Proof.Machine

/-- The broadcast address. -/
def broadcastMac : Mac := 0xFFFFFFFFFFFF
/-- The dawn group address 03-E1-D0-00-0A-01. -/
def dawnMac : Mac := 0x03E1D0000A01

/-! ## Dawn announcements -/

/-- Whether some enabled tenant has a generation (bit 0 LY1, 1 LY2, 2 LY3). -/
def State.anyTenant (s : State) (k : Nat) : Bool := s.cfg.inUse.tenants.any fun t => t.enable = 1 && bit t.generations k

/-- Milliseconds left of the admission-limit window; 0 when none runs. -/
def State.limitLeftMs (s : State) : Nat :=
  match s.start.limit with
  | .until_ t => min 0xFFFF ((t - s.elapsed + 999999) / 1000000)
  | .awaitingLink => 0
  | .closed => 0

/-- The 64 bytes of Table 4-6 on a port, with DAWN_CHECK (R102). -/
def State.dawnPayload (q : Port) (level : Mode) (index : Nat) (s : State) : Bytes :=
  let rescue := decide (s.mode = .rescue)
  let now := s.timeNow
  let flags := bitOf s.start.kept + 2 * bitOf s.time.synced + 4 * bitOf s.power.deadlineRisk + 8 * bitOf s.faultLatched +
    16 * bitOf (!s.cfg.report.entries.isEmpty) + 32 * q.index
  let body :=
    [0xDA#8, 0x01#8] ++ beBytes 2 64 ++ beBytes 1 level.code ++ beBytes 1 s.mode.code ++ beBytes 1 s.start.kind.code ++
    beBytes 1 flags ++ beBytes 4 s.startCount ++ beBytes 1 index ++ beBytes 1 s.start.straps.slot ++
    beBytes 1 (bitOf (s.anyTenant 0) + 2 * bitOf (s.anyTenant 1) + 4 * bitOf (s.anyTenant 2)) ++ zeros 1 ++
    beBytes 8 s.fused.unitId ++ beBytes 4 (if rescue then 0 else s.fw.commit.running.manifest) ++
    beBytes 6 now.s ++ beBytes 4 now.ns ++ beBytes 2 s.cfg.inUse.protocol.ly3DeadlineUs ++
    beBytes 2 s.cfg.inUse.protocol.ly2UdpPort ++ beBytes 2 (if rescue then 0 else s.limitLeftMs) ++ zeros 16
  body ++ beBytes 4 (crc32c (body ++ zeros 10))

/-- One announcement queued on a port, unless it has no link (R101). -/
def State.sendDawn (q : Port) (dst : Mac) (level : Mode) (index : Nat) (s : State) : State :=
  if (s.portOf q).up then
    let b := s.cfg.inUse.bridge
    let tag : Option TxTag := if b.dawnVid = 0 then none else some ⟨b.dawnVid, b.dawnPcp⟩
    let cls := answerClass false 0 tag
    s.enqueue q { dst := { mac := dst }, ethertype := s.cfg.inUse.protocol.ly3Ethertype, tag := tag, cls := cls
                  express := s.expressClass q cls, admitAt := s.timeNs, rxEnd := s.elapsed, queuedAt := s.elapsed
                  load := .dawn level index }
  else s

/-- A series begins with one frame on each port, in place of any series still running. -/
def State.beginSeries (level : Mode) (s : State) : State :=
  let s := s.modStart fun x => { x with series := some ⟨level, 1, s.elapsed + ms 100⟩, level := level }
  (s.sendDawn .A dawnMac level 0).sendDawn .B dawnMac level 0

/-- DAWN_REPEAT (R101): the next frame of the series on each linked port; the eleventh is the last. -/
def State.dawnRepeat (s : State) : State :=
  match s.start.series with
  | none => s
  | some x =>
    let s := s.waitUntil x.due
    let s := (s.sendDawn .A dawnMac x.level x.index).sendDawn .B dawnMac x.level x.index
    s.modStart fun st => { st with series := if 10 ≤ x.index then none else some ⟨x.level, x.index + 1, x.due + ms 100⟩ }

/-- DAWN_REPEAT. -/
def execDawnRepeat (s : State) : Host.Outcome State Fault Refusal := s.dawnRepeat.done

/-! ## Frames handed to a service -/

/-- The oldest frame of a service is taken from the inbox and its space released. -/
def State.takeFrame (k : Service) (s : State) : Option InFrame × State :=
  match s.net.inbox.find? fun f => f.service = k with
  | none => (none, s)
  | some f => (some f, (s.modNet fun n => { n with inbox := n.inbox.erase f }).release f.occupancy)

/-- The ingress gate is closed, or the port of a frame has lost its link: its service does not answer it (R99, R269). -/
def State.closedFor (f : InFrame) (s : State) : Bool := !s.net.gateOpen || !(s.portOf f.rx.port).up

/-- DAWN_SOLICITATION (R101): one frame to the solicitor, at most one per port in 10 ms. -/
def State.dawnSolicited (s : State) : State :=
  match s.takeFrame .solicitation with
  | (none, s) => s
  | (some f, s) =>
    if !s.servingMode.serving then s
    else if s.dueAgain (ms 10) (s.portOf f.rx.port).solicitAt then
      (s.modPort f.rx.port fun p => { p with solicitAt := some s.elapsed }).sendDawn f.rx.port f.rx.peer.mac s.servingMode 0xFF
    else s.count .dawnSolDropped 1

/-- DAWN_SOLICITATION. -/
def execDawnSolicitation (s : State) : Host.Outcome State Fault Refusal := s.dawnSolicited.done

/-- START_LIMIT_WINDOW_CLOSE (R105): the window ends. -/
def State.limitClose (s : State) : State :=
  match s.start.limit with
  | .until_ t => (s.waitUntil t).modStart fun x => { x with limit := .closed }
  | .awaitingLink | .closed => s

/-- START_LIMIT_WINDOW_CLOSE. -/
def execStartLimitWindowClose (s : State) : Host.Outcome State Fault Refusal := s.limitClose.done

/-- The window of R105 opened at step 16 or on waking: at once when some port has link. -/
def State.openLimit (s : State) : State :=
  let n := s.cfg.inUse.kv.startLimitMs
  s.modStart fun x => { x with limit :=
    if n = 0 then .closed else if (s.portOf .A).up || (s.portOf .B).up then .until_ (s.elapsed + ms n) else .awaitingLink }

/-! ## Internet checksums -/

/-- The sum of the 16-bit words of some bytes. -/
def wordSum : Bytes → Nat
  | [] => 0
  | [a] => a.toNat * 256
  | a :: b :: rest => a.toNat * 256 + b.toNat + wordSum rest

/-- The one's complement sum folded to 16 bits. -/
def fold16 (n : Nat) : Nat :=
  let a := n % 65536 + n / 65536
  a % 65536 + a / 65536

/-- The Internet checksum of some bytes. -/
def inetChecksum (b : Bytes) : Nat := 0xFFFF - fold16 (wordSum b)

/-- Bytes whose checksum field is included sum to all ones. -/
def inetOk (b : Bytes) : Bool := decide (fold16 (wordSum b) = 0xFFFF)

/-- The pseudo-header of IPv4 for a protocol. -/
def pseudo4 (src dst proto len : Nat) : Bytes := beBytes 4 src ++ beBytes 4 dst ++ zeros 1 ++ beBytes 1 proto ++ beBytes 2 len

/-- The pseudo-header of IPv6. -/
def pseudo6 (src dst proto len : Nat) : Bytes := beBytes 16 src ++ beBytes 16 dst ++ beBytes 4 len ++ zeros 3 ++ beBytes 1 proto

/-- An IPv4 header as R270 fills it, identification 0. -/
def ip4Header (src dst proto len : Nat) : Bytes :=
  let h (c : Nat) := [0x45#8, 0x00#8] ++ beBytes 2 (20 + len) ++ beBytes 2 0 ++ beBytes 2 0x4000 ++ beBytes 1 64 ++ beBytes 1 proto ++
    beBytes 2 c ++ beBytes 4 src ++ beBytes 4 dst
  h (inetChecksum (h 0))

/-- An IPv6 header as R270 fills it, with a hop limit. -/
def ip6Header (src dst proto hop len : Nat) : Bytes :=
  [0x60#8, 0x00#8, 0x00#8, 0x00#8] ++ beBytes 2 len ++ beBytes 1 proto ++ beBytes 1 hop ++ beBytes 16 src ++ beBytes 16 dst

/-! ## ARP (R272) -/

/-- An ARP frame of the drive. -/
def arpFrame (op : Nat) (sha : Mac) (spa : Nat) (tha : Nat) (tpa : Nat) : Bytes :=
  beBytes 2 1 ++ beBytes 2 0x0800 ++ beBytes 1 6 ++ beBytes 1 4 ++ beBytes 2 op ++ beBytes 6 sha.toNat ++ beBytes 4 spa ++
  beBytes 6 tha ++ beBytes 4 tpa

/-- A frame of the endpoint that answers no frame: untagged, class 0. -/
def State.sendOwn (q : Port) (ethertype : Nat) (dst : Mac) (payload : Bytes) (s : State) : State :=
  if (s.portOf q).up then
    s.enqueue q { dst := { mac := dst }, ethertype := ethertype, tag := none, cls := 0, express := s.expressClass q 0
                  admitAt := s.timeNs, rxEnd := s.elapsed, queuedAt := s.elapsed, load := .raw payload }
  else s

/-- The gateway asked for on a port, and when it is asked for again. -/
def State.askGateway (q : Port) (s : State) : State :=
  let g := s.cfg.inUse.protocol.v4Gateway
  if s.ip4 = 0 ∨ g = 0 ∨ !(s.portOf q).up then s
  else (s.modPort q fun p => { p with gatewayDue := some (s.elapsed + secs (if p.gateway.isSome then 60 else 1)) }).sendOwn q 0x0806
    broadcastMac (arpFrame 1 s.macInUse s.ip4 0 g)

/-- The gratuitous ARP of a port with the resolution of its gateway. -/
def State.gratuitousArp (q : Port) (s : State) : State :=
  if s.ip4 = 0 then s
  else (s.sendOwn q 0x0806 broadcastMac (arpFrame 1 s.macInUse s.ip4 0 s.ip4)).askGateway q

/-- An address conflict, logged at most once in 60 s. -/
def State.conflict (q : Port) (version : Nat) (s : State) : State :=
  if s.dueAgain (secs 60) s.net.conflictAt then
    (s.modNet fun n => { n with conflictAt := some s.elapsed }).event .addressConflict q.index version 0
  else s

/-- ARP_REQUEST (R272): an ARP frame answers, resolves the gateway or tells of a conflict. -/
def State.arpReceived (s : State) : State :=
  match s.takeFrame .arp with
  | (none, s) => s
  | (some f, s) =>
    let b := f.payload
    let q := f.rx.port
    if s.closedFor f ∨ s.ip4 = 0 ∨ b.length < 28 ∨ fieldAt 0 2 b ≠ 1 ∨ fieldAt 2 2 b ≠ 0x0800 ∨ fieldAt 4 1 b ≠ 6 ∨ fieldAt 5 1 b ≠ 4 then s
    else
      let op := fieldAt 6 2 b
      let sha : Mac := BitVec.ofNat 48 (fieldAt 8 6 b)
      let spa := fieldAt 14 4 b
      let s := if spa = s.ip4 ∧ sha ≠ s.macInUse then s.conflict q 4 else s
      let s := if s.cfg.inUse.protocol.v4Gateway ≠ 0 ∧ spa = s.cfg.inUse.protocol.v4Gateway then
        s.modPort q fun p => { p with gateway := some sha, gatewayDue := some (s.elapsed + secs 60) } else s
      if op = 1 ∧ fieldAt 24 4 b = s.ip4 then s.sendRaw f.rx 0x0806 sha (arpFrame 2 s.macInUse s.ip4 sha.toNat spa) else s

/-- ARP_REQUEST. -/
def execArpRequest (s : State) : Host.Outcome State Fault Refusal := s.arpReceived.done

/-- ARP_GATEWAY_TIMER (R272). -/
def State.gatewayTimer (q : Port) (s : State) : State :=
  match (s.portOf q).gatewayDue with
  | none => s
  | some t => (s.waitUntil t).askGateway q

/-- ARP_GATEWAY_TIMER. -/
def execArpGatewayTimer (q : Port) (s : State) : Host.Outcome State Fault Refusal := (s.gatewayTimer q).done

/-! ## Neighbor Discovery (R273) -/

/-- An ICMPv6 message with its checksum, from type and code and the bytes after the checksum. -/
def icmp6 (src dst type : Nat) (rest : Bytes) : Bytes :=
  let m (c : Nat) := beBytes 1 type ++ zeros 1 ++ beBytes 2 c ++ rest
  m (inetChecksum (pseudo6 src dst 58 (4 + rest.length) ++ m 0))

/-- A Neighbor Advertisement for an address: Override set, solicited or not, with the target link-layer address. -/
def State.advertisement (target dst : Nat) (solicited : Bool) (s : State) : Bytes :=
  let m := icmp6 target dst 136 (beBytes 4 ((if solicited then 0x40000000 else 0) + 0x20000000) ++ beBytes 16 target ++
    [0x02#8, 0x01#8] ++ beBytes 6 s.macInUse.toNat)
  ip6Header target dst 58 255 m.length ++ m

/-- ff02::1. -/
def allNodes : Nat := 0xFF02 * 2 ^ 112 + 1

/-- The unsolicited advertisements of a port, one for each address. -/
def State.unsolicited (q : Port) (s : State) : State :=
  s.ip6s.foldl (fun s a => s.sendOwn q 0x86DD 0x333300000001 (s.advertisement a allNodes false)) s

/-- NEIGHBOR_SOLICITATION (R273): a Neighbor Discovery frame with hop limit 255 is answered or tells of a conflict. -/
def State.ndReceived (s : State) : State :=
  match s.takeFrame .nd with
  | (none, s) => s
  | (some f, s) =>
    let b := f.payload
    let target := fieldAt 48 16 b
    if s.closedFor f ∨ fieldAt 7 1 b ≠ 255 ∨ b.length < 64 ∨ !s.ip6s.contains target then s
    else if fieldAt 40 1 b = 136 then s.conflict f.rx.port 6
    else
      let src := fieldAt 8 16 b
      if src = 0 then s.sendRaw f.rx 0x86DD 0x333300000001 (s.advertisement target allNodes false)
      else s.sendRaw f.rx 0x86DD f.rx.peer.mac (s.advertisement target src true)

/-- NEIGHBOR_SOLICITATION. -/
def execNeighborSolicitation (s : State) : Host.Outcome State Fault Refusal := s.ndReceived.done

/-! ## Echo (R274) -/

/-- The echo reply to an IPv4 packet. -/
def echoReply4 (b : Bytes) : Bytes :=
  let len := fieldAt 2 2 b - 20
  let icmp := slice 20 len b
  let m (c : Nat) := zeros 2 ++ beBytes 2 c ++ icmp.drop 4
  ip4Header (fieldAt 16 4 b) (fieldAt 12 4 b) 1 len ++ m (inetChecksum (m 0))

/-- The echo reply to an IPv6 packet, from the address asked, or the link-local one when that was multicast. -/
def State.echoReply6 (b : Bytes) (s : State) : Bytes :=
  let dst := fieldAt 24 16 b
  let src := if s.ip6s.contains dst then dst else s.ip6s.headD 0
  let m := icmp6 src (fieldAt 8 16 b) 129 (slice 44 (fieldAt 4 2 b - 4) b)
  ip6Header src (fieldAt 8 16 b) 58 64 m.length ++ m

/-- One echo within the 100 per second of its port; the running second and its count. -/
def PortState.echoAllowed (now : Nat) (p : PortState) : Bool × PortState :=
  let p := if now < p.echoFrom + secs 1 then p else { p with echoFrom := now, echoCount := 0 }
  if p.echoCount < 100 then (true, { p with echoCount := p.echoCount + 1 }) else (false, p)

/-- ECHO_REQUEST (R274). -/
def State.echoed (v6 : Bool) (s : State) : State :=
  match s.takeFrame (if v6 then .echo6 else .echo4) with
  | (none, s) => s
  | (some f, s) =>
    if s.closedFor f then s
    else
      let c := (s.portOf f.rx.port).echoAllowed s.elapsed
      let s := s.modPort f.rx.port fun _ => c.2
      if !c.1 then s.bump f.rx.port .icmpRateDropped
      else (s.bump f.rx.port .icmpEchoAnswered).sendRaw f.rx (if v6 then 0x86DD else 0x0800) f.rx.peer.mac
        (if v6 then s.echoReply6 f.payload else echoReply4 f.payload)

/-- ECHO_REQUEST. -/
def execEchoRequest (v6 : Bool) (s : State) : Host.Outcome State Fault Refusal := (s.echoed v6).done

end Sys2Proof.Machine
end

