-- ==== Sys2Proof/Machine/TimeSync.lean ====
section
/-!
DEFINITION. The time rows: 802.1AS on both ports (R181 to R185), 1PPS (R186, R187) and time steps (R179, R194). The
layout of 802.1AS messages is the standard's (PRESUMED, notes/assumptions/40.md).
-/
namespace Sys2Proof.Machine

/-- The parameters of Table 6-4 in use: the configured ones from step 15, the defaults before (R185). -/
def State.timeCfg (s : State) : TimeCfg := if s.time.configured then s.cfg.inUse.time else {}

/-- One gPTP port changed. -/
def State.modGptp (q : Port) (f : GptpPort → GptpPort) (s : State) : State :=
  s.modTime fun t => { t with port := t.port.modify q f }

/-- The identity of the drive's clock: the EUI-64 of its endpoint address. -/
def State.clockId (s : State) : Nat := eui64 s.fused.macEndpoint

/-! ## Corrections of the time (R179, R186, R194) -/

/-- A signed 64-bit number as two 32-bit parameters. -/
def halves (v : Int) : Nat × Nat :=
  let n := (v % (2 ^ 64 : Nat)).toNat
  (n / 2 ^ 32, n % 2 ^ 32)

/-- The gate cycles realigned to the time as it stands now (R194). -/
def State.realignGates (q : Port) (s : State) : State :=
  if s.listInUse q then s.modPort q fun p => { p with gate := p.gate.realign (s.cfg.inUse.gates.get q) s.timeNs } else s

/-- The time stepped by a signed number of ns, logged, with the gate lists realigned. -/
def State.stepTime (delta : Int) (s : State) : State :=
  if delta = 0 then s
  else
    let (hi, lo) := halves delta
    let s := s.setTime ((s.timeNs : Int) + delta).toNat
    ((s.event .timeStep 0 hi lo).realignGates .A).realignGates .B

/-- An offset corrected: by rate up to 1 ms, by a step beyond (R179). Time that is ahead is made to run slower and time that is
behind faster; by how much is left open by the manual (notes/assumptions/42.md). -/
def State.correct (offset : Int) (s : State) : State :=
  if offset.natAbs ≤ 1000000 then
    let (d, s) := s.draw
    s.setRate (s.time.ratePpb - offset.sign * (1 + Config.servoPpb d : Nat))
  else s.stepTime (-offset)

/-- The synchronised state with its event on a change (R184). -/
def State.setSynced (b : Bool) (s : State) : State :=
  if s.time.synced = b then s
  else (s.modTime fun t => { t with synced := b }).event .syncChanged (bitOf b) 0 0

/-! ## Best master clock (R181, R183) -/

/-- What the drive announces of itself (R183). -/
def State.ownAnnounce (s : State) : Announce :=
  let c := s.timeCfg
  { priority1 := if c.gmCapable = 1 then c.priority1 else 255, clockClass := 248, accuracy := 0xFE, variance := 0x436A
    priority2 := c.priority2, identity := s.clockId, steps := 0
    timeSource := if s.time.ppsLock.isSome then 0x90 else 0xA0 }

/-- The order of the algorithm: the smaller list is the better clock, by its grandmaster, its steps and the port that sends it. -/
def Announce.key (a : Announce) (sender : PortId) : List Nat :=
  [a.priority1, a.clockClass, a.accuracy, a.variance, a.priority2, a.identity, a.steps, sender.clock, sender.number]

/-- The identity of a gPTP port of the drive: port A is number 1, port B number 2. -/
def State.portId (q : Port) (s : State) : PortId := ⟨s.clockId, q.index + 1⟩

/-- Lexicographic order of two lists of numbers. -/
def listLt : List Nat → List Nat → Bool
  | [], [] => false
  | [], _ :: _ => true
  | _ :: _, [] => false
  | a :: as, b :: bs => if a = b then listLt as bs else decide (a < b)

/-- What a port has heard, one hop further on. -/
def GptpPort.offer (p : GptpPort) : Option Announce :=
  if p.asCapable then p.announce.map fun a => { a with steps := a.steps + 1 } else none

/-- The order of what a port has heard, where it has heard anything. -/
def GptpPort.offerKey (p : GptpPort) : Option (List Nat) := p.offer.map (Announce.key · p.sender)

/-- The port whose announcement beats the drive's own and the other port's. -/
def State.bestPort (s : State) : Option Port :=
  let own := s.ownAnnounce.key ⟨s.clockId, 0⟩
  let better (x : Option (List Nat)) : Bool := match x with | some k => listLt k own | none => false
  let a := (s.time.port.get .A).offerKey
  let b := (s.time.port.get .B).offerKey
  match better a, better b with
  | false, false => none
  | true, false => some .A
  | false, true => some .B
  | true, true => match a, b with
    | some x, some y => if listLt y x then some .B else some .A
    | _, _ => some .A

/-- What the drive announces on its ports that are not the slave port: the grandmaster it follows, or itself. -/
def State.toAnnounce (s : State) : Announce :=
  let a := match s.time.slave with
    | some q => ((s.time.port.get q).offer).getD s.ownAnnounce
    | none => s.ownAnnounce
  { a with path := a.path ++ [s.clockId] }

/-- The roles of a gPTP port (R181). -/
inductive GptpRole where
  | disabled | slave | master | passive
  deriving DecidableEq, Repr

/-- The role that the algorithm gives a port: a port that is not the slave port is passive where what it has heard is better
than what the drive would announce on it. -/
def State.gptpRole (q : Port) (s : State) : GptpRole :=
  let p := s.time.port.get q
  if !p.asCapable then .disabled
  else if s.time.slave = some q then .slave
  else match p.announce with
    | some a => if listLt (a.key p.sender) (s.toAnnounce.key (s.portId q)) then .passive else .master
    | none => .master

/-- A time of 2 to the given power of seconds, in ns. -/
def logNs (k : Int) : Nat := if 0 ≤ k then secs (2 ^ k.toNat) else secs 1 / 2 ^ (-k).toNat

/-- The algorithm run: the drive follows a port, is grandmaster, or neither. A change of role forgets the offsets, and
ends the lock on PPS_IN when the drive is no longer grandmaster. -/
def State.selectMaster (s : State) : State :=
  if !s.time.running then s
  else
    let best := s.bestPort
    let slave := match best with
      | some q => if ((s.time.port.get q).announce.map Announce.priority1).getD 255 < 255 then some q else none
      | none => none
    let gm := best.isNone && decide (s.timeCfg.gmCapable = 1)
    if slave = s.time.slave ∧ gm = s.time.grandmaster then s
    else
      let s := s.modTime fun t => { t with slave := slave, grandmaster := gm, offsets := [], ppsRejects := 0
                                           ppsLock := if gm then t.ppsLock else none
                                           syncDue := if gm then s.elapsed else t.syncDue }
      s.setSynced gm

/-! ## 802.1AS messages -/

/-- An 80-bit time-stamp of the standard, in ns. -/
def stampAt (off : Nat) (b : Bytes) : Nat := fieldAt off 6 b * 1000000000 + fieldAt (off + 6) 4 b

/-- The rate of the Follow_Up information TLV, in a Follow_Up or a one-step Sync. -/
def tlvRate (b : Bytes) : Int := if b.length < 76 ∨ fieldAt 44 2 b ≠ 3 then 0 else signExtend 4 (fieldAt 54 4 b)

/-- The clocks of the path trace TLV of an Announce. -/
def tlvPath (b : Bytes) : List Nat :=
  if b.length < 68 ∨ fieldAt 64 2 b ≠ 8 then []
  else (List.range (min (fieldAt 66 2 b) (b.length - 68) / 8)).map fun k => fieldAt (68 + 8 * k) 8 b

/-- The clock and port at an offset. -/
def portAt (off : Nat) (b : Bytes) : PortId := ⟨fieldAt off 8 b, fieldAt (off + 8) 2 b⟩

/-- A message as its bytes spell it; none where it is malformed or of a type the drive does not support. -/
def parseGptp (b : Bytes) : Option GptpFrame :=
  let type := fieldAt 0 1 b % 16
  let seq := fieldAt 30 2 b
  let corr : Int := signExtend 8 (fieldAt 8 8 b) / 65536
  let need := if type = 11 then 64 else if type = 12 then 34 else if type = 3 ∨ type = 10 then 54 else 44
  if b.length < need ∨ fieldAt 1 1 b % 16 ≠ 2 then none
  else
    let mk_ (m : GptpMsg) : Option GptpFrame := some ⟨fieldAt 4 1 b, m, portAt 20 b, signExtend 1 (fieldAt 33 1 b), none⟩
    match type with
    | 0 => mk_ (.sync seq (bit (fieldAt 6 1 b) 1) (stampAt 34 b) corr (tlvRate b))
    | 2 => mk_ (.pdelayReq seq)
    | 3 => mk_ (.pdelayResp seq (stampAt 34 b) corr (portAt 44 b))
    | 8 => mk_ (.followUp seq (stampAt 34 b) corr (tlvRate b))
    | 10 => mk_ (.pdelayRespFollowUp seq (stampAt 34 b) corr (portAt 44 b))
    | 11 => mk_ (.announce ⟨fieldAt 47 1 b, fieldAt 48 1 b, fieldAt 49 1 b, fieldAt 50 2 b, fieldAt 52 1 b, fieldAt 53 8 b,
        fieldAt 61 2 b, fieldAt 63 1 b, tlvPath b⟩)
    | 12 => mk_ .signaling
    | _ => none

/-- Type, sequence number and two-step flag of a message. -/
def GptpMsg.kind : GptpMsg → Nat × Nat × Bool
  | .sync n two .. => (0, n, two)
  | .pdelayReq n => (2, n, false)
  | .pdelayResp n .. => (3, n, true)
  | .followUp n .. => (8, n, false)
  | .pdelayRespFollowUp n .. => (10, n, false)
  | .announce _ => (11, 0, false)
  | .signaling => (12, 0, false)

/-- The correction that a message carries, in ns. -/
def GptpMsg.correction : GptpMsg → Int
  | .sync _ false _ c _ | .followUp _ _ c _ | .pdelayResp _ _ c _ | .pdelayRespFollowUp _ _ c _ => c
  | .sync .. | .pdelayReq _ | .announce _ | .signaling => 0

/-- An 80-bit time-stamp. -/
def stampBytes (ns : Nat) : Bytes := beBytes 6 (ns / 1000000000) ++ beBytes 4 (ns % 1000000000)

/-- A clock and port. -/
def PortId.encode (p : PortId) : Bytes := beBytes 8 p.clock ++ beBytes 2 p.number

/-- What follows the header of a message. -/
def GptpMsg.body : GptpMsg → Bytes
  | .sync .. | .signaling => zeros 10
  | .followUp _ origin _ rate => stampBytes origin ++ beBytes 2 3 ++ beBytes 2 28 ++ beBytes 3 0x0080C2 ++ beBytes 3 1 ++ beInt 4 rate ++ zeros 18
  | .pdelayReq _ => zeros 20
  | .pdelayResp _ t _ p | .pdelayRespFollowUp _ t _ p => stampBytes t ++ p.encode
  | .announce a => zeros 13 ++ beBytes 1 a.priority1 ++ beBytes 1 a.clockClass ++ beBytes 1 a.accuracy ++ beBytes 2 a.variance ++
      beBytes 1 a.priority2 ++ beBytes 8 a.identity ++ beBytes 2 a.steps ++ beBytes 1 a.timeSource ++
      beBytes 2 8 ++ beBytes 2 (8 * a.path.length) ++ a.path.flatMap (beBytes 8)

/-- The bytes of a message, of version 2.1 of the protocol on the PTP timescale. -/
def GptpFrame.encode (f : GptpFrame) : Bytes :=
  let (type, seq, two) := f.msg.kind
  beBytes 1 (0x10 + type) ++ beBytes 1 0x12 ++ beBytes 2 f.msg.length ++ beBytes 1 f.domain ++ zeros 1 ++
  beBytes 2 (0x200 * bitOf two + 8) ++ beInt 8 (f.msg.correction * 65536) ++ zeros 4 ++ f.source.encode ++ beBytes 2 seq ++ zeros 1 ++
  beInt 1 f.interval ++ f.msg.body

/-- An 802.1AS frame queued on a port with link. -/
def State.sendGptp (q : Port) (m : GptpMsg) (relayed : Option Relay) (s : State) : State :=
  if (s.portOf q).up then
    let interval : Int := match m with
      | .sync .. | .followUp .. => s.timeCfg.logSyncInterval
      | .pdelayReq _ => s.timeCfg.logPdelayInterval
      | .announce _ => 0
      | .pdelayResp .. | .pdelayRespFollowUp .. | .signaling => 0x7F
    s.modPort q fun p => { p with gptpQ := p.gptpQ ++ [⟨s.timeCfg.domain, m, s.portId q, interval, relayed⟩] }
  else s

/-- Two rates one after the other. -/
def rateProduct (a b : Int) : Int := a + b + a * b / 2 ^ 41

/-- A span scaled by a rate. -/
def rateScale (rate span : Int) : Int := span + span * rate / 2 ^ 41

/-- A Sync from the followed grandmaster, complete with its origin and correction: the offset, its correction, the
synchronised state, and the relay to the other port where that is a master port (R181, R184). `interval` is the sender's. -/
def State.syncHeard (q : Port) (seq origin : Nat) (corr rate : Int) (interval : Int) (receipt : Nat) (s : State) : State :=
  let p := s.time.port.get q
  let delay : Nat := p.delay.getD 0
  let s := s.modGptp q fun p => { p with syncBy := some (s.elapsed + 3 * logNs interval) }
  let offset : Int := (receipt : Int) - ((origin : Int) + corr + (delay : Int))
  let offsets := (offset :: s.time.offsets).take 8
  let s := s.modTime fun t => { t with offsets := offsets, gmOffset := offset }
  let s := s.correct offset
  let s := if 500 < offset.natAbs then s.setSynced false
    else if offsets.length = 8 ∧ offsets.all (fun (o : Int) => decide (o.natAbs ≤ 500)) then s.setSynced true else s
  if s.gptpRole q.other = .master then
    let r := rateProduct rate p.rate
    s.sendGptp q.other (.sync seq true origin corr r) (some ⟨receipt, delay, r⟩)
  else s

/-- A peer-delay exchange complete: the rate ratio to the neighbour from the exchange before it, the delay in the neighbour's
time, and whether the delay leaves the port capable (R181). -/
def GptpPort.measured (thresh t1 t2 t3 t4 : Nat) (p : GptpPort) : GptpPort :=
  let rate : Int := match p.lastResp with
    | some (u3, u4) => if u4 < t4 then (((t3 : Int) - u3) - ((t4 : Int) - u4)) * 2 ^ 41 / ((t4 : Int) - u4) else p.rate
    | none => p.rate
  let d := (rateScale rate ((t4 : Int) - t1) - ((t3 : Int) - t2)) / 2
  { p with delay := some d.toNat, asCapable := decide (d ≤ thresh), rate := rate, lastResp := some (t3, t4)
           t1 := none, t2 := none, t4 := none }

/-- GPTP_FRAME_RECEIVED (R181, R182, R184): a frame of the drive's domain is used by the time engine. -/
def State.gptpReceived (s : State) : State :=
  match s.takeFrame .gptp with
  | (none, s) => s
  | (some f, s) =>
    let q := f.rx.port
    let p := s.time.port.get q
    match parseGptp f.payload with
    | none => s
    | some g =>
      if g.domain ≠ s.timeCfg.domain ∨ g.source.clock = s.clockId ∨ !s.time.running then s
      else match g.msg with
        | .signaling => s
        | .pdelayReq seq => s.sendGptp q (.pdelayResp seq f.rx.stamp 0 g.source) none
        | .pdelayResp seq t2 corr requester =>
          if seq = p.pdelaySeq ∧ requester = s.portId q ∧ p.t1.isSome then
            s.modGptp q fun p => { p with t2 := some ((t2 : Int) + corr).toNat, t4 := some f.rx.stamp }
          else s
        | .pdelayRespFollowUp seq t3 corr requester =>
          match p.t1, p.t2, p.t4 with
          | some t1, some t2, some t4 =>
            if seq ≠ p.pdelaySeq ∨ requester ≠ s.portId q then s
            else (s.modGptp q (GptpPort.measured s.timeCfg.neighborThreshNs t1 t2 ((t3 : Int) + corr).toNat t4)).selectMaster
          | _, _, _ => s
        | .announce a =>
          if a.identity = s.clockId ∨ 255 ≤ a.steps ∨ a.path.contains s.clockId then s
          else (s.modGptp q fun p => { p with announce := some a, sender := g.source
                                              announceBy := s.elapsed + 3 * logNs g.interval }).selectMaster
        | .sync seq two origin corr rate =>
          if s.time.slave ≠ some q ∨ !p.asCapable then s
          else if two then s.modGptp q fun p => { p with syncSeq := some (seq, f.rx.stamp), syncBy := some (s.elapsed + 3 * logNs g.interval) }
          else s.syncHeard q seq origin corr rate g.interval f.rx.stamp
        | .followUp seq origin corr rate =>
          match p.syncSeq with
          | some (n, at_) =>
            if n = seq ∧ s.time.slave = some q then
              (s.modGptp q fun p => { p with syncSeq := none }).syncHeard q seq origin corr rate g.interval at_
            else s
          | none => s

/-- GPTP_FRAME_RECEIVED. -/
def execGptpFrameReceived (s : State) : Host.Outcome State Fault Refusal := s.gptpReceived.done

/-- SYNC_RECEIPT_TIMEOUT (R184): three intervals after the last Sync of the grandmaster that is followed, the drive goes to
holdover. -/
def State.syncTimeout (s : State) : State :=
  match s.time.slave with
  | none => s
  | some q => (((s.waitUntil ((s.time.port.get q).syncBy.getD s.elapsed)).modGptp q fun p => { p with syncBy := none }).modTime
      fun t => { t with offsets := [] }).setSynced false

/-- SYNC_RECEIPT_TIMEOUT. -/
def execSyncReceiptTimeout (s : State) : Host.Outcome State Fault Refusal := s.syncTimeout.done

/-- ANNOUNCE_RECEIPT_TIMEOUT (R181): the port's announcement is too old, and the algorithm runs again. -/
def State.announceTimeout (q : Port) (s : State) : State :=
  if (s.time.port.get q).announce.isSome then
    ((s.waitUntil (s.time.port.get q).announceBy).modGptp q fun p => { p with announce := none }).selectMaster
  else s

/-- ANNOUNCE_RECEIPT_TIMEOUT. -/
def execAnnounceReceiptTimeout (q : Port) (s : State) : Host.Outcome State Fault Refusal := (s.announceTimeout q).done

/-- SYNC_SEND (R181): the grandmaster's two-step Sync on each capable port, `TIME_LOG_SYNC_INTERVAL` after the last one. -/
def State.syncSend (s : State) : State :=
  if s.time.running ∧ s.time.grandmaster then
    let s := s.waitUntil s.time.syncDue
    let n := s.time.syncSeq
    let one (s : State) (q : Port) : State := if (s.time.port.get q).asCapable then s.sendGptp q (.sync n true 0 0 0) none else s
    (one (one s .A) .B).modTime fun t => { t with syncSeq := (n + 1) % 65536, syncDue := s.elapsed + logNs s.timeCfg.logSyncInterval }
  else s

/-- SYNC_SEND. -/
def execSyncSend (s : State) : Host.Outcome State Fault Refusal := s.syncSend.done

/-- ANNOUNCE_SEND (R181, R183): on each master port, the grandmaster's or the drive's own, 1 s after the last one. -/
def State.announceSend (s : State) : State :=
  if !s.time.running then s
  else
    let s := s.waitUntil s.time.announceDue
    let m : GptpMsg := .announce s.toAnnounce
    let one (s : State) (q : Port) : State := if s.gptpRole q = .master then s.sendGptp q m none else s
    (one (one s .A) .B).modTime fun t => { t with announceDue := s.elapsed + logNs 0 }

/-- ANNOUNCE_SEND. -/
def execAnnounceSend (s : State) : Host.Outcome State Fault Refusal := s.announceSend.done

/-- PDELAY_REQUEST (R181): a request on each port with link, `TIME_LOG_PDELAY_INTERVAL` after the last one; its exchange
replaces one still running. -/
def State.pdelayRequest (s : State) : State :=
  let s := if s.time.running then s.waitUntil s.time.pdelayDue else s
  let one (s : State) (q : Port) : State :=
    if s.time.running ∧ (s.portOf q).up then
      let n := ((s.time.port.get q).pdelaySeq + 1) % 65536
      (s.modGptp q fun p => { p with pdelaySeq := n, t1 := none, t2 := none, t4 := none }).sendGptp q (.pdelayReq n) none
    else s
  (one (one s .A) .B).when s.time.running fun t => t.modTime fun x => { x with pdelayDue := s.elapsed + logNs s.timeCfg.logPdelayInterval }

/-- PDELAY_REQUEST. -/
def execPdelayRequest (s : State) : Host.Outcome State Fault Refusal := s.pdelayRequest.done

/-- What the egress time-stamp of an 802.1AS frame brings about: t1 of a request, and the second message of a two-step
pair, whose correction grows by the residence time of a relayed Sync and the delay before it, scaled by the rate (R181). The
message timestamp point follows the 8 bytes of preamble (R180). -/
def State.gptpSelected (q : Port) (f : GptpFrame) (s : State) : State :=
  let now := s.time.stampAt (s.elapsed + 64 * bitNs (s.portOf q).speed)
  match f.msg with
  | .pdelayReq seq => s.modGptp q fun p => if p.pdelaySeq = seq then { p with t1 := some now } else p
  | .pdelayResp seq _ _ requester => s.sendGptp q (.pdelayRespFollowUp seq now 0 requester) none
  | .sync seq true origin corr rate => match f.relayed with
    | some r => s.sendGptp q (.followUp seq origin (corr + rateScale r.rate ((r.delay : Int) + ((now : Int) - r.receipt))) rate) none
    | none => s.sendGptp q (.followUp seq now 0 0) none
  | .sync .. | .followUp .. | .pdelayRespFollowUp .. | .announce .. | .signaling => s

/-! ## 1PPS -/

/-- PPS_OUT_EDGE (R49, R186): the next second boundary that lies at least 500 ms after the last rising edge. -/
def State.ppsOut (s : State) : State :=
  if !s.time.running ∨ s.mode = .off ∨ s.mode = .dusk then s
  else
    let b := (s.timeNs + 999999999) / 1000000000 * 1000000000
    let first := s.waitTime b
    let early := match s.time.ppsRise with
      | some r => decide (first.elapsed < r + ms 500)
      | none => false
    let s := if early then s.waitTime (b + 1000000000) else first
    s.modTime fun t => { t with ppsRise := some s.elapsed, ppsHigh := true }

/-- PPS_OUT_EDGE. -/
def execPpsOutEdge (s : State) : Host.Outcome State Fault Refusal := s.ppsOut.done

/-- PPS_OUT_FALLING_EDGE (R186): 100 ms after the rising edge. -/
def State.ppsFall (s : State) : State :=
  match s.time.ppsHigh, s.time.ppsRise with
  | true, some r => (s.waitUntil (r + ms 100)).modTime fun t => { t with ppsHigh := false }
  | _, _ => s

/-- PPS_OUT_FALLING_EDGE. -/
def execPpsOutFallingEdge (s : State) : Host.Outcome State Fault Refusal := s.ppsFall.done

/-- How PPS_IN is used now (R138, R187): mode 0x02 acts as 0x01 unless the drive is grandmaster. -/
def State.ppsMode (s : State) : Nat :=
  let m := s.timeCfg.ppsInMode
  if m = 2 ∧ !(s.timeCfg.gmCapable = 1 && s.time.grandmaster) then 1 else m

/-- An edge rejected in mode 0x02: the third in a row ends the lock. -/
def State.ppsReject (s : State) : State :=
  (s.count .ppsInRejected 1).modTime fun t =>
    if 3 ≤ t.ppsRejects + 1 then { t with ppsRejects := 0, ppsLock := none } else { t with ppsRejects := t.ppsRejects + 1 }

/-- An edge used in mode 0x02 (R187): it locks with a step, corrects by rate, or is rejected. -/
def State.ppsUse (stamp : Nat) (s : State) : State :=
  let nearest := (stamp + 500000000) / 1000000000 * 1000000000
  let offset : Int := (stamp : Int) - nearest
  let accept (s : State) : State := s.modTime fun t => { t with ppsLock := some s.elapsed, ppsRejects := 0, ppsIn := (stamp :: t.ppsIn).take 8 }
  match s.time.ppsLock with
  | none => (accept s).stepTime (-offset)
  | some last =>
    let since := s.elapsed - last
    if since < ms 999 ∨ ms 1001 < since ∨ 10000 < offset.natAbs then s.ppsReject
    else (accept s).correct offset

/-- PPS_IN_EDGE (R187): a rising edge with the low time before it and the high time after it, in ns. -/
def State.ppsEdge (lowNs highNs : Nat) (s : State) : State :=
  if !s.time.running ∨ s.ppsMode = 0 then s
  else if lowNs < 1000 ∨ highNs < 1000 then s.count .ppsInRejected 1
  else
    let stamp := s.timeNs
    let s := if s.ppsMode = 2 then s.ppsUse stamp else s.modTime fun t => { t with ppsIn := (stamp :: t.ppsIn).take 8 }
    s.waitUntil (s.elapsed + 1000)

/-- PPS_IN_EDGE. -/
def execPpsInEdge (lowNs highNs : Nat) (s : State) : Host.Outcome State Fault Refusal := (s.ppsEdge lowNs highNs).done

end Sys2Proof.Machine
end

