-- ==== Sys2Proof/Machine/Link.lean ====
section
/-!
DEFINITION. The rows of the ports: links, SGMII status, preemption verification, pause, ageing, queue timeouts, gates,
credit and the status outputs (chapters 2, 7 and 8).
-/
namespace Sys2Proof.Machine

/-! ## Frames that are discarded before their selection (R154, R190, R256) -/

/-- What the selection or the discard of a message's last frame ends: its request, or a closing session. -/
def State.messageOver (m : LyMsg) (s : State) : State :=
  if !m.ends then s
  else match s.ses.find m.session with
    | none => s
    | some x => match x.phase with
      | .closing id _ _ _ sent => if sent ∧ id = m.msgId then s.removeSess m.session else s.endFlight m.session m.msgId
      | .dropping .. => if m.kind = 0x05 then s.removeSess m.session else s.endFlight m.session m.msgId
      | .pending _ | .open => s.endFlight m.session m.msgId

/-- The message's result stands: an administrative one is formed at its selection alone (R323). -/
def LyMsg.formed (m : LyMsg) : Bool :=
  match m.body with
  | .admin .. => false
  | .answer _ | .raw _ => true

/-- Whether a message answers a request whose answers are cached (R280): the request's own result or refusal, not the answer to
a frame that failed (R225) or to an incomplete message (row 1 of Table 11-3), and not a cached answer sent again. -/
def LyMsg.cacheable (m : LyMsg) : Bool :=
  decide (m.gen = 2 ∧ m.kind = 0x11) && altersStore m.opcode &&
  (match m.body with
   | .answer _ => m.ends || !(m.status = 0x40 || m.status = 0x51)
   | .raw _ | .admin .. => false)

/-- The answer of an altering LY2 request enters the session's answer cache, once its result stands (R280). -/
def State.cacheAnswer (m : LyMsg) (s : State) : State :=
  if m.cacheable then
    s.modSess m.session fun x =>
      let total := m.reqTotal
      let c : CacheEntry := ⟨m.msgId, m.opcode, total, m.status, m.reason, m.bodyBytes, m.alive, s.elapsed, none⟩
      { x with cache := lastN 64 (x.cache ++ [c]) }
  else s

/-- What the discard of an endpoint entry ends. -/
def State.lost (q : Port) (e : EpEntry) (s : State) : State :=
  match e.load with
  | .raw _ | .dawn .. => s
  | .ly m => ((if m.kind = 0x12 then s.bump q .ly3CompletionLost else s).cacheAnswer m).messageOver m

/-! ## Links -/

/-- `n` more on a port counter. -/
def State.bumps (q : Port) (k : PortCounter) (n : Nat) (s : State) : State :=
  s.modNet fun x => { x with counters := { x.counters with port := x.counters.port.modify q (modifyAt k.idx (satAdd32 · n)) } }

/-- The port without its frames: link down, or PHY held in reset. -/
def PortState.drop (p : PortState) : PortState :=
  { p with up := false, pauseNegotiated := false, pauseInEffect := false, pauseForce := none, heldUntil := none
           pauseQ := [], gptpQ := [], epQ := [], fwdQ := [], onWire := none, cut := none, preempted := none, preempt := .off
           rxPart := none
           shaper5 := { p.shaper5 with cs := 0 }, shaper6 := { p.shaper6 with cs := 0 } }

/-- R154: a link down recognised. -/
def State.linkDown (q : Port) (s : State) : State :=
  let p := s.portOf q
  if !p.up then s
  else
    let n := p.pauseQ.length + p.gptpQ.length + p.fwdQ.length + natSum (p.epQ.map EpEntry.left)
    let s := (s.bump q .linkDown).bumps q .txDiscard n
    let s := s.modPort q PortState.drop
    let s := s.modNet fun x => { x with learn := x.learn.filter fun e => e.port ≠ q }
    let s := s.modTime fun t => { t with port := t.port.set q {} }
    let s := p.epQ.foldl (fun s e => s.lost q e) s
    (s.modSes fun x => { x with sessions := x.sessions.map fun e => if e.port = q then { e with linkLost := true } else e }).settleCloses.selectMaster

/-- LINK_DOWN. -/
def execLinkDown (q : Port) (s : State) : Host.Outcome State Fault Refusal := (s.linkDown q).done

/-- A port autonegotiates: in PHY mode, with `LINK_x_SPEED` 0x00 (Table 7-1). -/
def State.autoneg (q : Port) (s : State) : Bool := !s.start.straps.sgmii q && decide ((s.cfg.inUse.port.get q).speed = 0)

/-- What a PHY offers its partner (R151, R152): the speeds it advertises or forces, always at full duplex; PAUSE and ASM_DIR;
the multiport bit of 1000BASE-T. It never advertises Energy-Efficient Ethernet, and it resolves MDI and MDI-X in every mode. -/
structure PhyOffer where
  autoneg : Bool
  speeds : List Nat
  pause : Bool
  asmDir : Bool
  multiport : Bool
  halfDuplex : Bool := false
  eee : Bool := false
  autoMdix : Bool := true
  deriving DecidableEq, Repr

/-- The offer of a port in PHY mode whose PHY is not held in reset. -/
def State.phyOffer (q : Port) (s : State) : Option PhyOffer :=
  if s.start.straps.sgmii q ∨ (s.portOf q).phyReset then none
  else
    let auto := s.autoneg q
    let speeds := match (s.cfg.inUse.port.get q).speed with
      | 0 => [1000, 100, 10]
      | 1 => [100]
      | _ => [10]
    some { autoneg := auto, speeds := speeds, pause := auto && decide (s.cfg.inUse.bridge.pauseEnable = 1), asmDir := false, multiport := auto }

/-- Pause in effect (R152): resolved by autonegotiation, or `NET_PAUSE_ENABLE` 0x01 on a forced port or in SGMII mode. -/
def State.pauseApplies (q : Port) (resolved : Bool) (s : State) : Bool :=
  if s.autoneg q then resolved else decide (s.cfg.inUse.bridge.pauseEnable = 1)

/-- Completions kept across a start are queued once their port has link (R257). -/
def State.releaseKept (s : State) : State :=
  let ready := s.ses.kept.filter fun k => (s.portOf k.1).up
  let s := s.modSes fun x => { x with kept := x.kept.filter fun k => !(s.portOf k.1).up }
  ready.foldl (fun s k => s.enqueue k.1 { k.2 with queuedAt := s.elapsed }) s

/-- The events of a link-up at 100 Mb/s and 10 Mb/s (R203). -/
def State.noteDeadline (q : Port) (speed : Nat) (s : State) : State :=
  if speed = 100 ∧ s.cfg.inUse.protocol.ly3DeadlineUs < 40 then s.event .portDeadline q.index 100 40
  else if speed = 10 ∧ s.anyTenant 2 = true then s.event .portDeadline q.index 10 0
  else s

/-- R197: the slopes at a link-up, with the event when they are scaled. -/
def State.scaleAtLinkUp (q : Port) (speed : Nat) (s : State) : State :=
  let c := s.cfg.inUse.shaper.get q
  let sum := c.idleSlope5 + c.idleSlope6
  let s := s.setSlopes q
  if 75 * rateKbps speed < 100 * sum then s.event .slopesScaled q.index (750 * rateKbps speed / sum) 0 else s

/-- A port comes up at a speed. -/
def State.bringUp (q : Port) (speed : Nat) (resolved : Bool) (s : State) : State :=
  let s := if (s.portOf q).up then s.linkDown q else s
  let resolved := resolved && (s.phyOffer q).any PhyOffer.pause
  let s := s.modPort q fun p => { p with
    up := true, speed := speed, pauseNegotiated := resolved, pauseInEffect := s.pauseApplies q resolved
    preempt := if (s.cfg.inUse.port.get q).preempt = 1 then .verifying else .off
    verifyFrom := s.elapsed
    shaper5 := { p.shaper5 with cs := 0 }, shaper6 := { p.shaper6 with cs := 0 } }
  let s := (s.scaleAtLinkUp q speed).noteDeadline q speed
  let s := s.modNet fun n => { n with forwarding := n.forwarding || ((n.port.get q.other).up && decide (s.mode ≠ .off ∧ s.mode ≠ .dusk)) }
  let s := if s.start.limit = .awaitingLink then s.openLimit else s
  if s.servingMode.serving then
    (((s.sendDawn q dawnMac s.servingMode 0xFE).gratuitousArp q).unsolicited q).releaseKept
  else if s.mode = .rescue then s.sendDawn q dawnMac .rescue 0xFE
  else s

/-- The speed that a port in PHY mode may come up at (Table 7-1). -/
def State.speedAllowed (q : Port) (speed : Nat) (s : State) : Bool :=
  match (s.cfg.inUse.port.get q).speed with
  | 0 => decide (speed = 1000 ∨ speed = 100 ∨ speed = 10)
  | 1 => decide (speed = 100)
  | _ => decide (speed = 10)

/-- LINK_UP (R151, R152): a PHY port comes up at a speed, with symmetric pause resolved or not. -/
def State.linkUp (q : Port) (speed : Nat) (resolved : Bool) (s : State) : State :=
  if s.start.straps.sgmii q ∨ (s.portOf q).phyReset ∨ !s.speedAllowed q speed ∨ s.mode = .off ∨ s.mode = .dusk then s
  else s.bringUp q speed resolved

/-- LINK_UP. -/
def execLinkUp (q : Port) (speed : Nat) (resolved : Bool) (s : State) : Host.Outcome State Fault Refusal :=
  (s.linkUp q speed resolved).done

/-- SGMII_STATUS_CHANGE (R153). -/
def State.sgmiiStatus (q : Port) (up : Bool) (speed : Nat) (full : Bool) (s : State) : State :=
  if !s.start.straps.sgmii q ∨ (s.portOf q).phyReset ∨ s.mode = .off ∨ s.mode = .dusk then s
  else
    let s := s.modPort q fun p => { p with sgmii := some (up, speed, full) }
    if !up then s.linkDown q
    else if !full then (s.linkDown q).event .sgmiiRefused q.index 1 0
    else if !s.speedAllowed q speed then (s.linkDown q).event .sgmiiRefused q.index 2 0
    else if (s.portOf q).up ∧ (s.portOf q).speed = speed then s
    else s.bringUp q speed false

/-- SGMII_STATUS_CHANGE. -/
def execSgmiiStatusChange (q : Port) (up : Bool) (speed : Nat) (full : Bool) (s : State) : Host.Outcome State Fault Refusal :=
  (s.sgmiiStatus q up speed full).done

/-- The verification of preemption fails at this elapsed time, if it has not succeeded: verifyLimit 3 attempts of a
verifyTime of 10 ms each (R199). -/
def PortState.verifyEnd (p : PortState) : Nat := p.verifyFrom + 3 * ms 10

/-- PREEMPT_VERIFY_DONE (R199): success within the attempts makes preemption active; the failure comes after the last one. -/
def State.verifyDone (q : Port) (ok : Bool) (s : State) : State :=
  let p := s.portOf q
  if p.preempt = .verifying then
    if ok ∧ s.elapsed ≤ p.verifyEnd then s.modPort q fun p => { p with preempt := .active }
    else ((s.waitUntil p.verifyEnd).modPort q fun p => { p with preempt := .failed }).event .preemptVerifyFailed q.index 0 0
  else s

/-- PREEMPT_VERIFY_DONE. -/
def execPreemptVerifyDone (q : Port) (ok : Bool) (s : State) : Host.Outcome State Fault Refusal := (s.verifyDone q ok).done

/-! ## Pause (R166, R167) -/

/-- PAUSE_FRAME_RECEIVED: the quanta of the frame, of 512 bit times each, hold the port while pause is in effect. -/
def State.pauseReceived (s : State) : State :=
  match s.takeFrame .pause with
  | (none, s) => s
  | (some f, s) =>
    let p := s.portOf f.rx.port
    let quanta := fieldAt 2 2 f.payload
    if !p.pauseInEffect then s
    else s.modPort f.rx.port fun p =>
      if quanta = 0 then { p with heldUntil := none, heldLast := some s.elapsed }
      else { p with heldUntil := some (f.rx.at_ + quanta * 512 * bitNs p.speed) }

/-- PAUSE_FRAME_RECEIVED. -/
def execPauseFrameReceived (s : State) : Host.Outcome State Fault Refusal := s.pauseReceived.done

/-- PAUSE_QUANTA_EXPIRED: the port transmits again. -/
def State.pauseOver (q : Port) (s : State) : State :=
  match (s.portOf q).heldUntil with
  | none => s
  | some t => (s.waitUntil t).modPort q fun p => { p with heldUntil := none, heldLast := some (max s.elapsed t) }

/-- PAUSE_QUANTA_EXPIRED. -/
def execPauseQuantaExpired (q : Port) (s : State) : Host.Outcome State Fault Refusal := (s.pauseOver q).done

/-- PAUSE_REPEAT: the pause in force on a port is sent again after half its time. -/
def State.pauseAgain (q : Port) (s : State) : State :=
  match (s.portOf q).pauseForce with
  | none => s
  | some t =>
    let s := s.waitUntil t
    s.modPort q (PortState.putPause s.elapsed)

/-- PAUSE_REPEAT. -/
def execPauseRepeat (q : Port) (s : State) : Host.Outcome State Fault Refusal := (s.pauseAgain q).done

/-! ## Ageing and queue timeouts -/

/-- LEARN_ENTRY_AGED (R172): an entry leaves the table from 300 s after its last refresh. -/
def State.aged (mac : Mac) (s : State) : State :=
  match s.net.learn.find? fun e => e.mac = mac with
  | none => s
  | some e => (s.waitUntil (e.refreshed + secs 300)).modNet fun n => { n with learn := n.learn.filter fun x => x.mac ≠ mac }

/-- LEARN_ENTRY_AGED. -/
def execLearnEntryAged (mac : Mac) (s : State) : Host.Outcome State Fault Refusal := (s.aged mac).done

/-- TX_QUEUE_TIMEOUT (R173): the oldest forwarded frame of a port has waited 100 ms. -/
def State.fwdTimeout (q : Port) (s : State) : State :=
  match (s.portOf q).fwdQ with
  | [] => s
  | f :: rest => ((s.waitUntil (f.queuedAt + ms 100)).modPort q fun p => { p with fwdQ := rest }).bump q .txDiscard

/-- TX_QUEUE_TIMEOUT. -/
def execTxQueueTimeout (q : Port) (s : State) : Host.Outcome State Fault Refusal := (s.fwdTimeout q).done

/-- Room in the endpoint queue of a port taken by the frames that wait for it (R173). -/
def State.refill (q : Port) (s : State) : State := s.modPort q fun p => p.fillEp s.elapsed

/-- EP_TX_EXPIRED (R190, R256): the oldest endpoint frame of a port was not selected within 100 ms. -/
def State.epTimeout (q : Port) (s : State) : State :=
  match (s.portOf q).epQ with
  | [] => s
  | e :: rest =>
    let s := ((s.waitUntil (e.queued.headD e.queuedAt + ms 100)).modPort q fun p => { p with epQ := rest }).bumps q .epTxExpired e.left
    (s.lost q e).settleCloses.refill q

/-- EP_TX_EXPIRED. -/
def execEpTxExpired (q : Port) (s : State) : Host.Outcome State Fault Refusal := (s.epTimeout q).done

/-- STAT_ACT_EXPIRED (R43). -/
def State.actExpired (s : State) : State :=
  match s.net.actUntil with
  | none => s
  | some t => (s.waitUntil t).modNet fun n => { n with actUntil := none }

/-- STAT_ACT_EXPIRED. -/
def execStatActExpired (s : State) : Host.Outcome State Fault Refusal := s.actExpired.done

/-- STATUS_BLINK_TOGGLE (R41, R531): the output whose blink time runs out changes; in Overcast both change together. -/
def State.blink (fault : Bool) (s : State) : State :=
  let x := if fault then s.start.statFault else s.start.statReady
  match x.due with
  | none => s
  | some t => (s.waitUntil t).modStart fun st =>
      if s.mode = .overcast then { st with statReady := st.statReady.toggle, statFault := st.statReady.toggle }
      else if fault then { st with statFault := st.statFault.toggle }
      else { st with statReady := st.statReady.toggle }

/-- STATUS_BLINK_TOGGLE. -/
def execStatusBlinkToggle (fault : Bool) (s : State) : Host.Outcome State Fault Refusal := (s.blink fault).done

/-! ## Gates and credit -/

/-- GATE_ENTRY_START (R192): the next entry or cycle of the port's list begins. -/
def State.gateStart (q : Port) (s : State) : State :=
  if s.listInUse q then
    let s := s.waitTime (s.portOf q).gate.entryEnd
    s.modPort q fun p => { p with gate := p.gate.next (s.cfg.inUse.gates.get q) (decide (p.preempt = .active)) }
  else s

/-- GATE_ENTRY_START. -/
def execGateEntryStart (q : Port) (s : State) : Host.Outcome State Fault Refusal := (s.gateStart q).done

/-- A class has a frame queued, or the remainder of a preempted one (R195). -/
def PortState.waits (cls : Nat) (p : PortState) : Bool :=
  p.epQ.any (fun e => e.cls = cls) || p.fwdQ.any (fun f => f.cls = cls) ||
  (match p.preempted with | some (w, _) => w.cls = some cls | none => false)

/-- CREDIT_PER_BIT_TIME (R195): one bit time of one shaped class. -/
def State.creditBit (q : Port) (cls : Nat) (s : State) : State :=
  if s.shaped q cls ∧ (s.portOf q).up then
    s.modPort q fun p =>
      let sending := (match p.onWire with | some w => decide (w.cls = some cls) | none => false)
      p.modShaper cls (Shaper.bitTime (rateKbps p.speed) (bit p.gate.gates cls) sending (p.waits cls))
  else s

/-- CREDIT_PER_BIT_TIME. -/
def execCreditPerBitTime (q : Port) (cls : Nat) (s : State) : Host.Outcome State Fault Refusal := (s.creditBit q cls).done

end Sys2Proof.Machine
end

