-- ==== Sys2Proof/Machine/AtRest.lean ====
section
/-!
DEFINITION. Data at rest (R455): AES-256-XTS as IEEE 1619 defines it, the data units of an extent, and the bytes that pages and
DRAM lines hold.
-/
namespace Sys2Proof.Machine

/-! ## AES-256-XTS -/

/-- A tweak of 16 bytes, lowest first, multiplied by α. -/
def xtsNext (t : Bytes) : Bytes :=
  let carry := (t.getLastD 0).getLsbD 7
  match List.zipWith (fun (b low : Byte) => (b <<< 1) ||| (low >>> 7)) t (0#8 :: t) with
  | [] => []
  | b :: bs => (if carry then b ^^^ 0x87#8 else b) :: bs

/-- One block under a tweak. -/
def xtsBlock (ks : List Bytes) (t p : Bytes) : Bytes := xorBytes (aesBlock ks (xorBytes p t)) t

/-- The blocks of a data unit, the last two by ciphertext stealing where the unit is no whole number of blocks. -/
def xtsBlocks (ks : List Bytes) : Nat → Bytes → Bytes → Bytes
  | 0, _, _ => []
  | n + 1, t, p =>
    if p.isEmpty then []
    else if 16 < p.length ∧ p.length < 32 then
      let cc := xtsBlock ks t (p.take 16)
      let tail := p.drop 16
      xtsBlock ks (xtsNext t) (tail ++ cc.drop tail.length) ++ cc.take tail.length
    else xtsBlock ks t (p.take 16) ++ xtsBlocks ks n (xtsNext t) (p.drop 16)

/-- A data unit of at least 16 bytes under a key of 64 bytes and its sequence number of 16 bytes, most significant first. -/
def xtsEncrypt (key number unit : Bytes) : Bytes :=
  xtsBlocks (roundKeys (key.take 32)) (unit.length / 16 + 1) (aesBlock (roundKeys (key.drop 32)) number.reverse) unit

/-! ## Data units -/

/-- The data-unit sequence number of R455: WRITE_SEQ of the page, the offset in it, the unit's index, and 16 bits of 0. -/
def unitNumber (writeSeq offset index : Nat) : Bytes := beBytes 8 writeSeq ++ beBytes 2 offset ++ beBytes 4 index ++ zeros 2

/-- Bytes cut into units of 16 to 512 bytes; `fuel` bounds their number. -/
def cutUnits : Nat → Bytes → List Bytes
  | 0, _ => []
  | fuel + 1, b =>
    if b.isEmpty then []
    else if b.length ≤ 512 then [b]
    else
      let n := if b.length < 528 then b.length - 16 else 512
      b.take n :: cutUnits fuel (b.drop n)

/-- An area shorter than 16 bytes padded to 16; what it is padded with is open. -/
def padArea (b : Bytes) : Bytes := b ++ (List.range (16 - b.length)).map Config.pageFiller

/-- The units of an area that begins at an offset of a page with a WRITE_SEQ, encrypted one after the other: each with its
offset. `index` is the first one's. -/
def sealUnits (key : Bytes) (writeSeq : Nat) : Nat → Nat → List Bytes → List (Nat × Bytes)
  | _, _, [] => []
  | offset, index, u :: us =>
    (offset, xtsEncrypt key (unitNumber writeSeq offset index) u) :: sealUnits key writeSeq (offset + u.length) (index + 1) us

/-- An area of a page encrypted. -/
def sealArea (key : Bytes) (writeSeq offset index : Nat) (b : Bytes) : List (Nat × Bytes) :=
  sealUnits key writeSeq offset index (cutUnits (b.length / 496 + 1) b)

/-- Data bytes of a page. -/
def pageBytes : Nat := 16384

/-- An extent as it is programmed: KEY_HASH_FRAG of its tenant and key, its header with its key, which MK encrypts, and its
value bytes, if it has a value, which the tenant's DK encrypts. -/
structure ExtentImage where
  hash : Nat
  head : Bytes
  mapKey : Bytes
  value : Option Bytes
  dataKey : Bytes
  deriving DecidableEq, Repr

/-- The value area. -/
def ExtentImage.area (x : ExtentImage) : Bytes := (x.value.map padArea).getD []

/-- Bytes that an extent takes in its pages. -/
def ExtentImage.size (x : ExtentImage) : Nat := (padArea x.head).length + x.area.length

/-- What an extent that begins at an offset of its first page puts into its page number `k`, programmed with a WRITE_SEQ. -/
def ExtentImage.page (start k writeSeq : Nat) (x : ExtentImage) : List (Nat × Bytes) :=
  let head := padArea x.head
  let h := slice (k * pageBytes) pageBytes head
  let v := slice (k * pageBytes - head.length) (pageBytes - h.length) x.area
  let hs := sealArea x.mapKey writeSeq start 0 h
  hs ++ sealArea x.dataKey writeSeq (start + h.length) hs.length v

/-- The header and key of an extent in front of its value. The manual gives the header no layout (R381). -/
def State.extentImage (t : Nat) (k : Bytes) (version : Nat) (value : Option Bytes) (s : State) : ExtentImage :=
  { hash := Config.keyHash t k % 4294967296, head := Config.extentHeader t k version ++ k, mapKey := s.sec.mapKey.getD []
    value := value, dataKey := (s.sec.dk.getD t none).getD [] }

/-- A staged extent as it is programmed. -/
def State.imageOf (x : Extent) (s : State) : ExtentImage :=
  match x.change with
  | .put t k v => s.extentImage t k v.num (some x.data)
  | .segment t k v _ => s.extentImage t k v.num (some x.data)
  | .delete t k => s.extentImage t k 0 none
  | .rangeDelete t start .. => s.extentImage t start 0 none

/-- A version as it is programmed again at a new place, from the plain bytes of the old one (R455). -/
def State.imageOfVersion (t : Nat) (k : Bytes) (num : Nat) (s : State) : ExtentImage :=
  let v := (findKey s.store.flash t k).bind fun r => r.versions.find? fun v => v.num = num
  s.extentImage t k num (some ((v.map Version.value).getD []))

/-! ## What a page and a DRAM line hold -/

/-- Bytes with a piece laid over them. -/
def overlay (b : Bytes) (piece : Nat × Bytes) : Bytes := b.take piece.1 ++ piece.2 ++ b.drop (piece.1 + piece.2.length)

/-- The data bytes of a page from the pieces programmed into it; what lies between them is open. -/
def pageData (body : List (Nat × Bytes)) : Bytes :=
  (body.foldl overlay ((List.range pageBytes).map Config.pageFiller)).take pageBytes

/-- The exclusive-or of the data bytes of pages (R355). -/
def parityData (bodies : List (List (Nat × Bytes))) : Bytes :=
  bodies.foldl (fun acc b => xorBytes acc (pageData b)) (zeros pageBytes)

/-- A 64-byte line as DRAM holds it: under the DRAM key, with the line's address as tweak (Table 18-1). -/
def State.dramLine (addr : Nat) (line : Bytes) (s : State) : Bytes := xtsEncrypt s.sec.dramKey (beBytes 16 addr) line

end Sys2Proof.Machine
end

