-- ==== Sys2Proof/Machine/Journal.lean ====
section
/-!
DEFINITION. Space, bands, page programs and the map journal (R346 to R355, R365, R368, R379 to R390).
-/
namespace Sys2Proof.Machine

/-- Flash changed. -/
def State.modMedia (f : MediaState → MediaState) (s : State) : State := { s with media := f s.media }
/-- The journal changed. -/
def State.modJournal (f : JournalState → JournalState) (s : State) : State := { s with journal := f s.journal }

/-! ## Figures of the parts (Tables 14-1 and 14-2) -/

/-- Dies of a part. -/
def dieCount : Part → Nat
  | .ekv5240 => 16
  | .ekv5480 => 32

/-- The collection reserve. -/
def collectionReserve : Part → Nat
  | .ekv5240 => 32
  | .ekv5480 => 64

/-- The Dusk reserve, which is also half the Overcast level. -/
def duskReserve : Nat := 16

/-- The most blocks that index and journal take (Table 14-2). -/
def indexLimit : Part → Nat
  | .ekv5240 => 1264
  | .ekv5480 => 2528

/-- The Overcast level. -/
def overcastLevel : Nat := 32

/-- Good data-area blocks of a die lie from block 4 to block 4,019: four blocks of each die form the system region and
the factory-retired ones come last (the manual gives the counts; their places are the model's). -/
def firstBlock : Nat := 4
/-- One past the last good block of a die at shipment. -/
def endBlock : Nat := 4020

/-- A physical page address (R347). -/
def pageAddr (b : BlockId) (page : Nat) : Nat := b.die * 2 ^ 20 + b.block * 2 ^ 8 + page

/-- The block of a physical page address. -/
def blockOf (addr : Nat) : BlockId := ⟨addr / 2 ^ 20 % 32, addr / 2 ^ 8 % 4096⟩

/-! ## Space (R348, R349) -/

/-- The spare pool. -/
def MediaState.spare (m : MediaState) : Nat := m.good - m.inService

/-- A placement whose version flash still holds: its pages are valid data. -/
def State.live (s : State) (p : Placement) : Bool :=
  match findKey s.store.flash p.tenant p.key with
  | none => false
  | some r => r.versions.any fun v => v.num = p.version

/-- Whether any valid data still lies in a block. -/
def State.holdsLive (b : BlockId) (s : State) : Bool :=
  s.media.placed.any fun p => s.live p && p.pages.any fun a => blockOf a = b

/-- A block of an open band. -/
def MediaState.inOpenBand (b : BlockId) (m : MediaState) : Bool := m.bands.any fun x => x.closed.isNone && x.blocks.contains b

/-- Listed blocks that hold valid data or lie in an open band (R349). -/
def State.usedBlocks (s : State) : Nat := (s.media.blocks.filter fun r => s.media.inOpenBand r.id || s.holdsLive r.id).length

/-- The free level F: the free blocks less the spare pool. Index and journal take further blocks. -/
def State.free (s : State) : Nat := s.media.good - s.usedBlocks - s.media.indexErases.length - s.media.spare

/-- FREE_BLOCKS: F / W in 0.01 %. -/
def State.freePct (s : State) : Nat := if s.media.inService = 0 then 0 else s.free * 10000 / s.media.inService

/-- A listed block. -/
def MediaState.find (m : MediaState) (b : BlockId) : Option BlockRec := m.blocks.find? fun r => r.id = b

/-- A block's record replaced by a function of it, listed if it was not. -/
def MediaState.modBlock (b : BlockId) (f : BlockRec → BlockRec) (m : MediaState) : MediaState :=
  match m.find b with
  | some _ => { m with blocks := m.blocks.map fun r => if r.id = b then f r else r }
  | none => { m with blocks := m.blocks ++ [f { id := b, use := .free }] }

/-- Erase count of a block. -/
def MediaState.erases (m : MediaState) (b : BlockId) : Nat := ((m.find b).map BlockRec.erases).getD 0

/-- A die's record. -/
def MediaState.die (m : MediaState) (d : Nat) : Die := m.dies.getD d {}

/-! ## Choice of blocks (R354, R365) -/

/-- The first block of a die that was never programmed and is not named in `taken`. -/
def MediaState.fresh (m : MediaState) (d : Nat) (taken : List BlockId) : Option BlockId :=
  ((List.range (m.blocks.length + m.deadwood.length + taken.length + 1)).map fun k => (⟨d, firstBlock + k⟩ : BlockId)).find?
    fun b => decide (b.block < endBlock) && (m.find b).isNone && !m.deadwood.contains b && !taken.contains b

/-- The least worn of some blocks. -/
def leastWorn : List BlockRec → Option BlockRec
  | [] => none
  | r :: rs => match leastWorn rs with
    | none => some r
    | some q => if r.erases ≤ q.erases then some r else some q

/-- The erase counts of all good data-area blocks that have been programmed, those of the index and the journal among them. -/
def MediaState.eraseCounts (m : MediaState) : List Nat := m.blocks.map BlockRec.erases ++ m.indexErases

/-- The highest erase count among the good data-area blocks. -/
def MediaState.highestErases (m : MediaState) : Nat := m.eraseCounts.foldl max 0

/-- The lowest erase count among the good data-area blocks. -/
def MediaState.lowestErases (m : MediaState) : Nat :=
  if m.eraseCounts.length < m.good then 0
  else match m.eraseCounts with
    | [] => 0
    | n :: ns => ns.foldl min n

/-- A block that a band can take: one that is emptied and erased, or was never programmed. -/
def MediaState.usable (m : MediaState) (b : BlockId) : Bool :=
  !(m.die b.die).failed && !m.deadwood.contains b && (match m.find b with
    | some r => decide (r.use = .free)
    | none => true)

/-- Blocks of a die that a band can take: the erased ones, and those never programmed. -/
def MediaState.freeOnDie (m : MediaState) (d : Nat) : Nat :=
  let listed := m.blocks.filter fun r => r.id.die = d
  let erased := listed.filter fun r => r.use = .free && !m.deadwood.contains r.id
  erased.length + (endBlock - firstBlock - listed.length - (m.deadwood.filter fun b => b.die = d).length)

/-- The block that a band takes from a die: the least worn free one that no band before it is to take, within the spread limit of
R365. -/
def MediaState.pick (m : MediaState) (taken : List BlockId) (d : Nat) : Option BlockId :=
  if (m.die d).failed then none
  else match m.fresh d taken with
    | some b => some b
    | none =>
      let free := m.blocks.filter fun r => r.id.die = d && r.use = .free && !taken.contains r.id && !m.deadwood.contains r.id
      match leastWorn free with
      | none => none
      | some r => if r.erases < m.lowestErases + 3000 ∨ m.freeOnDie d = 1 then some r.id else none

/-- The blocks of a new band, one from each die that has one. -/
def MediaState.bandBlocks (p : Part) (taken : List BlockId) (m : MediaState) : List BlockId :=
  (List.range (dieCount p)).filterMap (m.pick taken)

/-! ## Page programs -/

/-- The next WRITE_SEQ issued (R380). -/
def State.nextSeq (s : State) : State := s.modJournal fun j => { j with writeSeq := j.writeSeq + 1 }

/-- What a page program puts into a page: KEY_HASH_FRAG of the extent that begins at its start, if one does, and its data bytes,
which the encryption of R455 makes depend on its WRITE_SEQ. -/
structure PageLoad where
  first : Option Nat := none
  body : Nat → List (Nat × Bytes) := fun _ => []

/-- One page programmed with its tag (R353, R379): counted in MEDIA_BYTES_WRITTEN. -/
def State.programPage (addr : Nat) (kind : PageKind) (reloc : Bool) (band : Nat) (x : PageLoad) (s : State) : State :=
  let s := s.nextSeq
  let tag : PageTag :=
    { addr := addr, kind := kind, reloc := reloc, writeSeq := s.journal.writeSeq, time := s.timeNow, temp := s.power.junction
      band := band, jseq := s.journal.jseq, extents := bitOf x.first.isSome, keyHash := x.first.getD 0
      firstExtent := if x.first.isSome then 0 else 0xFFFF, body := x.body s.journal.writeSeq }
  (s.modMedia fun m => { m.modBlock (blockOf addr) fun r => { r with scrubbed := s.scrubTime } with
    mediaBytes := min (2 ^ 64 - 1) (m.mediaBytes + 16384)
    tags := tag :: m.tags.filter fun t => t.addr ≠ addr }).modJournal fun j =>
      { j with lastTime := j.lastTime.later s.timeNow, tailPages := if kind = .data then j.tailPages + 1 else j.tailPages,
               unrecorded := if kind = .data ∧ j.unrecorded = none then some s.elapsed else j.unrecorded }

/-- The open band of a stream. -/
def MediaState.openBand (reloc : Bool) (m : MediaState) : Option Band :=
  m.bands.find? fun b => b.reloc = reloc && b.closed.isNone

/-- One band changed. -/
def MediaState.modBand (id : Nat) (f : Band → Band) (m : MediaState) : MediaState :=
  { m with bands := m.bands.map fun b => if b.id = id then f b else b }

/-- Data blocks of a band. -/
def Band.data (b : Band) : List BlockId := b.blocks.filter fun x => x ≠ b.parity

/-- What a stream leaves of F when it opens a band (R368): the drain both reserves, in Dusk the collection reserve, and
relocation the Dusk reserve. -/
def State.reserve (reloc : Bool) (s : State) : Nat :=
  if reloc then duskReserve else if s.mode = .dusk then collectionReserve s.fused.part else collectionReserve s.fused.part + duskReserve

/-- The bands that the newest entry names for a stream (R386). -/
def JournalState.named (reloc : Bool) (j : JournalState) : List (List BlockId) := if reloc then j.nextReloc else j.nextDrain

/-- The next band of a stream: the blocks named for it that can be taken, at least 3 of them, if its reserve stays (R354, R368,
R386). -/
def State.nextBandOf (reloc : Bool) (s : State) : Option Band :=
  match s.journal.named reloc with
  | [] => none
  | bs :: _ =>
    let blocks := bs.filter s.media.usable
    let id := s.media.nextBand
    if blocks.length < 3 ∨ s.free < blocks.length + s.reserve reloc then none
    else some { id := id, reloc := reloc, blocks := blocks, parity := blocks.getD (id % blocks.length) ⟨0, 0⟩ }

/-- A map change not yet recorded (R385). -/
def State.mapChanged (s : State) : State :=
  s.modJournal fun j => { j with unrecorded := if j.unrecorded = none then some s.elapsed else j.unrecorded }

/-- The stream's next band opened, a change of the map. -/
def State.openBandFor (reloc : Bool) (s : State) : State :=
  match s.nextBandOf reloc with
  | none => s
  | some b =>
    let s := s.modMedia fun m =>
      let m := b.blocks.foldl (fun m x => m.modBlock x fun r => { r with use := if x = b.parity then .parity b.id else .data b.id }) m
      { m with bands := m.bands ++ [b], nextBand := m.nextBand + 1 }
    (s.modJournal fun j => if reloc then { j with nextReloc := j.nextReloc.drop 1 } else { j with nextDrain := j.nextDrain.drop 1 }).mapChanged

/-- The block and page that a stream programs next: in its open band, or in the band it opens next. -/
def State.nextPage (reloc : Bool) (s : State) : Option (BlockId × Nat) :=
  match (s.media.openBand reloc).or (s.nextBandOf reloc) with
  | some b => (b.data[b.col]?).map fun x => (x, b.row)
  | none => none

/-- In a start, and in Rescue, which reads no journal, the media scheduler programs nothing of its own (R383). -/
def State.halted (s : State) : Bool := decide (s.mode = .coldStart ∨ s.mode = .warmStart ∨ s.mode = .rescue)

/-- Whether the media scheduler may start a data-band program (R383, R387, R390). -/
def State.mayProgram (s : State) : Bool :=
  decide (s.journal.tailPages < (s.journal.intervalMib + 16) * 64) && !s.journal.bankHold && !s.halted

/-- A die operation put in the queue. -/
def State.addOp (kind : OpKind) (why : Purpose) (b : BlockId) (page : Nat) (s : State) : State :=
  s.modMedia fun m => { m with
    waiting := m.waiting ++ [{ id := m.nextOp, kind := kind, purpose := why, die := b.die, block := b.block, page := page, arrived := s.elapsed }]
    nextOp := m.nextOp + 1 }

/-- The data bytes of a row's parity page: the exclusive-or of the row's data pages (R355). -/
def MediaState.rowParity (b : Band) (m : MediaState) : List (Nat × Bytes) :=
  [(0, parityData (b.data.filterMap fun x => (m.tags.find? fun t => t.addr = pageAddr x b.row && t.band = b.id).map PageTag.body))]

/-- Every data page of a band is read for its close verify (R356). -/
def State.verifyBand (b : Band) (s : State) : State := b.data.foldl (fun s x => s.addOp .read (.verify b.id) x 0) s

/-- The row's parity page (R355), and the closing of a band whose last row is complete, with its close verify. -/
def State.endRow (id : Nat) (s : State) : State :=
  match s.media.bands.find? fun b => b.id = id with
  | none => s
  | some b =>
    let s := s.when (b.blocks.contains b.parity) fun s =>
      s.programPage (pageAddr b.parity b.row) .parity b.reloc b.id { body := fun _ => s.media.rowParity b }
    let last := decide (255 ≤ b.row)
    let s := s.modMedia fun m =>
      let m := m.modBand id fun b => { b with row := b.row + 1, col := 0, closed := if last then some m.closings else none }
      if last then { m with closings := m.closings + 1 } else m
    if last then s.verifyBand b else s

/-- The rest of a row filled (R355): after Dusk's writing, or when a die drops out of an open band. -/
def State.fillRow (id : Nat) (s : State) : State :=
  match s.media.bands.find? fun b => b.id = id with
  | none => s
  | some b =>
    if b.col = 0 ∨ b.closed.isSome then s
    else ((b.data.drop b.col).foldl (fun s x => s.programPage (pageAddr x b.row) .fill b.reloc b.id {}) s).endRow id

/-- What page number `k` of an extent is programmed with. -/
def ExtentImage.load (k : Nat) (x : ExtentImage) : PageLoad :=
  { first := if k = 0 then some x.hash else none, body := fun q => x.page 0 k q }

/-- The last `n` pages of an extent programmed in a stream, from its page `k` on: the state after them and their addresses. Where
no band can be opened the data stays where it is and no address results. -/
def State.programData (reloc : Bool) (x : ExtentImage) : Nat → Nat → State → State × List Nat
  | _, 0, s => (s, [])
  | k, n + 1, s =>
    let s := if (s.media.openBand reloc).isNone then s.openBandFor reloc else s
    match s.media.openBand reloc with
    | none => (s, [])
    | some b =>
      let addr := pageAddr (b.data.getD b.col ⟨0, 0⟩) b.row
      let s := s.programPage addr .data reloc b.id (x.load k)
      let s := s.modMedia (MediaState.modBand b.id fun b => { b with col := b.col + 1 })
      let s := if b.col + 1 = b.data.length then s.endRow b.id else s
      let (s, rest) := State.programData reloc x (k + 1) n s
      (s, addr :: rest)

/-- The page that a stream programmed last: the place of an extent that shares it. -/
def MediaState.lastPage (m : MediaState) : List Nat := (m.tags.find? fun t => t.kind = .data).toList.map PageTag.addr

/-! ## Journal entries (R382 to R388) -/

/-- The frontier of a stream. -/
def State.frontier (reloc : Bool) (s : State) : Frontier :=
  match s.media.openBand reloc with
  | none => {}
  | some b => ⟨b.id, b.row⟩

/-- Two bands named ahead for a stream. -/
def State.nameBands (reloc : Bool) (s : State) : State :=
  let own := if reloc then s.journal.nextReloc else s.journal.nextDrain
  let taken := (s.journal.nextReloc ++ s.journal.nextDrain).flatten
  let a := if own.length < 2 then own ++ [s.media.bandBlocks s.fused.part taken] else own
  let b := if a.length < 2 then a ++ [s.media.bandBlocks s.fused.part (taken ++ a.flatten)] else a
  s.modJournal fun j => if reloc then { j with nextReloc := b } else { j with nextDrain := b }

/-- An entry carries everything a checkpoint carries (Table 15-2). -/
def EntryKind.full : EntryKind → Bool
  | .checkpoint | .stop => true
  | .none | .delta | .dusk | .recovery | .open => false

/-- Before a full entry the index pages that have changed are programmed, each on two dies (R388). How many they are, and the
blocks that index and journal then take, with their erase counts, are free values. -/
def State.writeIndex (s : State) : State :=
  let n := Config.indexPages s.journal.writeSeq
  let blocks := min (indexLimit s.fused.part) (Config.indexBlocks s.journal.writeSeq)
  (s.modJournal fun j => { j with writeSeq := j.writeSeq + 2 * n }).modMedia fun m => { m with
    mediaBytes := min (2 ^ 64 - 1) (m.mediaBytes + 32768 * n)
    indexErases := (List.range blocks).map (Config.indexErases s.journal.writeSeq) }

/-- A complete journal entry written on two dies: the changes recorded, the frontier and the next bands named, released
blocks given to erasure (R389), and the pages 0x02 and 0x04 and the pin set carried with it. -/
def State.writeEntry (kind : EntryKind) (s : State) : State :=
  let s := (s.nameBands false).nameBands true
  let s := (s.when kind.full State.writeIndex).nextSeq.nextSeq
  let drain := s.frontier false
  let reloc := s.frontier true
  let s := s.modJournal fun j => { j with
    intervalMs := s.cfg.inUse.journal.intervalMs, intervalMib := s.cfg.inUse.journal.intervalMib
    newest := kind, jseq := (j.jseq + 1) % 2 ^ 32, time := s.timeNow
    lastTime := if kind = .recovery then j.lastTime.later s.timeNow else s.timeNow
    recordedSeq := j.writeSeq
    unrecorded := none, tailPages := 0
    deltas := if kind.full then 0 else if kind = .delta then j.deltas + 1 else j.deltas
    drain := drain, reloc := reloc
    checkpoint := if kind.full then s.media.blocks else j.checkpoint
    anchor := if j.pages = 255 then j.anchor + 1 else j.anchor
    pages := (j.pages + 1) % 256
    duskRecord := if kind = .dusk then j.duskRecord else none }
  let gone := (s.media.blocks.filter fun r => r.use = .released).map BlockRec.id
  let fresh := gone.filter fun b => !(s.media.waiting ++ s.media.busy).any fun o => o.purpose = .erase && o.die = b.die && o.block = b.block
  let s := fresh.foldl (fun s b => s.addOp .erase .erase b 0) s
  let s := s.modMedia fun m => { m with mediaBytes := min (2 ^ 64 - 1) (m.mediaBytes + 32768) }
  (s.modLog LogState.persist).modStore fun x => { x with flashPins := x.pins }

/-- TAG_CHECK of a page tag: CRC-32C of offsets 0 to 59 with the page address and WRITE_SEQ folded in (R430). -/
def PageTag.check (t : PageTag) : Bytes → Nat := fun body => crc32c (body ++ beBytes 4 t.addr ++ beBytes 8 t.writeSeq)

/-- The 64 bytes of a page tag (Table 15-1, R430). -/
def PageTag.encode (t : PageTag) : Bytes :=
  let body := beBytes 1 1 ++ beBytes 1 t.kind.code ++ beBytes 1 (bitOf t.reloc + 2 * bitOf t.mirror) ++ beBytes 1 t.extents ++
    beBytes 8 t.writeSeq ++ beBytes 4 t.keyHash ++ beBytes 6 t.time.s ++ beInt 2 t.temp ++ beBytes 4 t.time.ns ++
    beBytes 2 t.firstExtent ++ zeros 2 ++ beBytes 4 t.band ++ beBytes 4 t.jseq ++ zeros 20
  body ++ beBytes 4 (t.check body)

end Sys2Proof.Machine
end

