-- ==== Sys2Proof/Machine/Media.lean ====
section
/-!
DEFINITION. The media rows: the work of the dies, retirement, die failure, Overcast, collection, scrub, the drain of
extents, the map journal's flushes and the expiry sweep (chapters 14 and 15).
-/
namespace Sys2Proof.Machine

/-! ## Read thresholds (R360) -/

/-- A of Table 14-5: the age in seconds. -/
def ageTerm (age : Nat) : Int :=
  if age < 3600 then 0 else if age < 86400 then 1 else if age < 7 * 86400 then 2 else if age < 30 * 86400 then 3
  else if age < 90 * 86400 then 4 else if age < 365 * 86400 then 5 else 6

/-- W of Table 14-5: the erase count of the block. -/
def wearTerm (erases : Nat) : Int := if erases < 50000 then 0 else if erases < 90000 then 1 else 2

/-- T of Table 14-5: the junction now less the junction at program, in 0.1 °C. The rows leave −40 to −39 °C and 39 to
40 °C between them; both read as 0. -/
def tempTerm (diff : Int) : Int := if diff ≤ -400 then -1 else if 400 ≤ diff then 1 else 0

/-- The threshold index k of a read of a page, with the band's tracked index (R360). -/
def State.threshold (addr : Nat) (s : State) : Nat :=
  match s.media.tags.find? fun t => t.addr = addr with
  | none => 0
  | some t =>
    let k := (clampInt 0 15 (ageTerm ((s.timeNow.toNs - t.time.toNs) / 1000000000) + wearTerm (s.media.erases (blockOf addr)) +
      tempTerm (s.power.junction - t.temp))).toNat
    max k (((s.media.bands.find? fun b => b.id = t.band).map Band.tracked).getD 0)

/-! ## Read steps (R353, R361, Table 14-6) -/

/-- The indices that step 2 reads at, in order, after a first read at `k`. -/
def secondReads (k : Nat) : List Nat := [min 15 (k + 1), k - 1, min 15 (k + 2), min 15 (k + 3)]

/-- The most bit errors in a codeword that hard-decision decoding corrects. -/
def hardLimit : Nat := 72

/-- The page's row still has its parity: its band is open or in close verify. -/
def State.hasParity (b : BlockId) (s : State) : Bool :=
  s.media.bands.any fun x => x.blocks.contains b && x.blocks.contains x.parity && decide (b ≠ x.parity) && !x.verified

/-- Whether a read of a block at `k` can decode as reported. -/
def State.canDecode (b : BlockId) (k step index corrected : Nat) (s : State) : Bool :=
  match step with
  | 1 => decide (index = k ∧ corrected ≤ hardLimit)
  | 2 => (secondReads k).contains index && decide (corrected ≤ hardLimit)
  | 3 => (secondReads k).any (fun i => decide (index ≤ i + 1 ∧ i ≤ index + 1)) && decide (index ≤ 15)
  | 4 => s.hasParity b
  | _ => false

/-- Whether an operation can end in a result: a read in a decoded or an uncorrectable page, a program and an erase in a status. -/
def State.canEnd (o : DieOp) (r : DieResult) (s : State) : Bool :=
  match o.kind, r with
  | .read, .decoded step index corrected => s.canDecode ⟨o.die, o.block⟩ o.threshold step index corrected
  | .read, .uncorrectable => true
  | .read, .passed => false
  | .read, .failed => false
  | .program, .passed => true
  | .program, .failed => true
  | .erase, .passed => true
  | .erase, .failed => true
  | .program, .decoded .. => false
  | .program, .uncorrectable => false
  | .erase, .decoded .. => false
  | .erase, .uncorrectable => false

/-- Reads of a page that decodes at a step and an index, or at none (step 5). -/
def readsTaken (k step index : Nat) : Nat :=
  match step with
  | 1 => 1
  | 2 => 2 + (secondReads k).idxOf index
  | _ => 8

/-! ## Order of work (R357, Table 14-3) -/

/-- The row of Table 14-3 that an operation stands in. -/
def State.opRow (s : State) (o : DieOp) : Nat :=
  if o.promoted then 2
  else match o.purpose with
    | .held .. | .partialRow _ => 2
    | .drain _ => if s.stagingLimit < 2 * s.staged then 3 else 5
    | .journal | .index => 3
    | .move (.row ..) => 2
    | .collect _ | .move (.band _) | .erase => if s.media.fg then 4 else 6
    | .verify _ | .probe _ | .scrub | .refresh | .levelling | .move (.block _) => 6

/-- An operation that relocates data or leads to it. -/
def Purpose.relocates : Purpose → Bool
  | .collect _ | .refresh | .levelling | .partialRow _ | .move _ => true
  | .held .. | .drain _ | .journal | .index | .verify _ | .probe _ | .scrub | .erase => false

/-- An operation of collection. -/
def Purpose.collects : Purpose → Bool
  | .collect _ | .move (.band _) => true
  | .move (.block _) | .move (.row ..) | .refresh | .levelling | .partialRow _ | .held .. | .drain _ | .journal | .index
  | .verify _ | .probe _ | .scrub | .erase => false

/-- A program of a data band: it waits while the tail is full, and for the bank after a cold start (R387, R390). -/
def Purpose.fillsBand : Purpose → Bool
  | .drain _ | .move _ => true
  | .collect _ | .refresh | .levelling | .partialRow _ | .held .. | .journal | .index | .verify _ | .probe _ | .scrub | .erase => false

/-- In Brace scrubbing and background collection pause (R68); in a start nothing is relocated (R383), and in Overcast nothing
is collected (R375). -/
def State.opRuns (s : State) (o : DieOp) : Bool :=
  decide (s.mode ≠ .dusk ∧ s.mode ≠ .off ∧ s.mode ≠ .deepSleep) &&
  !(s.halted && o.purpose.relocates) &&
  (!o.purpose.fillsBand || s.mayProgram) &&
  !(decide (s.servingMode = .overcast) && o.purpose.collects) &&
  !(decide (s.mode = .brace) && (decide (o.purpose = .scrub) || (o.purpose.collects && !s.media.fg)))

/-- Whether an operation goes before a later one: by their rows, and among scrubs the overdue ones first (R357, R363). -/
def State.opBefore (s : State) (o p : DieOp) : Bool :=
  decide (s.opRow o < s.opRow p) ||
  (decide (s.opRow o = s.opRow p) && !(decide (o.purpose = .scrub ∧ p.purpose = .scrub) && !o.overdue && p.overdue))

/-- The first operation of the first non-empty row. -/
def State.firstOp (s : State) : List DieOp → Option DieOp
  | [] => none
  | o :: os => match s.firstOp os with
    | none => some o
    | some p => if s.opBefore o p then some o else some p

/-- An idle die takes its next operation. -/
def State.kick (d : Nat) (s : State) : State :=
  if (s.media.die d).failed ∨ s.media.busy.any (fun o => o.die = d) then s
  else match s.firstOp (s.media.waiting.filter fun o => o.die = d && s.opRuns o) with
    | none => s
    | some o => s.modMedia fun m => { m with
        waiting := m.waiting.filter fun p => p.id ≠ o.id
        busy := m.busy ++ [{ o with started := s.elapsed, threshold := s.threshold (pageAddr ⟨o.die, o.block⟩ o.page) }] }

/-- Every idle die takes its next operation. -/
def State.kickAll (s : State) : State := (List.range (dieCount s.fused.part)).foldl (fun s d => s.kick d) s

/-- An operation put in the queue, and taken at once by an idle die. -/
def State.request (kind : OpKind) (why : Purpose) (b : BlockId) (page : Nat) (s : State) : State :=
  (s.addOp kind why b page).kick b.die

/-- The waiting operations of one purpose withdrawn: one in progress on a die is never interrupted (R357). -/
def State.dropOps (p : Purpose → Bool) (s : State) : State :=
  s.modMedia fun m => { m with waiting := m.waiting.filter fun o => !p o.purpose }

/-- The operations of one purpose over, those in progress among them. -/
def State.endOps (p : Purpose → Bool) (s : State) : State :=
  (s.dropOps p).modMedia fun m => { m with busy := m.busy.filter fun o => !p o.purpose }

/-- The media read of a held request or pin load: on the die of the version's first page, when it is in flash. -/
def State.requestRead (sid msgId tenant : Nat) (key : Bytes) (version : Nat) (s : State) : State :=
  match s.media.placed.find? fun p => p.tenant = tenant && p.key = key && p.version = version with
  | some { pages := a :: _, .. } => s.request .read (.held sid msgId) (blockOf a) (a % 256)
  | _ => s

/-- The program of a staged extent, on the die that the drain's next page lies on. -/
def State.requestDrain (id : Nat) (s : State) : State :=
  match s.nextPage false with
  | some (b, page) => s.request .program (.drain id) b page
  | none => s

/-! ## Live data and relocation (R369) -/

/-- Pages of valid data in a band. -/
def State.validPages (s : State) (band : Nat) : Nat :=
  natSum ((s.media.placed.filter fun p => p.band = band && s.live p).map fun p => p.pages.length)

/-- A page that no step of Table 14-6 can read: found uncorrectable, or on a failed die (R372, R373). -/
def State.unreadable (s : State) (a : Nat) : Bool := s.media.lost.contains a || (s.media.die (blockOf a).die).failed

/-- The reads of a block counted since its last erase; at 200,000 it is scheduled for refresh (R364). -/
def State.countReads (n : Nat) (b : BlockId) (s : State) : State :=
  let before := ((s.media.find b).map BlockRec.reads).getD 0
  let s := s.modMedia (MediaState.modBlock b fun r => { r with reads := r.reads + n })
  if before < 200000 ∧ 200000 ≤ before + n then s.addOp .read .refresh b 0 else s

/-- One value moved into the relocation band: its version, admission order and expiry stand. It is read, decrypted, and encrypted
again at its new place (R369, R455); a page that is gone stays where it is. Where no band can be opened nothing moves. -/
def State.moveOne (gone : Nat → Bool) (p : Placement) (s : State) : State :=
  let good := p.pages.filter fun a => !gone a
  let (s', pages) := s.programData true (s.imageOfVersion p.tenant p.key p.version) 0 good.length
  if pages.length < good.length then s
  else
    let band := ((s'.media.openBand true).map Band.id).getD p.band
    good.foldl (fun s a => s.countReads 1 (blockOf a)) (s'.modMedia fun m => { m with placed := m.placed.map fun q =>
      if q = p then { p with band := band, pages := p.pages.filter gone ++ pages } else q })

/-- The values that a test of their pages takes in and that can be read. -/
def State.movable (gone touches : Nat → Bool) (s : State) : List Placement :=
  s.media.placed.filter fun p => s.live p && p.pages.any fun a => touches a && !gone a

/-- The values with a page chosen by a test moved at once, as a retirement copies them out. -/
def State.relocate (gone touches : Nat → Bool) (s : State) : State :=
  (s.movable gone touches).foldl (fun s p => s.moveOne gone p) s

/-- A page that a scope takes in. -/
def Scope.takes (m : MediaState) (sc : Scope) (a : Nat) : Bool :=
  match sc with
  | .band id => m.tags.any fun t => t.addr = a && t.band = id
  | .block b => decide (blockOf a = b)
  | .row id page => decide (a % 256 = page) && m.bands.any fun x => x.id = id && x.blocks.contains (blockOf a)

/-- A band without some of its blocks: the data pages already programmed of its row are counted without theirs. -/
def Band.without (gone : BlockId → Bool) (b : Band) : Band :=
  { b with blocks := b.blocks.filter (!gone ·), col := ((b.data.take b.col).filter (!gone ·)).length }

/-- A block leaves its band. -/
def MediaState.leaveBand (b : BlockId) (m : MediaState) : MediaState := { m with bands := m.bands.map (Band.without (· = b)) }

/-- The valid data of a scope has been moved, as far as it can be read: its emptied blocks are released for erasure (R363, R369,
R389). -/
def State.scopeDone (sc : Scope) (s : State) : State :=
  match sc with
  | .row .. => s
  | .block b =>
    if s.holdsLive b then s
    else (s.modMedia fun m => (m.leaveBand b).modBlock b fun r => { r with use := .released }).mapChanged
  | .band id => match s.media.bands.find? fun x => x.id = id with
    | none => s
    | some x =>
      let s := x.blocks.foldl (fun s b => if s.holdsLive b then s else s.modMedia (MediaState.modBlock b fun r => { r with use := .released })) s
      (s.modMedia fun m => { m with bands := if x.blocks.any (fun b => s.holdsLive b) then m.bands else m.bands.filter fun y => y.id ≠ id }).mapChanged

/-- The next value of a scope is to be moved, by a program in the relocation band's next page; with none left the scope is done.
Collection stops here once it is to stop (R366, R367), and data for which there is no free block stays in place (R375). -/
def State.moveNext (sc : Scope) (s : State) : State :=
  if (s.movable s.unreadable (sc.takes s.media)).isEmpty then s.scopeDone sc
  else if (Purpose.move sc).collects ∧ !s.media.fg ∧ !s.media.bg then s
  else match s.nextPage true with
    | some (b, page) => s.addOp .program (.move sc) b page
    | none => s

/-- The program that moves the first value of a scope has passed. -/
def State.moveDone (sc : Scope) (s : State) : State :=
  match s.movable s.unreadable (sc.takes s.media) with
  | [] => s.scopeDone sc
  | p :: _ => (s.moveOne s.unreadable p).moveNext sc

/-! ## Overcast, warnings, collection (R366 to R377) -/

/-- R374: the spare pool at or below the Overcast level. -/
def State.checkOvercast (s : State) : State :=
  if overcastLevel < s.media.spare then s
  else
    let first := !s.media.overcast
    let s := s.modMedia fun m => { m with overcast := true }
    match s.mode with
    | .ready | .readyRead =>
      ((s.setMode .overcast).modStart fun x => { x with awaitingReady := false }).event .overcast s.media.spare 0 0
    | .brace => match s.power.brace with
      | some { entered := .sealed, .. } => s
      | _ => (s.modPower fun p => { p with brace := p.brace.map fun b => { b with entered := .overcast } }).when first
          (State.event .overcast s.media.spare 0 0)
    | _ => s

/-- WEAR_AVG in 0.01 %: the mean erase count over 100,000. -/
def MediaState.wearAvg (m : MediaState) : Nat :=
  if m.good = 0 then 0 else natSum m.eraseCounts * 10000 / (m.good * 100000)

/-- WEAR_MAX in 0.01 %. -/
def MediaState.wearMax (m : MediaState) : Nat := m.highestErases * 10000 / 100000

/-- R377: each warning once for the life of the unit. -/
def State.checkWarnings (s : State) : State :=
  let c := s.cfg.inUse.media
  let s := if !s.media.wearWarn ∧ c.wearWarnPct * 100 ≤ s.media.wearAvg then
    (s.modMedia fun m => { m with wearWarn := true }).event .wearWarn s.media.wearMax 0 0 else s
  if !s.media.spareWarn ∧ s.media.spare ≤ c.spareWarnBlocks then
    (s.modMedia fun m => { m with spareWarn := true }).event .spareWarn s.media.spare 0 0 else s

/-- Of two closed bands the better victim: the lower fraction of valid data, then the one closed earlier (R369). -/
def State.betterVictim (s : State) (a b : Band) : Band :=
  let va := s.validPages a.id * b.data.length
  let vb := s.validPages b.id * a.data.length
  if va < vb then a else if vb < va then b else if a.closed.getD 0 ≤ b.closed.getD 0 then a else b

/-- The victim of R369. -/
def State.victim (s : State) : Option Band :=
  match s.media.bands.filter fun b => b.closed.isSome with
  | [] => none
  | b :: bs => some (bs.foldl s.betterVictim b)

/-- A collection of the next victim put to work, unless one is under way. -/
def State.collectNext (s : State) : State :=
  if (s.media.waiting ++ s.media.busy).any (fun o => o.purpose.collects) then s
  else match s.victim with
    | some v => match v.data with
      | b :: _ => s.request .read (.collect v.id) b 0
      | [] => s
    | none => s

/-- R366 and R367: collection starts and ends with the free level. In Overcast it ends (R375). -/
def State.checkSpace (s : State) : State :=
  let fgPct := s.cfg.inUse.media.fgFreePct
  let free := s.free * 100
  let w := s.media.inService
  let overcast := decide (s.servingMode = .overcast)
  let s :=
    if !s.media.fg ∧ free < fgPct * w ∧ !overcast then
      (s.modMedia fun m => { m with fg := true }).event .fgCollection 1 s.freePct 0
    else if s.media.fg ∧ (overcast ∨ (fgPct + 1) * w ≤ free) then
      (s.modMedia fun m => { m with fg := false }).event .fgCollection 2 s.freePct 0
    else s
  let s := if s.media.bg ∧ (overcast ∨ 12 * w ≤ free) then s.modMedia fun m => { m with bg := false } else s
  if s.media.fg || (s.media.bg && decide (s.mode ≠ .brace)) then s.collectNext else s

/-- An operation that static levelling may have asked for. -/
def Purpose.levels : Purpose → Bool
  | .levelling | .move (.block _) => true
  | .move (.band _) | .move (.row ..) | .collect _ | .refresh | .partialRow _ | .held .. | .drain _ | .journal | .index | .verify _
  | .probe _ | .scrub | .erase => false

/-- Static levelling (R365): while the most worn good block exceeds the least worn one by more than 2,000 erases, the valid data
of the least worn one is relocated. Not in Overcast. -/
def State.levelNext (s : State) : State :=
  let hi := s.media.highestErases
  let lo := s.media.lowestErases
  if s.servingMode = .overcast ∨ hi ≤ lo + 2000 ∨ (s.media.waiting ++ s.media.busy).any (fun o => o.purpose.levels) then s
  else
    let full (r : BlockRec) : Bool := decide (r.erases = lo) && s.holdsLive r.id && (match r.use with
      | .data band => s.media.bands.any fun b => b.id = band && b.closed.isSome
      | .free | .parity _ | .released => false)
    match s.media.blocks.find? full with
    | some r => s.addOp .read .levelling r.id 0
    | none => s

/-- A host write is admitted: background collection ends with its current page program (R366) and the idle time begins again. -/
def State.hostWrote (s : State) : State :=
  ((s.when (!s.media.fg) (State.dropOps Purpose.collects)).modMedia fun m => { m with bg := false }).modStore fun x =>
    { x with lastWriteAt := s.elapsed }

/-! ## Retirement (R370, R372, R373) -/

/-- Blocks that leave service: the spare pool pays first, then W. -/
def MediaState.loseBlocks (n : Nat) (m : MediaState) : MediaState :=
  let good := m.good - n
  { m with good := good, inService := min m.inService good }

/-- The band of a block. -/
def MediaState.bandOf (m : MediaState) (b : BlockId) : Option Band := m.bands.find? fun x => x.blocks.contains b

/-- Blocks that leave service are named for no band any more (R354, R386). -/
def JournalState.unname (gone : BlockId → Bool) (j : JournalState) : JournalState :=
  { j with nextDrain := j.nextDrain.map (List.filter (!gone ·)), nextReloc := j.nextReloc.map (List.filter (!gone ·)) }

/-- A block retired: it leaves its band, whose row in progress is completed without it (R355), its readable data is copied out and
it joins the deadwood (R370). Nothing more is asked of it. -/
def State.retire (b : BlockId) (s : State) : State :=
  if s.media.deadwood.contains b then s
  else
    let band := s.media.bandOf b
    let s := s.modMedia (MediaState.leaveBand b)
    let s := match band with
      | some x => if x.closed.isNone then s.fillRow x.id else s
      | none => s
    let s := s.relocate s.unreadable fun a => blockOf a = b
    let s := s.modMedia fun m => { m.loseBlocks 1 with
      deadwood := m.deadwood ++ [b], blocks := m.blocks.filter fun r => r.id ≠ b
      waiting := m.waiting.filter fun o => !(o.die = b.die && o.block = b.block) }
    let s := s.modJournal (JournalState.unname (· = b))
    ((s.event .blockRetired b.die b.block s.media.spare).mapChanged.checkWarnings).checkOvercast

/-- A closed band whose close verify is over gives its parity block back (R356), if that is still in service. -/
def State.endVerify (band : Nat) (s : State) : State :=
  if (s.media.waiting ++ s.media.busy).any (fun o => o.purpose = .verify band) then s
  else match s.media.bands.find? fun b => b.id = band with
    | none => s
    | some b =>
      let s := s.modMedia (MediaState.modBand band fun b => { b with verified := true })
      if !b.blocks.contains b.parity then s
      else (s.modMedia fun m => (m.modBlock b.parity fun r => { r with use := .released }).leaveBand b.parity).addOp .erase .erase b.parity 0

/-- The request that an operation reads for (Table 13-6): a media read that fails answers it with MEDIA_ERROR. -/
def State.readerOf (p : Purpose) (s : State) : Option RequestRef :=
  match p with
  | .held sid msgId => (s.ses.find sid).bind fun e => (e.flight msgId).map fun f => (f.ask e).ref 0x50 1
  | _ => none

/-- A page found uncorrectable (R372): one event a page, with the request whose read found it, and its block is retired. -/
def State.losePage (r : Option RequestRef) (addr : Nat) (s : State) : State :=
  let s := if s.media.lost.contains addr then s
    else (s.modMedia fun m => { m with lost := addr :: m.lost }).eventFor r .readUncorrectable addr 0 0
  if (s.media.die (blockOf addr).die).failed then s else s.retire (blockOf addr)

/-- Good blocks of a die that are still in service. -/
def MediaState.goodOnDie (m : MediaState) (d : Nat) : Nat :=
  endBlock - firstBlock - (m.deadwood.filter fun b => b.die = d).length

/-- A die failed (R373): retired whole, its pages of open bands rebuilt from parity. -/
def State.failDie (d : Nat) (s : State) : State :=
  if (s.media.die d).failed then s
  else
    let n := s.media.goodOnDie d
    let open_ := (s.media.bands.filter fun b => b.closed.isNone).map Band.id
    let s := s.modMedia fun m => { m.loseBlocks n with
      dies := modifyAt d (fun x => { x with failed := true }) m.dies
      bands := m.bands.map (Band.without fun x => x.die = d)
      waiting := m.waiting.filter fun o => o.die ≠ d, busy := m.busy.filter fun o => o.die ≠ d }
    let s := s.modJournal (JournalState.unname fun x => x.die = d)
    let s := s.event .blockRetired d 0xFFFFFFFF s.media.spare
    let s := open_.foldl (fun s id => s.fillRow id) s
    let inOpen (a : Nat) : Bool := decide ((blockOf a).die = d) && (s.media.tags.any fun t => t.addr = a && open_.contains t.band)
    let s := s.relocate (fun a => s.unreadable a && (s.media.lost.contains a || !inOpen a)) inOpen
    let s := s.modMedia fun m => { m with blocks := m.blocks.filter fun r => r.id.die ≠ d }
    let s := ((s.media.bands.filter fun b => b.closed.isSome && !b.verified).map Band.id).foldl (fun s id => s.endVerify id) s
    ((s.mapChanged.checkWarnings).checkOvercast).checkSpace

/-- The result of a failed operation counted; 16 in a row fail the die (R359). -/
def State.countFailure (d : Nat) (s : State) : State :=
  let s := s.modMedia fun m => { m with dies := modifyAt d (fun x => { x with failures := x.failures + 1 }) m.dies }
  if 16 ≤ (s.media.die d).failures then s.failDie d else s

/-- R371: the program of an extent failed in a block; after the third block in a row the extent waits, doubling to 64 ms. -/
def State.programFailed (id addr : Nat) (s : State) : State :=
  match s.store.staging.find? fun x => x.id = id with
  | none => s
  | some x =>
    let n := x.failures + 1
    let wait := if n < 3 then none else some (s.elapsed + ms (min 64 (2 ^ (n - 3))))
    let s := s.modStore fun st => { st with staging := st.staging.map fun y => if y.id = id then { y with failures := n, retryAt := wait } else y }
    let s := if n = 3 then s.event .programFailed addr 0 0 else s
    if n < 3 then s.requestDrain id else s

/-! ## The rows -/

/-- A band's tracked index raised to an index at which a page of it decoded (R361, R362). -/
def State.track (b : BlockId) (index : Nat) (s : State) : State :=
  match s.media.bandOf b with
  | none => s
  | some x => s.modMedia (MediaState.modBand x.id fun x => { x with tracked := max x.tracked index })

/-- R361: a read that needed step 2 or later schedules a refresh and may raise the band's tracked index; a rebuild from parity
decodes at no index. -/
def State.noteDifficult (b : BlockId) (step index : Nat) (s : State) : State :=
  if step < 2 then s
  else (s.addOp .read .refresh b 0).when (decide (step < 4)) (State.track b index)

/-- The pages that an operation reads beside the one that decodes last: the other programmed pages of its block for a scrub or a
close verify, the other pages of its value for a held read. -/
def State.otherPages (o : DieOp) (s : State) : List Nat :=
  match o.purpose with
  | .scrub | .verify _ => ((s.media.tags.filter fun t => blockOf t.addr = ⟨o.die, o.block⟩).map PageTag.addr).drop 1
  | .held .. => (((s.media.placed.find? fun p => p.pages.head? = some (pageAddr ⟨o.die, o.block⟩ o.page)).map Placement.pages).getD []).drop 1
  | _ => []

/-- The other blocks whose page of the row a rebuild from parity reads (step 4 of Table 14-6). -/
def State.rowMates (b : BlockId) (step : Nat) (s : State) : List BlockId :=
  if step = 4 then ((s.media.bandOf b).map fun x => x.blocks.filter (· ≠ b)).getD [] else []

/-- The page reads of an operation counted: those of the steps its page needed, and one of each other page (R364). -/
def State.countPages (o : DieOp) (step index : Nat) (s : State) : State :=
  let b : BlockId := ⟨o.die, o.block⟩
  let other := (s.otherPages o).map blockOf ++ s.rowMates b step
  other.foldl (fun s x => s.countReads 1 x) (s.countReads (readsTaken o.threshold step index) b)

/-- The effect of a decoded read by its purpose. -/
def State.endRead (o : DieOp) (step index corrected : Nat) (s : State) : State :=
  let b : BlockId := ⟨o.die, o.block⟩
  let s := (s.countPages o step index).noteDifficult b step index
  match o.purpose with
  | .verify band =>
    let s := if step = 1 ∧ corrected ≤ 36 then s else s.retire b
    s.endVerify band
  | .probe _ => s.when (decide (step = 1)) (State.track b index)
  | .partialRow band => s.moveNext (.row band o.page)
  | .scrub =>
    let s := s.modMedia (MediaState.modBlock b fun r => { r with scrubbed := s.scrubTime })
    if step < 2 ∧ 48 ≤ corrected then s.addOp .read .refresh b 0 else s
  | .refresh | .levelling => s.moveNext (.block b)
  | .collect band => s.moveNext (.band band)
  | .held .. | .drain _ | .journal | .index | .move _ | .erase => s

/-- An erased block is free again. -/
def State.endErase (b : BlockId) (s : State) : State :=
  s.modMedia fun m =>
    let m := m.modBlock b fun r => { r with use := .free, erases := r.erases + 1, reads := 0 }
    { m with tags := m.tags.filter fun t => blockOf t.addr ≠ b, lost := m.lost.filter fun a => blockOf a ≠ b
             placed := m.placed.filter fun p => !p.pages.any fun a => blockOf a = b }

/-- The effect of one operation's end. -/
def State.endOp (o : DieOp) (r : DieResult) (s : State) : State :=
  let b : BlockId := ⟨o.die, o.block⟩
  let ok (s : State) : State := s.modMedia fun m => { m with dies := modifyAt o.die (fun x => { x with failures := 0 }) m.dies }
  match o.kind, r with
  | .read, .decoded step index corrected => (ok s).endRead o step index corrected
  | .read, _ =>
    let s := s.countPages o 5 0
    let s := (s.losePage (s.readerOf o.purpose) (pageAddr b o.page)).countFailure o.die
    match o.purpose with
    | .verify band => s.endVerify band
    | _ => s
  | .program, .passed => match o.purpose with
    | .move sc => (ok s).moveDone sc
    | _ => ok s
  | .program, _ =>
    let s := s.retire b
    let s := match o.purpose with
      | .drain id => s.programFailed id (pageAddr b o.page)
      | .move sc => s.moveNext sc
      | _ => s
    s.countFailure o.die
  | .erase, .passed => (ok s).endErase b
  | .erase, _ => (s.retire b).countFailure o.die

/-- The operation in progress on a die is over. -/
def State.finishOp (o : DieOp) (s : State) : State := s.modMedia fun m => { m with busy := m.busy.filter fun p => p.id ≠ o.id }

/-- What follows the end of an operation: the warnings, collection, levelling, and the next operations of idle dies. -/
def State.mediaSettles (s : State) : State := ((s.checkWarnings.checkSpace).levelNext).kickAll

/-- DIE_OPERATION_COMPLETE (R357): the operation in progress on a die ends and the die takes its next one. One that ends in
a start relocates nothing: its work waits (R383). An operation cannot end in what no operation of its kind ends in, nor a page
decode where its step cannot (R353, R361). -/
def State.dieComplete (die : Nat) (r : DieResult) (s : State) : State :=
  match s.media.busy.find? fun o => o.die = die with
  | none => s
  | some o =>
    if !s.canEnd o r then s
    else
      let s := s.finishOp o
      let again := s.halted && o.purpose.relocates && (match r with
        | .decoded .. | .passed => true
        | .uncorrectable | .failed => false)
      if again then (s.modMedia fun m => { m with waiting := m.waiting ++ [o] }).kickAll
      else (s.endOp o r).mediaSettles

/-- DIE_OPERATION_COMPLETE. -/
def execDieOperationComplete (die : Nat) (r : DieResult) (s : State) : Host.Outcome State Fault Refusal := (s.dieComplete die r).done

/-- OPERATION_AGE_PROMOTE (R357): an operation that has waited 50 ms stands in row 2. -/
def State.promote (op : Nat) (s : State) : State :=
  match s.media.waiting.find? fun o => o.id = op with
  | none => s
  | some o => (s.waitUntil (o.arrived + ms 50)).modMedia fun m =>
      { m with waiting := m.waiting.map fun p => if p.id = op then { p with promoted := true } else p }

/-- OPERATION_AGE_PROMOTE. -/
def execOperationAgePromote (op : Nat) (s : State) : Host.Outcome State Fault Refusal := (s.promote op).done

/-- The timeout of Table 14-4. -/
def OpKind.timeout : OpKind → Nat
  | .read => ms 1
  | .program => ms 3
  | .erase => ms 20

/-- The instant at which the die's operation reaches its timeout. -/
def State.waitForTimeout (die : Nat) (s : State) : State :=
  match s.media.busy.find? fun o => o.die = die with
  | none => s
  | some o => s.waitUntil (o.started + o.kind.timeout)

/-- A second timeout counts as a failure of the operation: a block that was read is retired with its data copied out (Table 14-7). -/
def State.timedOut (o : DieOp) (s : State) : State :=
  match o.kind with
  | .program | .erase => s.endOp o .failed
  | .read =>
    let s := (s.retire ⟨o.die, o.block⟩).countFailure o.die
    match o.purpose with
    | .verify band => s.endVerify band
    | _ => s

/-- DIE_TIMEOUT (R359): the die is reset and the operation retried once; the die fails at three timeouts in 1 s, or when
it does not come ready within 10 ms of the reset. -/
def State.dieTimeout (die : Nat) (ready : Bool) (s : State) : State :=
  match s.media.busy.find? fun o => o.die = die with
  | none => s
  | some o =>
    let s := s.waitForTimeout die
    let s := s.modMedia fun m => { m with dies := modifyAt die (fun x => { x with
      timeouts := s.elapsed :: x.timeouts.filter fun t => s.elapsed ≤ t + secs 1 }) m.dies }
    if !ready ∨ 3 ≤ (s.media.die die).timeouts.length then (s.failDie die).kickAll
    else if !o.retried then
      s.modMedia fun m => { m with busy := m.busy.map fun p => if p.id = o.id then { p with retried := true, started := s.elapsed } else p }
    else ((s.finishOp o).timedOut o).mediaSettles

/-- DIE_TIMEOUT. -/
def execDieTimeout (die : Nat) (ready : Bool) (s : State) : Host.Outcome State Fault Refusal := (s.dieTimeout die ready).done

/-- PROGRAM_RETRY_BACKOFF (R371): the extent's wait is over and its program is tried again. -/
def State.retryProgram (id : Nat) (s : State) : State :=
  match s.store.staging.find? fun x => x.id = id with
  | some { retryAt := some t, .. } =>
    ((s.waitUntil t).modStore fun st => { st with staging := st.staging.map fun y => if y.id = id then { y with retryAt := none } else y }).requestDrain id
  | _ => s

/-- PROGRAM_RETRY_BACKOFF. -/
def execProgramRetryBackoff (id : Nat) (s : State) : Host.Outcome State Fault Refusal := (s.retryProgram id).done

/-- When a block's days run out, in the time that R363 counts. -/
def State.scrubAt (r : BlockRec) (s : State) : Nat := r.scrubbed + secs (s.cfg.inUse.media.scrubDays * 86400)

/-- SCRUB_DUE (R363): a block that holds valid data is read through Table 14-6 when its days have run, those of Off and Dusk not
counted. One that is overdue goes before other scrubs. -/
def State.scrubDue (b : BlockId) (s : State) : State :=
  match s.media.find b with
  | some r =>
    if s.mode = .off ∨ s.mode = .dusk ∨ !s.holdsLive b then s
    else
      let late := decide (s.scrubAt r < s.scrubTime)
      let s := (s.waitUntil (s.elapsed + (s.scrubAt r - s.scrubTime))).addOp .read .scrub b 0
      (s.modMedia fun m => { m with waiting := m.waiting.map fun o => if o.id + 1 = m.nextOp then { o with overdue := late } else o }).kick b.die
  | none => s

/-- SCRUB_DUE. -/
def execScrubDue (die block : Nat) (s : State) : Host.Outcome State Fault Refusal := (s.scrubDue ⟨die, block⟩).done

/-- BG_COLLECTION_IDLE (R366). -/
def State.bgIdle (s : State) : State :=
  let s := s.waitUntil (s.store.lastWriteAt + ms s.cfg.inUse.media.bgIdleMs)
  if s.free * 100 < 12 * s.media.inService ∧ s.mode ≠ .brace ∧ s.mode ≠ .overcast ∧ s.mode ≠ .off ∧ s.mode ≠ .dusk ∧ s.mode ≠ .deepSleep then
    (s.modMedia fun m => { m with bg := true }).collectNext
  else s

/-- BG_COLLECTION_IDLE. -/
def execBgCollectionIdle (s : State) : Host.Outcome State Fault Refusal := s.bgIdle.done

/-- An extent that begins in the page programmed last, behind the extents there: its pieces and its count join that page's. -/
def State.shareLast (x : ExtentImage) (s : State) : State :=
  s.modMedia fun m => { m with
    fill := m.fill + x.size
    tags := m.tags.map fun t => if m.lastPage = [t.addr] then
      { t with extents := t.extents + 1, body := t.body ++ x.page m.fill 0 t.writeSeq } else t }

/-- The pages of a staged extent programmed, or none where it shares the last one: the state after them and their addresses. -/
def State.programExtent (x : Extent) (pages : Nat) (s : State) : State × List Nat :=
  let image := s.imageOf x
  if pages = 0 then (s.shareLast image, s.media.lastPage)
  else
    let (s', addrs) := s.programData false image 0 pages
    if addrs.length < pages then (s, [])
    else (s'.modMedia fun m => { m with fill := image.size - (pages - 1) * pageBytes }, addrs)

/-- A change is recorded of an extent whose pages are programmed: where its version lies now. -/
def State.place (x : Extent) (pages : List Nat) (s : State) : State :=
  match x.change with
  | .put t k v => s.modMedia fun m => { m with placed :=
      ⟨t, k, v.num, ((m.openBand false).map Band.id).getD 0, pages⟩ :: m.placed.filter fun p => !(p.tenant = t && p.key = k && p.version = v.num) }
  | .segment t k v _ => s.modMedia fun m =>
      let old := (m.placed.filter fun p => p.tenant = t && p.key = k && p.version = v.num).flatMap Placement.pages
      { m with placed := ⟨t, k, v.num, ((m.openBand false).map Band.id).getD 0, old ++ pages⟩ ::
        m.placed.filter fun p => !(p.tenant = t && p.key = k && p.version = v.num) }
  | .delete .. | .rangeDelete .. => s

/-- A drive in Ready whose bank has failed enters Ready-Read once its staging buffer is drained (R85). -/
def State.leaveReady (s : State) : State :=
  if s.mode = .ready ∧ s.bankClass = .failed ∧ s.store.staging.isEmpty then
    (s.setMode .readyRead).modStart fun x => { x with awaitingReady := true }
  else s

/-- DRAIN_EXTENT_COMPLETE (R33): an extent's pages are programmed and verified; its lines and charge are released.
`pages` is how many pages it filled; an extent that filled none shares the page before. -/
def State.drainExtent (id pages : Nat) (s : State) : State :=
  match s.store.staging.find? fun x => x.id = id with
  | none => s
  | some x =>
    if !drainable id s.store.staging || ((!s.mayProgram || x.retryAt.isSome) && decide (s.mode ≠ .dusk)) || decide (s.mode = .off) ||
        (s.power.dusk.map DuskEp.complete).getD false then s
    else
      let (s, addrs) := s.programExtent x pages
      if 0 < pages ∧ addrs.isEmpty then s
      else
        let s := (s.place x addrs).mapChanged
        let s := ((s.modStore (StoreState.drain id)).endOps fun p => p = .drain id).stirSegments
        if s.mode = .dusk then s else (s.leaveReady.checkSpace).kickAll

/-- DRAIN_EXTENT_COMPLETE. -/
def execDrainExtentComplete (id pages : Nat) (s : State) : Host.Outcome State Fault Refusal := (s.drainExtent id pages).done

/-- The instant at which a delta falls due: the interval since the oldest change not recorded, unless the data-band
pages since the newest entry reach their limit first (R385). -/
def State.waitForFlush (s : State) : State :=
  match s.journal.unrecorded with
  | none => s
  | some t =>
    if s.journal.intervalMib * 64 ≤ s.journal.tailPages then s
    else s.waitUntil (t + ms s.journal.intervalMs)

/-- JOURNAL_FLUSH (R385, R388): a delta, and after every 256 deltas a checkpoint. No delta while nothing is unrecorded. -/
def State.journalFlush (s : State) : State :=
  if s.journal.unrecorded.isNone ∨ s.mode = .off ∨ s.mode = .dusk ∨ s.halted then s
  else
    let s := s.waitForFlush.writeEntry .delta
    (if 256 ≤ s.journal.deltas then s.writeEntry .checkpoint else s).kickAll

/-- JOURNAL_FLUSH. -/
def execJournalFlush (s : State) : Host.Outcome State Fault Refusal := s.journalFlush.done

/-- EXPIRY_SWEEP (R316): every `KV_EXPIRY_SWEEP_S` the lazy sweep reclaims the space of the keys that have expired by the drive's
time. It changes no answer, so of such a key its number and expiry instant stay. Their pins end. It does not run in Overcast
(R320). -/
def State.sweep (s : State) : State :=
  if !s.servingMode.serving ∨ s.servingMode = .overcast then s
  else
    let s := s.waitUntil s.store.sweepDue
    let s := s.modStore fun x => { x with sweepDue := s.elapsed + secs s.cfg.inUse.kv.expirySweepS }
    let now := s.timeNs
    let gone := s.store.keys.filter fun r => decide (r.sweep now ≠ r)
    if gone.isEmpty then s
    else (s.modStore fun x => { x with
      keys := x.keys.map (KeyRec.sweep now)
      flash := x.flash.map fun r => if x.staging.any fun e => e.change.touches = some (r.tenant, r.key) then r else r.sweep now
      pins := x.pins.filter fun p => !gone.any fun r => r.tenant = p.tenant && r.key = p.key }).mapChanged

/-- EXPIRY_SWEEP. -/
def execExpirySweep (s : State) : Host.Outcome State Fault Refusal := s.sweep.done

/-- The close verify of a band whose reads a stop dropped begins again (R356). -/
def State.resumeVerify (s : State) : State :=
  (s.media.bands.filter fun b => b.closed.isSome && !b.verified).foldl (fun s b =>
    if (s.media.waiting ++ s.media.busy).any (fun o => o.purpose = .verify b.id) then s else s.verifyBand b) s

/-- MEDIA reads at a cold start: one page of each closed band within 60 s of Ready-Read (R362). -/
def State.probeBands (s : State) : State :=
  (s.media.bands.filter fun b => b.closed.isSome).foldl (fun s b =>
    match b.data with
    | x :: _ => s.addOp .read (.probe b.id) x 0
    | [] => s) s

end Sys2Proof.Machine
end

