-- ==== Sys2Proof/Machine/Security.lean ====
section
/-!
DEFINITION. The security block at work: the drain and the stop record of an orderly stop (R383), the erase sequence
(R459), the lock (R457), the site key and the configuration's security records (R450 to R454, R468).
-/
namespace Sys2Proof.Machine

/-- The serving level or state entered: where Brace is in force, it is the state that Brace returns to. -/
def State.enter (m : Mode) (s : State) : State :=
  if s.mode = .brace then s.modPower fun p => { p with brace := p.brace.map fun b => { b with entered := m } }
  else s.setMode m

/-! ## Drains and records -/

/-- One staged extent programmed outside the order of the dies: an entry is written first where the tail is full (R387) or no band is named (R386). -/
def State.drainOne (s : State) (x : Extent) : State :=
  let full := decide ((s.journal.intervalMib + 16) * 64 ≤ s.journal.tailPages)
  let s := if full ∨ ((s.media.openBand false).isNone ∧ (s.journal.named false).isEmpty) then s.writeEntry .delta else s
  let (s, pages) := s.programExtent x (((s.imageOf x).size + pageBytes - 1) / pageBytes)
  s.place x pages

/-- Every staged extent programmed in admission order, and its lines released. -/
def State.drainNow (s : State) : State :=
  if s.store.staging.isEmpty then s
  else ((s.store.staging.foldl State.drainOne s).modStore StoreState.drainAll).endOps fun p => match p with
    | .drain _ => true
    | _ => false

/-- The stop record of R383: written once the staging buffer is empty; after one nothing more is programmed until the start
that follows has read it. -/
def State.stopRecord (s : State) : State := if s.journal.newest = .stop then s else s.writeEntry .stop

/-- CU2 aborts the running job and those waiting (R438). -/
def State.abortJobs (s : State) : State := s.modWatch fun w => { w with jobs := [] }

/-- A fresh watchdog period with its closed part from now; while the scan chain is released the watchdog stays paused
(R466). -/
def State.startWatch (s : State) : State :=
  if s.start.scanReleased then s.modWatch fun w => { w with wasRunning := true }
  else s.modWatch fun w => { w with running := true, periodAt := s.elapsed, checked := [] }

/-- The watchdog stops, and remembers whether it ran (Table 17-7). -/
def State.stopWatch (s : State) : State := s.modWatch fun w => { w with running := false, wasRunning := w.running }

/-- CH1 charges again (R411), unless something else holds it (R412, R422). -/
def State.resumeCharge (s : State) : State :=
  if s.reg.ch1Stopped ∨ s.mode = .brace ∨ s.mode = .dusk ∨ s.mode = .off then s
  else s.modReg fun r => { r with ch1 := r.ch1.start1 s.power.lastMv }

/-- A running bank test aborted (R84, R85): its event is logged, its load is removed, CH1 resumes, and it is tried again 10 min later. -/
def State.abortTest (s : State) : State :=
  match s.power.test with
  | none => s
  | some (v1, _) =>
    let r : TestRecord := ⟨s.timeNow, 2, 0xFF, 0, 0, 0, v1⟩
    ((s.modPower fun p => { p with test := none, tests := (r :: p.tests).take 16, testDue := some (s.elapsed + secs 600) }).event
      .bankTest (0xFF + 2 * 256) 0 0).resumeCharge

/-! ## Keys at a start -/

/-- Keys of 64 bytes drawn one after the other. -/
def State.randomKeys : Nat → State → List Bytes × State
  | 0, s => ([], s)
  | n + 1, s =>
    let k := s.random 64
    let r := State.randomKeys n k.2
    (k.1 :: r.1, r.2)

/-- New KBK, MK and DK_t for an empty store (R459 step 5, R468). -/
def State.newKeys (s : State) : State :=
  let (kbk, s) := s.random 32
  let (mapKey, s) := s.random 64
  let p := State.randomKeys 8 s
  p.2.modSec fun x => { x with kbk := some kbk, mapKey := some mapKey, dk := p.1.map some }

/-- The store emptied: keys, flash index, staged extents, pins and snapshots. Bands are released for collection. -/
def State.emptyStore (s : State) : State :=
  let s := s.modStore fun x => { x with keys := [], flash := [], staging := [], pins := [], flashPins := [] }
  let s := s.modMedia fun m => { m with
    placed := [], bands := []
    blocks := m.blocks.map fun r => match r.use with
      | .data _ | .parity _ => { r with use := .released }
      | .free | .released => r }
  (s.dropOps fun p => decide (p ≠ .erase)).modAdmin fun a => { a with snapshots := [] }

/-- R468: a start that finds no KBK treats the store as empty. -/
def State.rekey (s : State) : State :=
  if s.sec.kbk.isSome then s else (s.emptyStore.newKeys).writeEntry .checkpoint

/-- The WRAPPED_KEY record for this unit, the lowest instance that names it (R450). -/
def State.ownRecord (c : DriveConfig) (s : State) : Option WrappedKey := c.wrappedKeys.find? fun w => w.unitId = s.fused.unitId

/-- Table 18-2: the site key in use after the record is opened, whether it was adopted, and whether the record is rejected. -/
def adoptSite (held opened : Option (Bytes × Nat)) (present : Bool) : Option (Bytes × Nat) × Bool × Bool :=
  match held, opened with
  | none, some v => (some v, true, false)
  | some h, some v =>
    if h.2 < v.2 then (some v, true, false)
    else if h.2 = v.2 ∧ h.1 = v.1 then (some h, false, false)
    else (some h, false, true)
  | h, none => (h, false, present)

/-- What step 12 finds in a configuration: the site key with its adoption, the REC_TYPEs it rejects, and the tamper action
as verified, if it is. `records` are the records of the source and `generation` is its GENERATION. -/
structure SecCheck where
  site : Option (Bytes × Nat)
  adopted : Bool
  bad : List Nat
  action : Option Nat
  deriving DecidableEq, Repr

/-- R450, R451 and R454. -/
def State.checkSecurity (c : DriveConfig) (records : List Record) (generation : Nat) (s : State) : SecCheck :=
  let own := s.ownRecord c
  let opened := own.bind fun w => (s.fused.openSite w).map fun sk => (sk, w.keyVersion)
  let (site, adopted, rejected) := adoptSite s.sec.site opened own.isSome
  let badKey := match rejected, own with
    | true, some w => [0x5100 + w.inst]
    | _, _ => []
  match records.find? fun r => r.recType = 0x5000 ∧ r.crcOk with
  | none => ⟨site, adopted, badKey, none⟩
  | some r => match site with
    | none => ⟨site, adopted, 0x5000 :: badKey, none⟩
    | some (sk, _) =>
      if securityTagOk sk generation r.payload then ⟨site, adopted, badKey, some c.security.tamperAction⟩
      else ⟨site, adopted, 0x5000 :: badKey, none⟩

/-- The credentials that an adoption changes, logged (R453). -/
def State.noteCredentials (s : State) : State :=
  (List.range 8).foldl (fun s t =>
    if (s.sec.installed.getD t none).isSome then s
    else match s.credential t with
      | some (_, v) => s.event .credentialChanged t v 0
      | none => s) s

/-- The outcome of step 12 put in force. -/
def State.applySecurity (x : SecCheck) (s : State) : State :=
  let action := x.action.getD (max 1 s.sec.recordedAction)
  let open_ := !s.sec.lockFlag
  let s := s.modSec fun k => { k with
    site := x.site, action := action, recordedAction := action, dkOpen := k.dk.map fun d => d.isSome && open_ }
  if x.adopted then s.noteCredentials else s

/-! ## Erase (Table 18-4, scope all) -/

/-- Step 2: one notice for each open session; requests end without answer, and answers not yet selected are lost. -/
def State.eraseSessions (s : State) : State :=
  let gone := s.ses.sessions
  let quiet (p : PortState) : PortState := { p with epQ := p.epQ.filter fun e => match e.load with
    | .ly _ => false
    | .raw _ | .dawn .. => true }
  let s := (s.modPort .A quiet).modPort .B quiet
  let s := gone.foldl (fun s e =>
    if e.phase.isOpen then
      let cause := if e.tenant = 0 then 6 else 3
      (s.event .sessionClosed (cause * 2 ^ 24 + e.tenant * 2 ^ 16 + e.id) 0 0).say e.id ⟨e.port, e.tag, e.peer, s.timeNs, s.elapsed⟩ s.timeNs
        { kind := 0x05, gen := e.gen, tenant := e.tenant, session := e.id, reason := cause }
    else s) s
  let s := gone.foldl (fun s e => (s.release e.assemblyBytes).removeSess e.id) s
  s.modSes fun x => { x with kept := [], held := [], waiting := [] }

/-- The erase sequence for the whole drive. The gate opens again at its end in a state that serves. -/
def State.eraseAll (s : State) : State :=
  let open_ := s.net.gateOpen
  let s := s.modNet fun n => { n with gateOpen := false }
  let s := s.eraseSessions
  let s := s.modSec fun k => { k with
    kbk := none, site := none, mapKey := none, dk := List.replicate 8 none, dkOpen := List.replicate 8 false
    installed := List.replicate 8 none, dramKey := [], lockDrain := false, erased := true, lockFlag := true }
  let s := s.emptyStore
  let s := s.newKeys.writeEntry .checkpoint
  s.modNet fun n => { n with gateOpen := open_ }

/-! ## Lock and tamper (R456 to R458) -/

/-- R458: the key operation of an FW_VERIFY in flight is aborted, and its request fails. -/
def State.abortKeyOps (s : State) : State :=
  match s.fw.download with
  | some { session := sid, verifying := some id, .. } =>
    let s := (s.modFw fun f => { f with download := f.download.map fun d => { d with verifying := none } }).abortJobs
    match s.ses.find sid with
    | none => s
    | some e => match e.flight id with
      | none => s
      | some f => s.finish (f.ask e) 0x42 2 {}
  | _ => s

/-- Sealed entered from a serving state (R457 steps 1 and 2, R460). -/
def State.lock (s : State) : State :=
  let s := s.abortTest
  let s := s.enter .sealed
  let s := s.modSec fun k => { k with lockFlag := true, lockDrain := true, erased := false }
  let s := s.modStart fun x => { x with awaitingReady := false }
  let kv (f : Flight) : Bool := !f.committed && !isAdminOpcode f.opcode
  let s := (s.ses.sessions.filter fun e => e.tenant = 0).foldl (fun s e =>
    (e.flights.filter kv).foldl (fun s f => (s.dropOps fun p => p = .held e.id f.msgId).stopFlight 0x42 1 e f) s) s
  (s.dropSessions (fun e => decide (e.tenant ≠ 0)) 3).beginSeries .sealed
where
  /-- Administrative opcodes and the keepalive are served on. -/
  isAdminOpcode (op : Nat) : Bool := decide (op = 0x01 ∨ (0x80 ≤ op ∧ op ≤ 0xBF))

/-- Sealed entered after an erase. -/
def State.sealErased (s : State) : State :=
  let s := s.abortTest
  let s := (s.enter .sealed).modStart fun x => { x with awaitingReady := false }
  s.eraseAll.beginSeries .sealed

/-- A tamper alarm in a state that serves or starts, by Table 18-3 (Deep Sleep has woken before). -/
def State.tamperAction (s : State) : State :=
  let action := s.sec.action
  let s := s.abortKeyOps.event .tamperAlarm action s.mode.code 0
  match s.servingMode with
  | .coldStart | .warmStart =>
    if action = 2 then s.eraseAll
    else
      (s.modSec fun k => { k with lockFlag := true, dkOpen := List.replicate 8 false }).modStore fun x =>
        { x with pins := x.pins.map fun p => { p with loaded := none } }
  | .sealed => if action = 2 then s.eraseAll else s
  | .readyRead | .ready | .overcast =>
    if action = 0 then s else if action = 1 then s.lock else s.sealErased
  | .off | .dusk | .brace | .deepSleep | .rescue => s

/-- A tamper alarm recognised in any state but Deep Sleep. -/
def State.alarm (s : State) : State :=
  match s.mode with
  | .dusk => s.modSec fun k => { k with alarmPending := true }
  | .rescue => s.deferEvent .tamperAlarm s.sec.action Mode.rescue.code 0
  | .off => s
  | _ => (s.modPower fun p => { p with sleep := match p.sleep with | .asleep m => .asleep m | _ => .awake }).tamperAction

/-- LOCK_DRAIN_COMPLETE (R457 step 4): the drain of a lock is over; every DK_t is zeroized and the pin cache empty. -/
def State.lockDrained (s : State) : State :=
  if !s.sec.lockDrain then s
  else (s.drainNow.modSec fun k => { k with lockDrain := false, dkOpen := List.replicate 8 false }).modStore fun x =>
    { x with pins := x.pins.map fun p => { p with loaded := none } }

/-- LOCK_DRAIN_COMPLETE. -/
def execLockDrainComplete (s : State) : Host.Outcome State Fault Refusal := s.lockDrained.done

end Sys2Proof.Machine
end

