-- ==== Sys2Proof/Machine/Writes.lean ====
section
/-!
DEFINITION. Writes into the store: windbreak's judgement and charge (R319, R417), staging (R21), the whole writes of
R302, and the segmented path (R306 to R311).
-/
namespace Sys2Proof.Machine

/-! ## Windbreak and staging -/

/-- Row 11 of Table 9-7: the write admitted with its draw on the bucket, or refused with status, reason and
RETRY_AFTER_US. -/
def State.windbreak (c : Charge) (s : State) : Except (Nat × Nat × Nat) State :=
  match s.judge c with
  | .granted => .ok (s.takeBucket c).hostWrote
  | .bracing r => .error (0x32, r, 0)
  | .throttled r retry => .error (0x21, r, retry)

/-- An extent staged with its charge, counted in HOST_BYTES_WRITTEN (R376), and its drain asked for. -/
def State.stageExtent (c : Change) (bytes off len : Nat) (base : Option (Nat × Nat)) (part : Nat) (s : State) : State :=
  let id := s.store.nextExtent
  ((s.modStore (StoreState.stage c bytes off len base part)).modMedia fun m =>
    { m with hostBytes := min (2 ^ 64 - 1) (m.hostBytes + bytes) }).requestDrain id

/-- The commit point passed (R235). -/
def State.commit (a : Ask) (s : State) : State := s.modFlight a.sid a.msgId fun f => { f with committed := true }

/-- A request with a key finds it expired: its pin ends (R260). -/
def State.expirePin (t : Nat) (k : Bytes) (admitAt : Nat) (s : State) : State :=
  match resolve s.store.keys t k admitAt with
  | .expired _ => s.modStore fun x => { x with pins := dropPin x.pins t k }
  | .absent | .present _ => s

/-- Pin space that a tenant has left (Table 10-5). -/
def State.pinSpace (t : Nat) (s : State) : Nat := (s.tenant t).pinMaxKib * 1024 - tenantPins s.store.pins t

/-! ## Reads that wait for an open version (R310) -/

/-- The answer of a GET of some bytes of a version (Table 10-5). -/
def readBody (v : Version) (off len : Nat) (pinned : Bool) : AnswerBody :=
  { version := v.num, result := v.total, segmented := v.segmented, pinned := pinned, data := slice off (min len (v.total - off)) v.value }

/-- Every requested byte of a version exists. -/
def Version.covers (v : Version) (off len : Nat) : Bool := !v.isOpen || decide (min (off + len) v.total ≤ v.value.length)

/-- A media read of a version's bytes. -/
def readWork (k : Bytes) (v : Version) (off len : Nat) : Work := .read k v.num v.value v.total v.segmented off len

/-- A version of a key by its number and admission timestamp: in the hash front, or held by the segmented write that makes it. -/
def State.findVersion (s : State) (t : Nat) (k : Bytes) (num admitAt : Nat) : Option Version :=
  match versionIn s.store.keys t k num admitAt with
  | some v => some v
  | none => s.ses.sessions.findSome? fun e => if e.tenant ≠ t then none else e.flights.findSome? fun f => match f.work with
    | .segmented k' v _ => if k' = k ∧ v.num = num ∧ v.admitAt = admitAt then some v else none
    | _ => none

/-- A waiting read whose bytes exist now: answered from SRAM, or sent to the media. -/
def State.resumeRead (a : Ask) (k : Bytes) (v : Version) (off len : Nat) (pinned : Bool) (s : State) : State :=
  if spanInSram s.store a.tenant k v off len then s.finish a 0 0 (readBody v off len pinned)
  else (s.modFlight a.sid a.msgId fun f => { f with work := readWork k v off len }).requestRead a.sid a.msgId a.tenant k v.num

/-- A PIN that waited for an open version pins it as it ended (R310). -/
def State.resumePin (a : Ask) (k : Bytes) (v : Version) (s : State) : State :=
  let isNewest := (newest s.store.keys a.tenant k).map (fun x => (x.num, x.admitAt)) = some (v.num, v.admitAt)
  let s := if isNewest then s.modStore fun x => { x with pins := repin x.pins a.tenant k (pinCharge k.length v.total) } else s
  if (findPin s.store.pins a.tenant k).isNone ∨ inSram s.store a.tenant k v = true then
    let s := s.modStore fun x => { x with pins := x.pins.map fun p =>
      if p.tenant = a.tenant && p.key = k && p.loaded.isNone then { p with loaded := some v.num } else p }
    s.finish a 0 0 { version := v.num, result := s.pinSpace a.tenant, pinned := true }
  else (s.modFlight a.sid a.msgId fun f => { f with work := .pinLoad k v.num }).requestRead a.sid a.msgId a.tenant k v.num

/-- The requests that wait for bytes or for the end of an open version, moved on. -/
def State.wake (t : Nat) (k : Bytes) (v : Version) (s : State) : State :=
  s.ses.sessions.foldl (fun s e =>
    if e.tenant ≠ t then s
    else e.flights.foldl (fun s f => match f.work with
      | .openRead k' n ad off len =>
        if k' = k ∧ n = v.num ∧ ad = v.admitAt ∧ v.covers off len = true then s.resumeRead (f.ask e) k v off len f.pinned else s
      | .pinOpen k' n ad =>
        if k' = k ∧ n = v.num ∧ ad = v.admitAt ∧ v.isOpen = false then s.resumePin (f.ask e) k v else s
      | _ => s) s) s

/-! ## Frames of a segmented message -/

/-- Frames that end within the first `limit` body bytes leave the ingress buffer: the frames and the bytes they free. -/
def freeFrames (limit : Nat) : Nat → List MsgFrame → List MsgFrame × Nat
  | _, [] => ([], 0)
  | off, f :: fs =>
    let (rest, n) := freeFrames limit (off + f.body.length) fs
    if off + f.body.length ≤ limit then ({ f with occupancy := 0 } :: rest, n + f.occupancy) else (f :: rest, n)

/-- The frames of the staged segments leave the ingress buffer (R308); `d` is the offset of DATA. -/
def State.freeStaged (sid : Nat) (d : Nat) (a : Assembly) (s : State) : State :=
  let (frames, n) := freeFrames (min a.bodyTotal (d + a.staged * segmentBytes)) 0 a.frames
  (s.modSess sid fun e => { e with assembling := e.assembling.map fun x =>
    if x.serial = a.serial then { a with frames := frames } else x }).release n

/-! ## The end of a segmented write (R309) -/

/-- The store's copy of an open version brought up to date, as far as it still stands there. -/
def State.putOpen (t : Nat) (k : Bytes) (v : Version) (s : State) : State :=
  s.modStore fun x => { x with keys := modVersion x.keys t k v.num fun o => if o.admitAt = v.admitAt then { v with superseded := o.superseded } else o }

/-- A segmented write cut with a status (R309): its version ends with the segments staged, and its answer sets SEGMENTED
(R278). `location` is what the error history names. -/
def State.cutWrite (e : Sess) (a : Assembly) (status reason retry location : Nat) (s : State) : State :=
  let s := s.endMessage e.id (decide (status = 0x51 ∧ reason = 3)) a
  match e.flight a.msgId with
  | some f => match f.work with
    | .segmented k v _ =>
      let v := closeVersion v
      ((s.putOpen e.tenant k v).finish { f.ask e with location := location } status reason { result := retry, segmented := true, pinned := f.pinned }).wake e.tenant k v
    | _ => s
  | none => s

/-! ## Later segments (R308) -/

/-- The next segment's length in DATA, 0 when all are staged, and whether every frame that carries its bytes is present. -/
def Assembly.nextSegment (d : Nat) (a : Assembly) : Nat × Bool :=
  let n := min segmentBytes (a.bodyTotal - d - a.staged * segmentBytes)
  (n, decide (d + a.staged * segmentBytes + n ≤ a.lead.length))

/-- A segment staged: the version grows, and the write completes with the last one. -/
def State.stageSegment (e : Sess) (a : Assembly) (f : Flight) (k : Bytes) (v : Version) (base : Option (Nat × Nat)) (n : Nat)
    (s : State) : State :=
  let d := 20 + k.length
  let off := d + a.staged * segmentBytes
  let last := decide (a.bodyTotal ≤ off + n)
  let start := v.value.length
  let v := { v with value := v.value ++ slice off n a.lead, isOpen := !last }
  let isNewest := decide ((newest s.store.keys e.tenant k).map (fun x => (x.num, x.admitAt)) = some (v.num, v.admitAt))
  let s := (s.putOpen e.tenant k v).stageExtent (.segment e.tenant k v isNewest) (lineBytes n) start n base (a.staged + 1)
  let a := { a with staged := a.staged + 1, refused := none }
  let s := s.freeStaged e.id d a
  let s := if last then
      (s.takeMessage e.id a).finish (f.ask e) 0 0 { version := v.num, result := v.total, segmented := true, pinned := f.pinned }
    else s.modFlight e.id f.msgId fun f => { f with work := .segmented k v base }
  s.wake e.tenant k v

/-- What a segmented write is at: its session, message, flight, key, version and base. -/
structure Open where
  e : Sess
  a : Assembly
  f : Flight
  key : Bytes
  v : Version
  base : Option (Nat × Nat)
  deriving DecidableEq, Repr

/-- The segmented write of a message, if it runs. -/
def State.openWrite (sid msgId : Nat) (s : State) : Option Open :=
  match s.ses.find sid with
  | none => none
  | some e => match e.message 0x10 msgId, e.flight msgId with
    | some a, some f => match f.work with
      | .segmented k v b => if a.admitted then some ⟨e, a, f, k, v, b⟩ else none
      | _ => none
    | _, _ => none

/-- The states in which the protocol engine stages and completes; in a warm start it finishes what was admitted before (R97). -/
def State.engineRuns (s : State) : Bool :=
  match s.mode with
  | .readyRead | .ready | .brace | .overcast | .sealed | .rescue | .warmStart => true
  | .off | .coldStart | .dusk | .deepSleep => false

/-- In a warm start, what a finished request staged is drained before the hash front is rebuilt, and its completion is kept with
its session (R97, R257). -/
def State.keepInStart (s : State) : State :=
  if s.mode = .warmStart then (s.drainNow.keepCompletions .A).keepCompletions .B else s

/-- A refused segment waits; its first refusal stands (R308). -/
def State.holdSegment (o : Open) (status reason retry : Nat) (s : State) : State :=
  let w : SegmentWait :=
    { since := (o.a.refused.map SegmentWait.since).getD s.elapsed, status := status, reason := reason, retryUs := retry
      again := s.elapsed + retry * 1000 }
  s.modSess o.e.id fun e => { e with assembling := e.assembling.map fun x => if x.serial = o.a.serial then { x with refused := some w } else x }

/-- The next segment of `n` bytes passes windbreak and is staged, waits, or cuts the write. -/
def State.judgeSegment (o : Open) (n : Nat) (poison : Option Nat) (s : State) : State :=
  match s.windbreak ⟨lineBytes n, true, false⟩ with
  | .error (0x32, r, _) => s.cutWrite o.e o.a 0x32 r 0 0
  | .error (st, r, retry) => s.holdSegment o st r retry
  | .ok s => match poison with
    | some line => (s.eventFor (some ((o.f.ask o.e).ref 0x51 2)) .linePoisoned line 0 0).cutWrite o.e o.a 0x51 2 0 line
    | none => s.stageSegment o.e o.a o.f o.key o.v o.base n

/-- SEGMENT_STAGE (R308): the next segment is judged; one that waits is judged again once it has been stirred, or once its
RETRY_AFTER_US has passed, unless its 100 ms end before that. `poison` is the address of a staging line that fails its check. -/
def State.segmentStage (sid msgId : Nat) (poison : Option Nat) (s : State) : State :=
  match s.openWrite sid msgId with
  | none => s
  | some o =>
    let (n, whole) := o.a.nextSegment (20 + o.key.length)
    if !s.engineRuns ∨ n = 0 ∨ !whole then s
    else match o.a.refused with
      | none => (s.judgeSegment o n poison).keepInStart
      | some w =>
        if w.stirred then (s.judgeSegment o n poison).keepInStart
        else if w.since + ms 100 < w.again then s
        else ((s.waitUntil w.again).judgeSegment o n poison).keepInStart

/-- SEGMENT_STAGE. -/
def execSegmentStage (sid msgId : Nat) (poison : Option Nat) (s : State) : Host.Outcome State Fault Refusal :=
  (s.segmentStage sid msgId poison).done

/-- SEGMENT_CUT (R308): the segment is still refused 100 ms after its first refusal. One that is due to be judged again is
judged first, and goes on where windbreak would admit it now. -/
def State.segmentCut (sid msgId : Nat) (s : State) : State :=
  match s.openWrite sid msgId with
  | none => s
  | some o => match o.a.refused with
    | none => s
    | some w =>
      let s := s.waitUntil (w.since + ms 100)
      if !w.stirred ∧ s.elapsed < w.again then s.cutWrite o.e o.a w.status w.reason w.retryUs 0
      else match s.windbreak ⟨lineBytes (o.a.nextSegment (20 + o.key.length)).1, true, false⟩ with
        | .error (st, r, retry) => s.cutWrite o.e o.a st r retry 0
        | .ok _ => s

/-- SEGMENT_CUT. -/
def execSegmentCut (sid msgId : Nat) (s : State) : Host.Outcome State Fault Refusal := (s.segmentCut sid msgId).done

/-! ## Whole writes and first segments (R301, R302, R306, R307) -/

/-- What a PUT or APPEND that passed row 10 writes. -/
structure NewVersion where
  key : Bytes
  num : Nat
  /-- the value before, for an APPEND, with its version -/
  base : Option Version
  /-- declared length of the resulting value -/
  total : Nat
  expiry : Nat
  segmented : Bool
  deriving DecidableEq, Repr

/-- Row 10 of Table 9-7 for a PUT or APPEND: what it writes, or its refusal with a version for VERSION_MISMATCH. -/
def State.resolveWrite (append : Bool) (a : Ask) (p : ReqBody) (s : State) : Except (Nat × Nat × Nat) NewVersion :=
  let found := resolve s.store.keys a.tenant p.key a.admitAt
  match writeCondition p.versionCond found with
  | .error n => .error (0x11, 0, n)
  | .ok num =>
    let base := match append, found with
      | true, .present v => some v
      | _, _ => none
    let total := (base.map Version.total).getD 0 + p.b
    let segmented := decide (a.gen = 2 ∧ segmentBytes < total)
    let pin := findPin s.store.pins a.tenant p.key
    match base with
    | some { isOpen := true, num := n, .. } => .error (0x11, 0, n)
    | _ =>
      if 1048576 < total then .error (0x12, 1, 0)
      else if overQuota s.store.keys a.tenant p.key a.admitAt (p.keyLen + total) (s.tenant a.tenant).quotaGb then .error (0x12, 3, 0)
      else if (pin.isSome && segmented) ∨
          pinRefuses s.store.pins a.tenant p.key (pinCharge p.keyLen total) (s.tenant a.tenant).pinMaxKib = true then .error (0x12, 4, 0)
      else if append ∧ isSectorKey p.key ∧ total ≠ 4096 then .error (0x13, 2, 0)
      else .ok ⟨p.key, num, base, total, if append then (base.map Version.expiry).getD 0 else expiryNs a.admitAt p.a, segmented⟩

/-- Row 8 for a PUT or APPEND (R245, R277, R285); DATA is judged by MSG_BODY_TOTAL, which a complete message equals. -/
def writeLimits (append : Bool) (a : Ask) (p : ReqBody) : Option Refused :=
  firstOf [p.keyBad, refuseIf (decide ((if a.gen = 2 then 1048576 else segmentBytes) < p.b)) 0x12 1,
    refuseIf (decide (a.bodyTotal - 20 - p.keyLen ≠ p.b)) 0x51 3,
    refuseIf (!append && isSectorKey p.key && !(p.b = 4096 && p.a = 0)) 0x13 2]

/-- The version put in front of its key and its first extent staged, with its bytes from `off` on; the pin of the key takes the
new charge. -/
def State.storeVersion (t : Nat) (k : Bytes) (v : Version) (c : Change) (bytes off : Nat) (base : Option (Nat × Nat)) (s : State) : State :=
  (s.modStore fun x => { x with
    keys := putVersion x.keys t k v, pins := repin x.pins t k (pinCharge k.length v.total) }).stageExtent c bytes off (v.value.length - off) base 1

/-- A PUT or APPEND from row 8 on; `early` when the rest of its message is still to come. -/
def State.runWrite (append early : Bool) (x : Admitted) (poison : Option Nat) (s : State) : State :=
  let a := x.ask
  let p := parseBody false x.body
  let s := s.expirePin a.tenant p.key a.admitAt
  let pinned := s.pinned a p.key
  match firstOf [writeLimits append a p, s.writeRefused] with
  | some (st, r) => s.fail a st r { pinned := pinned }
  | none => match s.resolveWrite append a p with
    | .error (st, r, n) => s.fail a st r { version := n, pinned := pinned }
    | .ok w =>
      let first := if w.segmented then min p.b segmentBytes else p.b
      let charge : Charge := ⟨lineBytes first, true,
        overCapacity s.store.keys a.tenant p.key a.admitAt (p.keyLen + w.total) s.fused.userCapacity⟩
      match s.windbreak charge with
      | .error (st, r, retry) => s.fail a st r { result := retry, pinned := pinned }
      | .ok s => match poison with
        | some line => ((s.commit a).eventFor (some (a.ref 0x51 2)) .linePoisoned line 0 0).finish { a with location := line } 0x51 2
            { pinned := pinned }
        | none =>
          let value := (w.base.map Version.value).getD [] ++ p.data.take first
          let v : Version :=
            { num := w.num, value := value, total := w.total, admitAt := a.admitAt, expiry := w.expiry, segmented := w.segmented
              isOpen := decide (value.length < w.total), crc16 := if isSectorKey p.key then some (crc16 value) else none }
          let base := w.base.map fun b => (b.num, b.admitAt)
          let c : Change := if w.segmented then .segment a.tenant p.key v true else .put a.tenant p.key v
          let s := (s.commit a).storeVersion a.tenant p.key v c (lineBytes first) ((w.base.map Version.total).getD 0) base
          if early && v.isOpen then s.modFlight a.sid a.msgId fun f => { f with work := .segmented p.key v base, pinned := pinned }
          else s.finish a 0 0 { version := v.num, result := v.total, segmented := v.segmented, pinned := pinned }

/-- The segmented write of a message runs: its first segment is staged and more are to come. -/
def State.writeOpen (sid msgId : Nat) (s : State) : Bool :=
  match s.ses.find sid with
  | none => false
  | some e => match e.flight msgId with
    | some f => (match f.work with | .segmented .. => true | _ => false)
    | none => false

/-- PUT and APPEND: the row takes its message, whole or from its first segment on. -/
def State.write (append : Bool) (sid msgId : Nat) (poison : Option Nat) (s : State) : State :=
  match s.ses.find sid with
  | none => s
  | some e =>
    match e.message 0x10 msgId with
    | none => s
    | some a =>
      if !e.phase.answers ∨ !s.net.gateOpen ∨ a.admitted ∨ e.gen = 1 ∨ a.opcode ≠ (if append then 0x21 else 0x20) ∨
          s.outranked e ((a.ready e.gen).getD a) then s
      else if a.early e.gen then
        match s.judgeRequest e a.firstSegment with
        | (none, s) => s.endMessage sid false a
        | (some x, s) =>
          let s := s.runWrite append true x poison
          if s.writeOpen sid msgId then s.freeStaged sid (20 + fieldAt 0 1 x.body) { a with admitted := true, staged := 1 }
          else s.takeMessage sid a
      else if !a.complete then s
      else match (s.takeMessage sid a).judgeRequest e a with
        | (none, s) => s
        | (some x, s) => s.runWrite append false x poison

/-- PUT. -/
def execPut (sid msgId : Nat) (poison : Option Nat) (s : State) : Host.Outcome State Fault Refusal := (s.write false sid msgId poison).done

/-- APPEND. -/
def execAppend (sid msgId : Nat) (poison : Option Nat) (s : State) : Host.Outcome State Fault Refusal := (s.write true sid msgId poison).done

end Sys2Proof.Machine
end

