-- ==== Sys2Proof/Machine/Kv.lean ====
section
/-!
DEFINITION. The store's other opcodes: GET, DELETE, RANGE_READ, RANGE_DELETE, PIN, UNPIN, range locks and the completions
of held requests (chapters 10 and 12).
-/
namespace Sys2Proof.Machine

/-! ## GET (R300, R303, R310) -/

/-- GET from row 8 on. -/
def State.runGet (x : Admitted) (s : State) : State :=
  let a := x.ask
  let p := parseBody false x.body
  let s := s.expirePin a.tenant p.key a.admitAt
  let pinned := s.pinned a p.key
  match firstOf [p.keyBad, refuseIf (decide ((if a.gen = 2 then 65536 else 1416) < p.b)) 0x12 1, s.readRefused] with
  | some (st, r) => s.fail a st r { pinned := pinned }
  | none => match resolve s.store.keys a.tenant p.key a.admitAt with
    | .absent => s.fail a 0x10 1 { pinned := pinned }
    | .expired n => s.fail a 0x10 2 { version := n, pinned := pinned }
    | .present top => match readable s.store.keys a.tenant p.key p.versionCond a.admitAt with
      | none => s.fail a 0x11 0 { version := top.num, pinned := pinned }
      | some v =>
        if p.b = 0 then s.finish a 0 0 (readBody v 0 0 pinned)
        else if !v.covers p.a p.b then s.hold a (.openRead p.key v.num v.admitAt p.a p.b) pinned
        else if spanInSram s.store a.tenant p.key v p.a p.b then s.finish a 0 0 (readBody v p.a p.b pinned)
        else (s.hold a (readWork p.key v p.a p.b) pinned).requestRead a.sid a.msgId a.tenant p.key v.num

/-- GET. -/
def execGet (sid msgId : Nat) (s : State) : Host.Outcome State Fault Refusal :=
  (match s.takeRequest sid msgId false [0x10] with
   | (none, s) => s
   | (some x, s) => s.runGet x).done

/-! ## DELETE (R301, R302) -/

/-- DELETE from row 8 on. -/
def State.runDelete (x : Admitted) (s : State) : State :=
  let a := x.ask
  let p := parseBody false x.body
  let s := s.expirePin a.tenant p.key a.admitAt
  let pinned := s.pinned a p.key
  match firstOf [p.keyBad, s.writeRefused] with
  | some (st, r) => s.fail a st r { pinned := pinned }
  | none => match resolve s.store.keys a.tenant p.key a.admitAt with
    | .absent => s.fail a 0x10 1 { pinned := pinned }
    | .expired n => s.fail a 0x10 2 { version := n, pinned := pinned }
    | .present v =>
      if p.versionCond ≠ 0 ∧ p.versionCond ≠ v.num then s.fail a 0x11 0 { version := v.num, pinned := pinned }
      else match s.windbreak ⟨64, false, false⟩ with
        | .error (st, r, retry) => s.fail a st r { result := retry, pinned := pinned }
        | .ok s =>
          let s := (s.commit a).modStore fun y => { y with keys := dropKey y.keys a.tenant p.key, pins := dropPin y.pins a.tenant p.key }
          (s.stageExtent (.delete a.tenant p.key) 64 0 0 none 1).finish a 0 0 { version := v.num, pinned := pinned }

/-- DELETE. -/
def execDelete (sid msgId : Nat) (s : State) : Host.Outcome State Fault Refusal :=
  (match s.takeRequest sid msgId false [0x22] with
   | (none, s) => s
   | (some x, s) => s.runDelete x).done

/-! ## PIN and UNPIN (R258, R260) -/

/-- PIN from row 8 on. -/
def State.runPin (x : Admitted) (s : State) : State :=
  let a := x.ask
  let p := parseBody false x.body
  let s := s.expirePin a.tenant p.key a.admitAt
  let pinned := s.pinned a p.key
  let s := s.modFlight a.sid a.msgId fun f => { f with pinned := pinned }
  match firstOf [p.keyBad, s.writeRefused] with
  | some (st, r) => s.fail a st r { pinned := pinned }
  | none => match resolve s.store.keys a.tenant p.key a.admitAt with
    | .absent => s.fail a 0x10 1 { pinned := pinned }
    | .expired n => s.fail a 0x10 2 { version := n, pinned := pinned }
    | .present v =>
      let charge := pinCharge p.keyLen v.total
      if !pinned ∧ ((s.tenant a.tenant).pinMaxKib * 1024 < tenantPins s.store.pins a.tenant + charge ∨
          pinCacheBytes < pinsTotal s.store.pins + charge) then s.fail a 0x12 4 { pinned := pinned }
      else if s.power.thermalRefuse then s.fail a 0x32 3 { pinned := pinned }
      else if s.mode = .brace then s.fail a 0x32 ((s.power.brace.map fun b => b.cause.reason).getD 1) { pinned := pinned }
      else match findPin s.store.pins a.tenant p.key with
        | some q => s.finish a 0 0 { version := q.loaded.getD 0, result := s.pinSpace a.tenant, pinned := true }
        | none =>
          let ready := !v.isOpen && inSram s.store a.tenant p.key v
          let pin : Pin := ⟨a.tenant, p.key, charge, if ready then some v.num else none⟩
          let s := (s.modStore fun y => { y with pins := y.pins ++ [pin] }).mapChanged
          let s := s.modFlight a.sid a.msgId fun f => { f with undo := some (true, pin) }
          if ready then s.finish a 0 0 { version := v.num, result := s.pinSpace a.tenant, pinned := true }
          else if v.isOpen then s.hold a (.pinOpen p.key v.num v.admitAt) false
          else (s.hold a (.pinLoad p.key v.num) false).requestRead a.sid a.msgId a.tenant p.key v.num

/-- PIN. -/
def execPin (sid msgId : Nat) (s : State) : Host.Outcome State Fault Refusal :=
  (match s.takeRequest sid msgId false [0x40] with
   | (none, s) => s
   | (some x, s) => s.runPin x).done

/-- UNPIN from row 8 on. -/
def State.runUnpin (x : Admitted) (s : State) : State :=
  let a := x.ask
  let p := parseBody false x.body
  match firstOf [p.keyBad, s.readRefused] with
  | some (st, r) => s.fail a st r {}
  | none =>
    let undo := (findPin s.store.pins a.tenant p.key).map fun q => (false, q)
    let s := (s.modStore fun y => { y with pins := dropPin y.pins a.tenant p.key }).mapChanged
    (s.modFlight a.sid a.msgId fun f => { f with undo := undo }).finish a 0 0 { result := s.pinSpace a.tenant }

/-- UNPIN. -/
def execUnpin (sid msgId : Nat) (s : State) : Host.Outcome State Fault Refusal :=
  (match s.takeRequest sid msgId false [0x41] with
   | (none, s) => s
   | (some x, s) => s.runUnpin x).done

/-! ## Ranges (R312 to R315) -/

/-- The range lock that a flight waits for or holds. -/
def Flight.lockOf (e : Sess) (f : Flight) : Option RangeLock :=
  match f.work with
  | .rangeWait _ start end_ _ => some ⟨e.tenant, e.id, f.msgId, start, end_⟩
  | .rangeHeld _ start end_ _ _ => some ⟨e.tenant, e.id, f.msgId, start, end_⟩
  | _ => none

/-- The result that a RANGE_READ forms at the grant of its lock (R254, R313). -/
def State.rangeResult (e : Sess) (f : Flight) (start : Bytes) (end_ : Option Bytes) (most : Nat) (s : State) : AnswerBody :=
  let (data, n, more) := packRange (if e.gen = 2 then 65536 else 1416) most (presentInRange s.store.keys e.tenant start end_ f.admitAt)
  { result := n, more := more, data := data }

/-- The pins of keys that a range operation finds expired end (R260, R316). -/
def State.expireRange (t : Nat) (start : Bytes) (end_ last : Option Bytes) (admitAt : Nat) (s : State) : State :=
  s.modStore fun x => { x with pins := dropExpiredPins x.keys x.pins t start end_ last admitAt }

/-- A lock granted (R315): a RANGE_READ fixes its result at this moment. -/
def State.grantLock (q : RangeLock) (s : State) : State :=
  match s.ses.find q.session with
  | none => s
  | some e => match e.flight q.msgId with
    | none => s
    | some f => match f.work with
      | .rangeWait del start end_ most =>
        let result := if del then {} else s.rangeResult e f start end_ most
        let s := if del then s else s.expireRange e.tenant start end_ none f.admitAt
        (s.modSes (SessionState.grant q)).modFlight e.id f.msgId fun f => { f with work := .rangeHeld del start end_ most result }
      | _ => s

/-- The waiting requests examined in arrival order; `fuel` bounds the grants. -/
def State.examine : Nat → State → State
  | 0, s => s
  | n + 1, s => match firstGrantable s.ses.held [] s.ses.waiting with
    | none => s
    | some q => State.examine n (s.grantLock q)

/-- RANGE_LOCK_GRANT (R315): after a release, the waiting requests are examined in arrival order, and each one that can be granted
is granted (notes/assumptions/43.md). -/
def State.lockGrant (s : State) : State := s.examine s.ses.waiting.length

/-- RANGE_LOCK_GRANT. -/
def execRangeLockGrant (s : State) : Host.Outcome State Fault Refusal := s.lockGrant.done

/-- A range operation requests its lock: its work waits, and the waiting requests are examined. -/
def State.askLock (a : Ask) (del : Bool) (start : Bytes) (end_ : Option Bytes) (most : Nat) (s : State) : State :=
  let s := s.hold a (.rangeWait del start end_ most) false
  let s := s.modSes fun x => { x with waiting := x.waiting ++ [⟨a.tenant, a.sid, a.msgId, start, end_⟩] }
  s.examine s.ses.waiting.length

/-- Row 8 for a range operation (R245). -/
def State.rangeLimits (p : ReqBody) (s : State) : Option Refused :=
  firstOf [refuseIf (decide (128 < p.keyLen ∨ 128 < p.param16)) 0x13 1, refuseIf (!p.whole) 0x13 2,
    refuseIf (decide (s.cfg.inUse.kv.rangeMaxKeys < p.a)) 0x12 2]

/-- KEY_COUNT_MAX in effect (Table 10-3). -/
def State.keyCountMax (p : ReqBody) (s : State) : Nat := if p.a = 0 then s.cfg.inUse.kv.rangeMaxKeys else p.a

/-- A RANGE_DELETE of LY3 that Brace refuses: its answer is inline (Table 10-7). -/
def State.rangeBraced (del : Bool) (gen : Nat) (s : State) : Option Refused :=
  if !del ∨ gen ≠ 3 then none
  else match s.judge ⟨64, false, false⟩ with
    | .bracing r => some (0x32, r)
    | .granted | .throttled .. => none

/-- RANGE_READ and RANGE_DELETE from row 8 on. -/
def State.runRange (del : Bool) (x : Admitted) (s : State) : State :=
  let a := x.ask
  let p := parseBody true x.body
  match firstOf [s.rangeLimits p, if del then s.writeRefused else s.readRefused] with
  | some (st, r) => s.fail a st r {}
  | none =>
    if rangeEmpty p.key (endBound p.endKey) then s.finish a 0 0 {}
    else match s.rangeBraced del a.gen with
      | some (st, r) => s.finish a st r {}
      | none => s.askLock a del p.key (endBound p.endKey) (s.keyCountMax p)

/-- RANGE_READ. -/
def execRangeRead (sid msgId : Nat) (s : State) : Host.Outcome State Fault Refusal :=
  (match s.takeRequest sid msgId false [0x30] with
   | (none, s) => s
   | (some x, s) => s.runRange false x).done

/-- RANGE_DELETE. -/
def execRangeDelete (sid msgId : Nat) (s : State) : Host.Outcome State Fault Refusal :=
  (match s.takeRequest sid msgId false [0x31] with
   | (none, s) => s
   | (some x, s) => s.runRange true x).done

/-! ## Completions of held requests (R253, R254, R258) -/

/-- The answer of a range delete of any generation: keys removed, or a refusal at row 11. -/
def State.endRangeDelete (a : Ask) (status reason : Nat) (b : AnswerBody) (s : State) : State :=
  if a.gen = 1 then match a.ly1 with
    | some (n, lba, count) => s.finishLy1 a status reason false n lba (if status = 0 then count else 0) []
    | none => s.fail a status reason b
  else s.finish a status reason b

/-- A range delete that holds its lock passes windbreak and is staged as one record, or is refused (R314). -/
def State.runRangeDelete (e : Sess) (f : Flight) (start : Bytes) (end_ : Option Bytes) (most : Nat) (s : State) : State :=
  let a := f.ask e
  let s := s.modSes (SessionState.unlock e.id f.msgId)
  match s.windbreak ⟨64, false, false⟩ with
  | .error (st, r, retry) => s.endRangeDelete a st r { result := retry }
  | .ok s =>
    let sectors := decide (e.gen = 1)
    let (gone, last) := rangeVictims s.store.keys e.tenant start end_ f.admitAt most sectors
    let s := (s.expireRange e.tenant start end_ last f.admitAt).commit a |>.modStore fun y => { y with
      keys := applyRangeDelete y.keys e.tenant start end_ last f.admitAt sectors
      pins := y.pins.filter fun p => !(p.tenant = e.tenant && gone.contains p.key) }
    (s.stageExtent (.rangeDelete e.tenant start end_ last f.admitAt sectors) 64 0 0 none 1).endRangeDelete a 0 0 { result := gone.length }

/-- Some page of a version is known to be lost, or lies on a failed die. -/
def State.versionLost (t : Nat) (k : Bytes) (num : Nat) (s : State) : Bool :=
  match s.media.placed.find? fun p => p.tenant = t && p.key = k && p.version = num with
  | some p => p.pages.any s.unreadable
  | none => false

/-- The pages that hold a version. -/
def State.versionPages (t : Nat) (k : Bytes) (num : Nat) (s : State) : List Nat :=
  ((s.media.placed.find? fun p => p.tenant = t && p.key = k && p.version = num).map Placement.pages).getD []

/-- The media read of a held request is over: one that still waited on its die has been read with it (R364), and one in progress
ends there. -/
def State.tookRead (sid msgId step : Nat) (s : State) : State :=
  match s.media.waiting.find? fun o => o.purpose = .held sid msgId with
  | none => s
  | some o => (s.countPages o step 0).dropOps fun p => p = .held sid msgId

/-- The page that a read of a version reports: the first one known to be gone, else the first one (R372). -/
def State.faultPage (t : Nat) (k : Bytes) (num : Nat) (s : State) : Nat :=
  match s.media.placed.find? fun p => p.tenant = t && p.key = k && p.version = num with
  | some p => ((p.pages.find? s.unreadable).or p.pages.head?).getD 0
  | none => 0

/-- A page of a version found uncorrectable while a request read it (R372): the first one that was still good. -/
def State.loseVersion (r : RequestRef) (t : Nat) (k : Bytes) (num : Nat) (s : State) : State :=
  match s.media.placed.find? fun p => p.tenant = t && p.key = k && p.version = num with
  | some p => if p.pages.any s.unreadable then s else match p.pages with
    | a :: _ => s.losePage (some r) a
    | [] => s
  | none => s

/-- The work of a held request ends and its result is formed and queued. -/
def State.endHeld (sid msgId : Nat) (o : MediaOutcome) (s : State) : State :=
  match s.ses.find sid with
  | none => s
  | some e => match e.flight msgId with
    | none => s
    | some f =>
      let a := f.ask e
      let took (s : State) : State := s.tookRead sid msgId (if o = .uncorrectable then 5 else 1)
      let lost (k : Bytes) (v : Nat) : Bool := decide (o = .uncorrectable) || s.versionLost e.tenant k v
      let note (k : Bytes) (v : Nat) (s : State) : State :=
        s.when (decide (o = .uncorrectable)) (State.loseVersion (a.ref 0x50 1) e.tenant k v)
      let at_ (k : Bytes) (v : Nat) : Ask := { a with location := s.faultPage e.tenant k v }
      if !s.engineRuns then s
      else match f.work with
      | .read k num value total segmented off len =>
        if lost k num then note k num ((took s).finish (at_ k num) 0x50 1 { pinned := f.pinned })
        else (took s).finish a 0 0
          { version := num, result := total, segmented := segmented, pinned := f.pinned, data := slice off (min len (total - off)) value }
      | .pinLoad k num =>
        if lost k num then
          note k num (((took s).modStore fun y => { y with pins := dropPin y.pins e.tenant k }).finish (at_ k num) 0x50 1 { pinned := f.pinned })
        else
          let s := (took s).modStore fun y => { y with pins := y.pins.map fun p =>
            if p.tenant = e.tenant && p.key = k && p.loaded.isNone then { p with loaded := some num } else p }
          s.finish a 0 0 { version := num, result := s.pinSpace e.tenant, pinned := true }
      | .rangeHeld false _ _ _ result => (s.modSes (SessionState.unlock sid msgId)).finish a 0 0 result
      | .rangeHeld true start end_ most _ => s.runRangeDelete e f start end_ most
      | .answered | .openRead .. | .pinOpen .. | .rangeWait .. | .flush _ | .segmented .. | .admin => s

/-- HELD_COMPLETION: a held request's result; in a warm start its completion is kept with its session (R97). -/
def State.heldComplete (sid msgId : Nat) (o : MediaOutcome) (s : State) : State := (s.endHeld sid msgId o).keepInStart

/-- HELD_COMPLETION. -/
def execHeldCompletion (sid msgId : Nat) (o : MediaOutcome) (s : State) : Host.Outcome State Fault Refusal :=
  (s.heldComplete sid msgId o).done

end Sys2Proof.Machine
end

