-- ==== Sys2Proof/Machine/Ly1.lean ====
section
/-!
DEFINITION. The LY1 commands (chapter 11, R284 to R294).
-/
namespace Sys2Proof.Machine

/-- CAP of R284. -/
def State.sectorCap (t : Nat) (s : State) : Nat :=
  let q := (s.tenant t).quotaGb
  if q = 0 then s.fused.userCapacity / 4096 else q * 1000000000 / 4096

/-- The largest TRIM count (Table 11-5). -/
def State.trimMax (s : State) : Nat := min 65535 s.cfg.inUse.kv.rangeMaxKeys

/-- The final image of a command that ended with a status for which Table 11-8 gives no TR_ERROR: that code is free
(notes/assumptions/13.md). -/
def State.openImage (a : Ask) (s : State) : State :=
  match a.ly1 with
  | none => s
  | some (n, lba, _) =>
    if loadsSet a.opcode then
      let (d, s) := s.draw
      let img : Ly1Image := ⟨n, 0x01, Config.ly1Error d % 256, s.mode.code, lba, 0, a.msgId⟩
      s.modSess a.sid fun e => { e with sets := modifyAt n (fun x => { x with image := img }) e.sets }
    else s

/-- A refusal of an LY1 command from row 8 on: a status, a reason and whether it is check 3 of R289. The refusals that
Table 11-8 maps to no image carry none (R291); its set takes one all the same (R286). -/
def State.refuseLy1 (a : Ask) (status reason : Nat) (range : Bool) (s : State) : State :=
  if status = 0x51 ∧ reason = 3 then
    ((s.openImage a).modFlight a.sid a.msgId fun f => { f with work := .answered }).say a.sid a.rx a.admitAt
      { kind := 0x11, gen := 1, tenant := a.tenant, session := a.sid, msgId := a.msgId, alive := a.alive, opcode := a.opcode
        status := status, reason := reason, aliveGap := a.gap, body := .raw [], ends := true }
  else match a.ly1 with
    | some (n, lba, _) => s.finishLy1 a status reason range n lba 0 []
    | none => s.finishLy1 a status reason range 0xFF 0 0 []

/-- A refusal of R289 or of row 9: status, reason, and whether check 3 failed. -/
abbrev Ly1Refused := Nat × Nat × Bool

/-- Check 1 of R289 for a command, which names a set or not. -/
def ly1Short (names : Bool) (b : Bytes) (p : Ly1Body) : Option Ly1Refused :=
  if b.length < 16 ∨ (names ∧ 15 < p.set) then some (0x13, 2, false) else none

/-- Checks 2 to 4 of R289. -/
def State.ly1Limits (a : Ask) (p : Ly1Body) (s : State) : Option Ly1Refused :=
  let trim := decide (a.opcode = 0x31)
  if p.count = 0 then some (0x12, 1, false)
  else if trim ∧ s.trimMax < p.count then some (0x12, if s.cfg.inUse.kv.rangeMaxKeys < p.count then 2 else 1, false)
  else if !trim ∧ 16 < p.count then some (0x12, 1, false)
  else if s.sectorCap a.tenant < p.lba + p.count then some (0x13, 2, true)
  else if a.opcode = 0x30 ∧ p.data.length ≠ p.count * 4096 then some (0x51, 3, false)
  else none

/-- Rows 8 and 9 of an LY1 command. -/
def State.ly1Refused (x : Admitted) (s : State) : Option Ly1Refused :=
  let op := x.ask.opcode
  let p := parseLy1 x.body
  match ly1Short (loadsSet op || op = 0x50) x.body p with
  | some r => some r
  | none => match (if loadsSet op then s.ly1Limits x.ask p else none) with
    | some r => some r
    | none => (if op = 0x30 ∨ op = 0x31 then s.writeRefused else s.readRefused).map fun r => (r.1, r.2, false)

/-- An LY1 row: the command admitted and past rows 8 and 9, then its effect. -/
def State.ly1Row (sid msgId op : Nat) (run : Ask → Ly1Body → State → State) (s : State) : State :=
  match s.takeRequest sid msgId true [op] with
  | (none, s) => s
  | (some x, s) => match s.ly1Refused x with
    | some (st, r, range) => s.refuseLy1 x.ask st r range
    | none => run x.ask (parseLy1 x.body) s

/-- NOP (R288). -/
def execNop (sid msgId : Nat) (s : State) : Host.Outcome State Fault Refusal :=
  (s.ly1Row sid msgId 0x01 fun a p s => s.finishLy1 a 0 0 false p.set p.lba 0 []).done

/-! ## READ_SECTORS (R285, R293, R433) -/

/-- The bytes of a sector for a command admitted at a timestamp. -/
def State.sectorBytes (t n admitAt : Nat) (s : State) : Bytes :=
  match resolve s.store.keys t (sectorKey n) admitAt with
  | .present v => padTo 4096 v.value
  | .absent | .expired _ => zeros 4096

/-- The number of a sector's newest version. -/
def State.sectorVersion (t n : Nat) (s : State) : Nat := ((newest s.store.keys t (sectorKey n)).map Version.num).getD 0

/-- The first page that a sector's newest version lies in, 0 while it lies in none. -/
def State.sectorPage (t n : Nat) (s : State) : Nat :=
  ((s.media.placed.find? fun p => p.tenant = t && p.key = sectorKey n && p.version = s.sectorVersion t n).bind fun p => p.pages.head?).getD 0

/-- A sector's newest version has a page that is gone, and no copy of it stands in SRAM (R372). -/
def State.sectorLost (t n admitAt : Nat) (s : State) : Bool :=
  match resolve s.store.keys t (sectorKey n) admitAt with
  | .present v => !inSram s.store t (sectorKey n) v && s.versionLost t (sectorKey n) v.num
  | .absent | .expired _ => false

/-- A sector's newest version is read from flash. -/
def State.sectorOnFlash (t n admitAt : Nat) (s : State) : Bool :=
  match resolve s.store.keys t (sectorKey n) admitAt with
  | .present v => !inSram s.store t (sectorKey n) v &&
      s.media.placed.any fun p => decide (p.tenant = t) && decide (p.key = sectorKey n) && decide (p.version = v.num)
  | .absent | .expired _ => false

/-- CU3 finds another CRC-16 than the one kept with a sector. -/
def State.crcDiffers (t n admitAt crc : Nat) (s : State) : Bool :=
  match resolve s.store.keys t (sectorKey n) admitAt with
  | .present v => decide (v.crc16.isSome ∧ v.crc16 ≠ some crc)
  | .absent | .expired _ => false

/-- The reaction of R433 to a sector whose check differs. -/
def State.checkMismatch (r : RequestRef) (page : Nat) (s : State) : State :=
  let b := blockOf page
  (s.eventFor (some r) .checkMismatch 3 page 0).request .read .refresh b 0

/-- The answer of a READ_SECTORS whose sector `i` is the first that could not be read (R293). -/
def State.readFails (a : Ask) (p : Ly1Body) (i : Nat) (s : State) : State :=
  let page := s.faultPage a.tenant (sectorKey (p.lba + i)) (s.sectorVersion a.tenant (p.lba + i))
  s.finishLy1 { a with location := page } 0x50 1 false p.set (p.lba + i) i []

/-- The answer of a READ_SECTORS that read every sector, or whose first unreadable one was known to be lost before. -/
def State.readKnown (lost : Option Nat) (a : Ask) (p : Ly1Body) (s : State) : State :=
  match lost with
  | some i => s.readFails a p i
  | none => s.finishLy1 a 0 0 false p.set p.lba p.count ((List.range p.count).flatMap fun i => s.sectorBytes a.tenant (p.lba + i) a.admitAt)

/-- The first `n` sectors of a command read from flash: one read of each of their pages (R364). -/
def State.countSectors (a : Ask) (p : Ly1Body) (n : Nat) (s : State) : State :=
  (List.range n).foldl (fun s i =>
    if s.sectorOnFlash a.tenant (p.lba + i) a.admitAt = true then
      (s.versionPages a.tenant (sectorKey (p.lba + i)) (s.sectorVersion a.tenant (p.lba + i))).foldl (fun s x => s.countReads 1 (blockOf x)) s
    else s) s

/-- A sector whose page needed step 2 or 3: its further reads, the refresh of its block and the band's tracked index (R361). -/
def State.hardSector (a : Ask) (p : Ly1Body) (s : State) (h : Nat × Nat × Nat) : State :=
  let (i, step, index) := h
  let page := s.sectorPage a.tenant (p.lba + i)
  let k := s.threshold page
  if p.count ≤ i ∨ s.sectorOnFlash a.tenant (p.lba + i) a.admitAt = false ∨ step < 2 ∨ 3 < step ∨
      s.canDecode (blockOf page) k step index 0 = false then s
  else ((s.countReads (readsTaken k step index - 1) (blockOf page)).noteDifficult (blockOf page) step index).kick (blockOf page).die

/-- READ_SECTORS from its effect on: its sectors are read in ascending order up to the first that fails. -/
def State.readSectors (o : SectorOutcome) (a : Ask) (p : Ly1Body) (s : State) : State :=
  let lost := (List.range p.count).find? fun i => s.sectorLost a.tenant (p.lba + i) a.admitAt
  let most := lost.getD p.count
  match o with
  | .read hard => (hard.foldl (State.hardSector a p) (s.countSectors a p most)).readKnown lost a p
  | .uncorrectable i =>
    if i < most ∧ s.sectorOnFlash a.tenant (p.lba + i) a.admitAt = true then
      ((s.countSectors a p (i + 1)).readFails a p i).loseVersion (a.ref 0x50 1) a.tenant (sectorKey (p.lba + i)) (s.sectorVersion a.tenant (p.lba + i))
    else s.readKnown lost a p
  | .mismatch i crc =>
    if i < most ∧ s.crcDiffers a.tenant (p.lba + i) a.admitAt crc = true then
      ((s.countSectors a p (i + 1)).checkMismatch (a.ref 0x50 1) (s.sectorPage a.tenant (p.lba + i))).readFails a p i
    else s.readKnown lost a p

/-- READ_SECTORS. -/
def execReadSectors (sid msgId : Nat) (o : SectorOutcome) (s : State) : Host.Outcome State Fault Refusal :=
  (s.ly1Row sid msgId 0x20 (State.readSectors o)).done

/-! ## WRITE_SECTORS (R292) -/

/-- The rise of the tenant's charge by a WRITE_SECTORS: absent sectors cost key and value. -/
def State.sectorRise (a : Ask) (p : Ly1Body) (s : State) : Nat :=
  natSum ((List.range p.count).map fun i => 4106 - chargeOf s.store.keys a.tenant (sectorKey (p.lba + i)) a.admitAt)

/-- The quota refuses a rise (R317). -/
def State.quotaExceeded (t admitAt rise : Nat) (s : State) : Bool :=
  let q := (s.tenant t).quotaGb
  decide (0 < q) && decide (0 < rise) && decide (q * 1000000000 < tenantCharge s.store.keys t admitAt + rise)

/-- The capacity refuses a rise (R318). -/
def State.capacityExceeded (admitAt rise : Nat) (s : State) : Bool :=
  decide (0 < rise) && decide (s.fused.userCapacity < liveData s.store.keys admitAt + rise)

/-- One sector staged as a key of its own. -/
def State.storeSector (a : Ask) (n : Nat) (bytes : Bytes) (s : State) : State :=
  let k := sectorKey n
  let s := s.expirePin a.tenant k a.admitAt
  let num := (nextVersion (resolve s.store.keys a.tenant k a.admitAt)).getD 1
  let v : Version := { num := num, value := bytes, total := 4096, admitAt := a.admitAt, expiry := 0, crc16 := some (crc16 bytes) }
  s.storeVersion a.tenant k v (.put a.tenant k v) 4096 0 none

/-- The first `n` sectors of a command staged in ascending order. -/
def State.storeSectors (a : Ask) (p : Ly1Body) (n : Nat) (s : State) : State :=
  (List.range n).foldl (fun s i => s.storeSector a (p.lba + i) (slice (i * 4096) 4096 p.data)) s

/-- WRITE_SECTORS from its effect on; `poison` names a sector of the command and the address of its failing line. -/
def State.writeSectors (poison : Option (Nat × Nat)) (a : Ask) (p : Ly1Body) (s : State) : State :=
  let rise := s.sectorRise a p
  if s.quotaExceeded a.tenant a.admitAt rise then s.finishLy1 a 0x12 3 false p.set p.lba 0 []
  else match s.windbreak ⟨p.count * 4096, true, s.capacityExceeded a.admitAt rise⟩ with
    | .error (st, r, _) => s.finishLy1 a st r false p.set p.lba 0 []
    | .ok s =>
      let s := s.commit a
      match poison with
      | some (i, line) =>
        if i < p.count then ((s.storeSectors a p i).eventFor (some (a.ref 0x51 2)) .linePoisoned line 0 0).finishLy1
          { a with location := line } 0x51 2 false p.set (p.lba + i) i []
        else (s.storeSectors a p p.count).finishLy1 a 0 0 false p.set p.lba p.count []
      | none => (s.storeSectors a p p.count).finishLy1 a 0 0 false p.set p.lba p.count []

/-- WRITE_SECTORS. -/
def execWriteSectors (sid msgId : Nat) (poison : Option (Nat × Nat)) (s : State) : Host.Outcome State Fault Refusal :=
  (s.ly1Row sid msgId 0x30 (State.writeSectors poison)).done

/-! ## The other commands -/

/-- TRIM (R293): a range delete over the keys of its sectors, under a range lock. -/
def execTrim (sid msgId : Nat) (s : State) : Host.Outcome State Fault Refusal :=
  (s.ly1Row sid msgId 0x31 fun a p s => s.askLock a true (sectorKey p.lba) (some (sectorKey (p.lba + p.count))) p.count).done

/-- FLUSH (Table 11-5): it waits for the WRITE_SECTORS and TRIM of the session that were admitted before it. -/
def State.flush (a : Ask) (s : State) : State :=
  let waits := match s.ses.find a.sid with
    | none => []
    | some e => (e.flights.filter fun f => f.opcode = 0x30 || f.opcode = 0x31).map Flight.msgId
  (s.modFlight a.sid a.msgId fun f => { f with work := .flush waits }).settleCloses

/-- FLUSH. -/
def execFlush (sid msgId : Nat) (s : State) : Host.Outcome State Fault Refusal :=
  (s.ly1Row sid msgId 0x40 fun a _ s => s.flush a).done

/-- The MSG_ID and TR_LBA of the command in flight that a set holds. -/
def Sess.loaded (n : Nat) (e : Sess) : Option (Nat × Nat) :=
  e.flights.findSome? fun f => match f.ly1 with
    | some (m, lba, _) => if m = n && loadsSet f.opcode then some (f.msgId, lba) else none
    | none => none

/-- STATUS_READ (R290): the image of the set named, with the current drive state; of a busy set, that of its command. -/
def State.statusRead (a : Ask) (p : Ly1Body) (s : State) : State :=
  let e := s.ses.find a.sid
  let x : Ly1Set := (e.map fun e => e.sets.getD p.set {}).getD {}
  let cmd := ((e.bind (Sess.loaded p.set)).getD (x.image.cmdMsgId, x.image.lba))
  let img : Ly1Image :=
    if x.busy then { set := p.set, flags := 0x80, driveState := s.mode.code, lba := cmd.2, cmdMsgId := cmd.1 }
    else { x.image with set := p.set, driveState := s.mode.code }
  (s.modFlight a.sid a.msgId fun f => { f with work := .answered }).say a.sid a.rx a.admitAt
    { kind := 0x11, gen := 1, tenant := a.tenant, session := a.sid, msgId := a.msgId, alive := a.alive, opcode := a.opcode
      aliveGap := a.gap, body := .raw img.encode, ends := true }

/-- STATUS_READ. -/
def execStatusRead (sid msgId : Nat) (s : State) : Host.Outcome State Fault Refusal :=
  (s.ly1Row sid msgId 0x50 State.statusRead).done

/-- Table 11-7. -/
def State.windowData (t : Nat) (s : State) : Bytes :=
  beBytes 6 (s.sectorCap t) ++ beBytes 2 4096 ++ beBytes 1 16 ++ beBytes 1 16 ++ beBytes 2 s.trimMax ++ zeros 20

/-- IDENTIFY_WINDOW. -/
def execIdentifyWindow (sid msgId : Nat) (s : State) : Host.Outcome State Fault Refusal :=
  (s.ly1Row sid msgId 0x51 fun a p s => s.finishLy1 a 0 0 false p.set p.lba 0 (s.windowData a.tenant)).done

end Sys2Proof.Machine
end

