-- ==== Sys2Proof/Machine/Package.lean ====
section
/-!
DEFINITION. Firmware packages (chapter 19): their layout, binding, signature and content (R471 to R475), the checks of
Table 19-6, the scan jobs of a verification (R481), and eligibility for Graft (R484).
-/
namespace Sys2Proof.Machine

/-! ## Layout (Tables 19-2 and 19-3) -/

/-- A part entry from its 64 bytes. -/
def parsePart (b : Bytes) : PartEntry :=
  { part := fieldAt 0 1 b, version := fieldAt 4 4 b, offset := fieldAt 8 4 b, length := fieldAt 12 4 b
    hash := slice 16 32 b, iv := slice 48 12 b, head := b.take 16 }

/-- A package from its first 512 bytes. -/
def parsePackage (b : Bytes) : Package :=
  { magic := fieldAt 0 4 b, format := fieldAt 4 1 b, binding := fieldAt 5 1 b, partCount := fieldAt 6 1 b, sigKey := fieldAt 7 1 b
    manifest := fieldAt 8 4 b, length := fieldAt 12 4 b, hwTypes := fieldAt 16 1 b % 4, settingsKeep := bit (fieldAt 17 1 b) 0
    steppingCount := fieldAt 18 1 b, unitCount := fieldAt 19 1 b, graftFormat := fieldAt 20 2 b, retainedFormat := fieldAt 22 2 b
    catalogue := fieldAt 24 2 b, confirmMin := fieldAt 26 1 b, keySlots := fieldAt 27 1 b, keySlotOffset := fieldAt 28 4 b
    steppings := (List.range (min 8 (fieldAt 18 1 b))).map fun i => fieldAt (32 + 2 * i) 2 b
    units := (List.range (min 16 (fieldAt 19 1 b))).map fun u => fieldAt (64 + 8 * u) 8 b
    parts := (List.range 4).map fun k => parsePart (slice (192 + 64 * k) 64 b)
    head := b.take 512 }

/-- The bytes received, in order; the whole package once every unit has arrived. -/
def Download.image (d : Download) : Bytes := (sortByKey Prod.fst d.units).flatMap Prod.snd

/-- Every unit of 4,096 bytes has arrived. -/
def Download.whole (d : Download) : Bool := decide ((d.length + 4095) / 4096 ≤ d.units.length)

/-- The header of a download. -/
def Download.package (d : Download) : Package := parsePackage (d.image.take 512)

/-! ## Checks 0x01 to 0x06 (Table 19-6) -/

/-- The unit is bound by name. -/
def Package.names (p : Package) (f : Fused) : Bool := decide (p.binding = 2) && p.units.contains f.unitId

/-- The unit's part is set in HW_TYPES. -/
def Package.forPart (p : Package) (f : Fused) : Bool := bit p.hwTypes (f.part.code - 1)

/-- R473: the binding is one that the unit accepts. -/
def Package.binds (p : Package) (f : Fused) : Bool := p.names f || (!f.unitBound && decide (p.binding = 1) && p.forPart f)

/-- The largest image of a part in bytes (Table 19-1). -/
def imageMost (part : Nat) : Nat := (if part = 1 then 32 else if 2 ≤ part ∧ part ≤ 4 then 8 else 32) * 1048576

/-- No two of some spans of bytes overlap. -/
def spansDisjoint : List (Nat × Nat) → Bool
  | [] => true
  | a :: rest => rest.all (fun b => decide (a.1 + a.2 ≤ b.1 ∨ b.1 + b.2 ≤ a.1)) && spansDisjoint rest

/-- Counts, offsets and sizes as R471 and Table 19-1 require (check 0x05). -/
def Package.laidOut (p : Package) : Bool :=
  let slots := (p.keySlotOffset, 132 * p.keySlots)
  let spans := (0, 512) :: slots :: p.parts.map fun e => (e.offset, e.length)
  decide (p.length ≤ 67108864) && decide (1 ≤ p.steppingCount ∧ p.steppingCount ≤ 8) &&
  decide (if p.binding = 1 then p.unitCount = 0 else 1 ≤ p.unitCount ∧ p.unitCount ≤ 16) &&
  decide (1 ≤ p.keySlots ∧ p.keySlots ≤ 16) &&
  p.parts.all (fun e => decide (4096 ≤ e.offset ∧ e.offset % 4096 = 0 ∧ 16 ≤ e.length ∧ e.length ≤ imageMost e.part)) &&
  spans.all (fun x => decide (x.1 + x.2 ≤ p.length)) && spansDisjoint spans

/-- The bytes that the signature covers: offsets 0 to 447 with three fields taken as 0 (R472). -/
def Package.signed (p : Package) : Bytes := slice 0 12 p.head ++ zeros 4 ++ slice 16 11 p.head ++ zeros 5 ++ slice 32 416 p.head

/-- A firmware verification key of the boot ROM. -/
def firmwareKey (i : Nat) : Bytes := (List.range 64).map (Config.firmwareKeyByte i)

/-- The signature verifies under the boot ROM's key. -/
def Package.signatureOk (p : Package) : Bool :=
  decide (p.sigKey ≤ 3) && ecdsaVerify (firmwareKey p.sigKey) (sha256 p.signed) (slice 448 64 p.head)

/-- The first of codes 0x01 to 0x06 that a header fails, for a download of a given length. Reserved fields are ignored, as R19
and R471 have it (notes/assumptions/27.md). -/
def Package.headerCode (f : Fused) (begun : Nat) (p : Package) : Option Nat :=
  if p.magic ≠ 0x454B4657 ∨ p.format ≠ 1 ∨ p.partCount ≠ 4 then some 0x01
  else if !(p.forPart f || p.names f) then some 0x02
  else if !p.steppings.contains f.stepping then some 0x03
  else if !p.binds f then some 0x04
  else if p.length ≠ begun ∨ !p.laidOut then some 0x05
  else if !p.signatureOk then some 0x06
  else none

/-- Status and reason of a refusal code (Table 19-6). -/
def refusalStatus (code : Nat) : Nat × Nat :=
  match code with
  | 0x02 | 0x03 | 0x04 | 0x07 => (0x11, 0)
  | 0x0C => (0x50, 2)
  | _ => (0x51, 3)

/-! ## Checks 0x07 to 0x0B -/

/-- Each part of Table 19-1 exactly once (check 0x08). -/
def Package.partsOnce (p : Package) : Bool := [1, 2, 3, 4].all fun k => (p.parts.filter fun e => e.part = k).length == 1

/-- The content key of a key slot (R475). -/
def Fused.openSlot (f : Fused) (manifest : Nat) (slot : Bytes) : Option Bytes :=
  let pub := slice 8 64 slot
  if !p256Valid pub then none
  else
    let head := beBytes 8 f.unitId ++ beBytes 4 manifest
    let kw := kdf (ecdhX f.devPriv pub ++ ascii "EKW-FW" ++ head)
    gcmOpen kw (slice 72 12 slot) (head ++ pub) (slice 84 32 slot) (slice 116 16 slot)

/-- The lowest key slot for a unit (R475). -/
def Package.slotFor (f : Fused) (image : Bytes) (p : Package) : Option Bytes :=
  ((List.range p.keySlots).map fun i => slice (p.keySlotOffset + 132 * i) 132 image).find? fun x => fieldAt 0 8 x = f.unitId

/-- The content key for a unit, from its lowest key slot (check 0x09). -/
def Package.contentKey (f : Fused) (image : Bytes) (p : Package) : Option Bytes := (p.slotFor f image).bind (f.openSlot p.manifest)

/-- The image of a part. -/
def PartEntry.image (e : PartEntry) (pkg : Bytes) : Bytes := slice e.offset e.length pkg

/-- The GCM tag of a stored image under a content key (R474). -/
def PartEntry.opens (ck : Bytes) (img : Bytes) (e : PartEntry) : Bool :=
  (gcmOpen ck e.iv e.head (img.take (e.length - 16)) (img.drop (e.length - 16))).isSome

/-- The GCM tag of an image of a package under a content key. -/
def PartEntry.tagOk (ck : Bytes) (pkg : Bytes) (e : PartEntry) : Bool := e.opens ck (e.image pkg)

/-- The GCM tag of every image (check 0x0B). -/
def Package.tagsOk (f : Fused) (image : Bytes) (p : Package) : Bool :=
  match p.contentKey f image with
  | none => false
  | some ck => p.parts.all (PartEntry.tagOk ck image)

/-- The first of codes 0x07 to 0x09 that a whole package fails. -/
def Package.contentCode (f : Fused) (running : Nat) (image : Bytes) (p : Package) : Option Nat :=
  if p.manifest = running then some 0x07
  else if !p.partsOnce then some 0x08
  else if (p.contentKey f image).isNone then some 0x09
  else none

/-- Checks 2 to 5 of R493 on what a bank stores: the signature, the binding and the stepping of the header, IMAGE_CRC, and the
tag of the image. -/
def Bank.sound (f : Fused) (b : Bank) : Bool :=
  match b.content with
  | none => true
  | some c =>
    let p := parsePackage c.head
    p.signatureOk && p.binds f && p.steppings.contains f.stepping && decide (crc32c c.image = b.crc) &&
    (match p.parts.find? fun e => e.part = b.part, f.openSlot p.manifest c.slot with
    | some e, some ck => e.opens ck c.image
    | _, _ => false)

/-- The parts of a set whose bank fails a check at a load: those found to, and those whose content does not pass (R487, R493). -/
def State.badParts (manifest : Nat) (found : List Nat) (s : State) : List Nat :=
  found ++ (s.fw.banks.filter fun b => b.manifest = manifest && !b.sound s.fused).map Bank.part

/-! ## Scan jobs of a verification (R435, R481) -/

/-- The most bytes of one job. -/
def jobMost : Nat := 16777216

/-- The jobs of one image: a single job, or a chain of jobs of 16 MiB and a rest. -/
def PartEntry.jobs (owner : ScanOwner) (e : PartEntry) : List ScanJob :=
  let n := (e.length + jobMost - 1) / jobMost
  (List.range n).map fun i =>
    let last := decide (i + 1 = n)
    { source := .package, start := e.offset + i * jobMost, length := min jobMost (e.length - i * jobMost), crc := true, sha := true
      chain := if n = 1 then .single else if i = 0 then .first else if last then .last else .middle
      expectedSha := if last then some e.hash else none, owner := owner }

/-- The jobs of a verification submitted, unless they wait already. -/
def State.submitVerify (s : State) : State :=
  match s.fw.download with
  | some { session := sid, verifying := some id, units := us, length := len, lastAt := t, .. } =>
    let owner := ScanOwner.verify sid id
    if s.watch.jobs.any fun j => j.owner = owner then s
    else
      let d : Download := { session := sid, length := len, units := us, lastAt := t }
      s.modWatch fun w => { w with jobs := w.jobs ++ d.package.parts.flatMap (PartEntry.jobs owner) }
  | _ => s

/-! ## Eligibility for Graft (R484) -/

/-- A part's version and hash in a set. -/
def Package.partKey (k : Nat) (p : Package) : Option (Nat × Bytes) := (p.parts.find? fun e => e.part = k).map fun e => (e.version, e.hash)

/-- A set may replace the running one by Graft. -/
def Package.eligible (running p : Package) : Bool :=
  ([2, 3, 4].all fun k => (p.partKey k).isSome && p.partKey k == running.partKey k) &&
  decide (p.graftFormat = running.graftFormat ∧ p.retainedFormat = running.retainedFormat ∧ p.catalogue = running.catalogue)

end Sys2Proof.Machine
end

