-- ==== Sys2Proof/Machine/Pages.lean ====
section
/-!
DEFINITION. What administration publishes: the identify data, the log pages and the features (chapter 13).
-/
namespace Sys2Proof.Machine

/-! ## Identify data (Table 13-2) -/

/-- WDG_PERIOD, WDG_WINDOW and WDG_HW_START as Tables 13-2 and 13-11 pack the first two. -/
def Fused.wdgByte (f : Fused) : Nat := f.wdgPeriod % 4 + 4 * (f.wdgWindow % 4)

/-- Rated spare pool and rated writes (Table 13-2). -/
def Fused.rated (f : Fused) : Nat × Nat :=
  match f.part with
  | .ekv5240 => (1024, 22000)
  | .ekv5480 => (2048, 44000)

/-- The 192 bytes of Table 13-2. -/
def State.identifyData (s : State) : Bytes :=
  let f := s.fused
  beBytes 1 1 ++ beBytes 1 f.part.code ++ beBytes 1 (1 + 2 * bitOf f.wdgHwStart + 4 * bitOf f.unitBound) ++ beBytes 1 f.wdgByte ++
  beBytes 2 f.stepping ++ beBytes 2 s.cfg.report.catalogueVersion ++ beBytes 8 f.unitId ++ beBytes 8 s.cfg.report.logicalId ++
  padTo 16 f.serial ++ beBytes 6 f.macEndpoint.toNat ++ beBytes 6 s.macInUse.toNat ++ beBytes 6 f.macPortA.toNat ++
  beBytes 6 f.macPortB.toNat ++ beBytes 8 f.userCapacity ++ beBytes 1 (dieCount f.part) ++ beBytes 1 8 ++ beBytes 2 f.rated.1 ++
  beBytes 4 f.rated.2 ++ beBytes 4 s.fw.commit.running.manifest ++ beBytes 4 f.bootRomVersion ++ beBytes 4 s.startCount ++
  beBytes 1 s.mode.code ++ beBytes 1 s.start.straps.slot ++ beBytes 2 s.cfg.inUse.protocol.ly3DeadlineUs ++ beBytes 1 128 ++
  beBytes 1 8 ++ beBytes 2 32 ++ beBytes 4 1048576 ++ beBytes 4 65536 ++ beBytes 2 256 ++ beBytes 2 64 ++ beBytes 4 s.ip4 ++
  beBytes 2 s.cfg.inUse.protocol.ly2UdpPort ++ beBytes 2 s.cfg.inUse.protocol.ly3Ethertype ++ beBytes 8 s.iid6 ++
  beBytes 32 s.cfg.inUse.identity.stationName ++ zeros 32

/-! ## Log pages -/

/-- A page: the common header of Table 13-3 in front of its fields. -/
def State.page (id entries : Nat) (rest : Bytes) (s : State) : Bytes :=
  let t := s.timeNow
  beBytes 1 id ++ beBytes 1 1 ++ beBytes 2 entries ++ beBytes 4 (24 + rest.length) ++ beBytes 6 t.s ++ zeros 2 ++ beBytes 4 t.ns ++
  beBytes 4 s.startCount ++ rest

/-- A number from conditions, bit 0 first. -/
def bitsOf : List Bool → Nat
  | [] => 0
  | b :: bs => bitOf b + 2 * bitsOf bs

/-- The k-th newest PPS_IN time-stamp as seconds and nanoseconds. -/
def State.ppsStamp (k : Nat) (s : State) : Bytes :=
  let t := Time.ofNs (s.time.ppsIn.getD k 0)
  beBytes 6 t.s ++ beBytes 4 t.ns

/-- Page 0x01 (Table 13-4). -/
def State.healthPage (s : State) : Bytes :=
  let p := s.power
  let m := s.media
  s.page 0x01 0 <|
    beBytes 1 s.mode.code ++ beBytes 1 s.bankClass.code ++
    beBytes 2 (bitsOf [p.deadlineRisk, p.deadlineLapse, s.time.synced, p.pfwLow, p.vinBelowWarn, m.wearWarn, m.spareWarn,
      decide (s.bankClass = .worn), s.cfg.report.newerCopyWaiting, !s.cfg.report.entries.isEmpty, decide (s.sec.badSamples = 0),
      (s.portOf .A).up, (s.portOf .B).up, decide ((s.portOf .A).preempt = .active), decide ((s.portOf .B).preempt = .active), m.fg]) ++
    beBytes 4 s.log.latched.toNat ++ beBytes 2 p.vinMv ++ beBytes 2 p.vinMinMv ++ beBytes 2 p.lastMv ++ beBytes 2 s.reg.vcoreMv ++
    beInt 2 p.junction ++ beInt 2 p.junctionMax ++ beBytes 2 m.wearAvg ++ beBytes 2 m.wearMax ++ beBytes 4 m.spare ++
    beBytes 2 s.freePct ++ zeros 2 ++ beBytes 8 m.hostBytes ++ beBytes 8 m.mediaBytes ++ beBytes 4 (s.powered / 3600000000000) ++
    beBytes 4 s.admin.uncleanStarts ++ beBytes 4 s.admin.ly3LateMaxNs ++ beBytes 1 s.admin.ly3LatePort ++
    beBytes 1 s.admin.ly3LateCause ++ zeros 2 ++ (List.range 8).flatMap s.ppsStamp ++ beInt 4 (sat32 s.time.gmOffset) ++ zeros 4

/-- An error history entry (Table 13-6). -/
def ErrorEntry.encode (e : ErrorEntry) : Bytes :=
  let r := e.request
  beBytes 6 e.time.s ++ beBytes 2 e.code ++ beBytes 4 e.time.ns ++ beBytes 4 e.startCount ++
  beBytes 1 ((r.map RequestRef.status).getD 0) ++ beBytes 1 ((r.map RequestRef.reason).getD 0) ++
  beBytes 1 ((r.map RequestRef.tenant).getD 0 + 8 * bitOf r.isSome) ++ beBytes 1 ((r.map RequestRef.opcode).getD 0) ++
  beBytes 4 ((r.map RequestRef.msgId).getD 0) ++ beBytes 8 e.location

/-- An event log entry (Table 13-7). -/
def LogEntry.encode (e : LogEntry) : Bytes :=
  beBytes 6 e.time.s ++ beBytes 2 e.code ++ beBytes 4 e.time.ns ++ beBytes 4 e.seq ++ beBytes 1 e.severity ++ beBytes 1 e.state ++
  beBytes 2 (bitOf e.synced) ++ beBytes 4 e.a ++ beBytes 4 e.b ++ beBytes 4 e.c

/-- Page 0x05 (Table 13-8, R182). -/
def State.countersPage (s : State) : Bytes :=
  let c := s.net.counters
  let n := s.net
  let words (l : List Nat) : Bytes := l.flatMap (beBytes 4)
  s.page 0x05 0 <|
    words ((c.port.get .A).take 28) ++ words ((c.port.get .B).take 28) ++ words c.dev ++
    beBytes 1 (bitOf n.paused + 2 * bitOf n.crossedHigh) ++ zeros 3 ++ beBytes 4 n.crossCount ++ beBytes 4 n.peak ++
    beBytes 4 (c.ofPort .A .gptpRx) ++ beBytes 4 (c.ofPort .B .gptpRx)

/-- CONFIRM_LEFT_S: what is left of the confirmation window, rounded up (R490). -/
def State.confirmLeftS (s : State) : Nat :=
  match s.fw.commit.confirm with
  | .trial d => (d - s.powered + 999999999) / 1000000000
  | .none | .confirmed => 0

/-- CONFIRM_STATE (Table 13-9). -/
def Confirm.code : Confirm → Nat
  | .none => 0
  | .trial _ => 1
  | .confirmed => 2

/-- Page 0x06 (Table 13-9). -/
def State.firmwarePage (s : State) : Bytes :=
  let c := s.fw.commit
  s.page 0x06 s.fw.banks.length <|
    beBytes 4 c.running.manifest ++ beBytes 4 ((c.previous.map Package.manifest).getD 0) ++ beBytes 1 c.confirm.code ++
    beBytes 1 s.fw.lastChange ++ zeros 2 ++ beBytes 4 s.confirmLeftS ++
    s.fw.banks.flatMap fun b => beBytes 1 b.part ++ beBytes 1 b.bank ++ beBytes 1 b.state.code ++ zeros 1 ++ beBytes 4 b.version ++
      beBytes 4 b.manifest ++ beBytes 4 b.crc

/-- Page 0x07 (Table 13-10). -/
def State.temperaturePage (s : State) : Bytes :=
  let a := s.admin
  s.page 0x07 0 <|
    beInt 2 a.tMinLife ++ beInt 2 a.tMaxLife ++ beBytes 4 a.deadlineRiskCount ++ beBytes 4 a.thermalShutdowns ++
    (List.range 16).flatMap (fun i => beBytes 4 (min 4294967295 (s.binsNow.getD i 0 / 1000000000))) ++
    (List.range 96).flatMap fun k => match a.recent[k]? with | some t => beInt 2 t | none => beBytes 2 0x8000

/-- A set of slots as a bitmap. -/
def slotMap (slots : List Nat) : Nat := natSum ((List.range 8).map fun n => if slots.contains n then 2 ^ n else 0)

/-- Page 0x08 (Table 13-11). -/
def State.watchdogPage (s : State) : Bytes :=
  let w := s.watch
  s.page 0x08 s.admin.startRecords.length <|
    beBytes 2 w.resetCount ++ beBytes 1 (s.fused.wdgByte + 16 * bitOf s.fused.wdgHwStart + 32 * bitOf w.running) ++
    beBytes 1 w.lastMissed ++ beBytes 4 w.escalations ++
    (List.range 8).flatMap (fun n => beBytes 1 (s.cfg.inUse.watchdog.tasks.getD n 0)) ++
    padTo 256 (s.admin.startRecords.flatMap fun r =>
      beBytes 6 r.time.s ++ beBytes 1 r.kind ++ beBytes 1 r.source ++ beBytes 4 r.startCount ++ beBytes 1 r.missedSlots ++ zeros 3)

/-- One channel's block of page 0x09: its number, region, flags, SETTLING, LIMITING, set-point, measurement and output. -/
def channelBlock (k region : Nat) (f : ChFlags) (settling limiting : Bool) (sp m out : Int) : Bytes :=
  beBytes 1 k ++ beBytes 1 region ++
  beBytes 2 (bitsOf [f.satArith, f.satIntegrator, f.satOutput, f.oscLatched, f.region0, f.softStart, settling, limiting]) ++
  beInt 4 sp ++ beInt 4 m ++ beInt 4 out

/-- Page 0x09 (Table 13-12, R418). -/
def State.regulatorPage (s : State) : Bytes :=
  let r := s.reg
  let (ch, rate) := r.writeRate
  let limiting := if rate < rateCeiling then ch else 0xFF
  let comp (k : Nat) (c : Comp) := channelBlock k c.region.region c.flags (decide (k = 1 ∧ 0 < r.settle)) false c.ramp.value c.measured c.output
  let loop (k : Nat) (c : Loop) := channelBlock k c.region.region c.flags false (decide (k = limiting)) c.ramp.value c.measured c.output
  s.page 0x09 0 <|
    beInt 4 (rate / 64) ++ beBytes 1 limiting ++ zeros 3 ++ comp 0 r.ch0 ++ comp 1 r.ch1 ++ loop 2 r.ch2 ++ loop 3 r.ch3 ++
    loop 4 r.ch4 ++ loop 5 r.ch5

/-- The bank is fully charged (R83): at least 44.5 V with CH1 holding it. -/
def State.fullyCharged (s : State) : Bool := decide (44500 ≤ s.power.vMv) && s.reg.ch1.running

/-- A bank-test record (Table 13-13). -/
def TestRecord.encode (t : TestRecord) : Bytes :=
  beBytes 6 t.time.s ++ beBytes 1 t.result ++ beBytes 1 t.cls ++ beBytes 4 t.uf ++ beBytes 4 t.esr ++ beBytes 4 t.fallUs ++
  beBytes 2 t.v1 ++ zeros 2

/-- Page 0x0A (Table 13-13). -/
def State.ledgerPage (s : State) : Bytes :=
  let p := s.power
  let avail := s.avail
  let need := needUj s.staged
  let next := match p.testDue with | some t => (t - s.elapsed + 999999999) / 1000000000 | none => 0
  s.page 0x0A p.tests.length <|
    beBytes 2 p.vMv ++ beBytes 1 s.bankClass.code ++
    beBytes 1 (bitsOf [decide (0 < s.reg.settle), s.fullyCharged, p.test.isSome, s.charging]) ++
    beBytes 4 p.cMeasuredUf ++ beBytes 4 p.cLedUf ++ beBytes 4 (s.fused.cFactoryUf.getD 0) ++ beBytes 4 p.esrMohm ++ beBytes 4 avail ++
    beBytes 4 need ++ beInt 4 ((avail : Int) - need) ++ beBytes 4 s.staged ++ beBytes 4 s.stagingLimit ++ beInt 4 s.reg.rateMw ++
    beBytes 4 next ++ padTo 384 (p.tests.flatMap TestRecord.encode)

/-- A live page by its PAGE_ID; none where no page has the identifier. -/
def State.logPage (id : Nat) (s : State) : Option Bytes :=
  match id with
  | 0x01 => some s.healthPage
  | 0x02 => some (s.page 0x02 s.log.errors.length (s.log.errors.flatMap ErrorEntry.encode))
  | 0x03 => some s.cfg.report.encode
  | 0x04 => some (s.page 0x04 s.log.events.length (s.log.events.flatMap LogEntry.encode))
  | 0x05 => some s.countersPage
  | 0x06 => some s.firmwarePage
  | 0x07 => some s.temperaturePage
  | 0x08 => some s.watchdogPage
  | 0x09 => some s.regulatorPage
  | 0x0A => some s.ledgerPage
  | _ => none

/-- R328: what a snapshot of a page resets. -/
def State.snapshotResets (id : Nat) (s : State) : State :=
  match id with
  | 0x05 => s.modNet fun n => { n with counters := {}, crossedHigh := false, crossCount := 0, peak := n.level }
  | 0x01 => s.modAdmin fun a => { a with ly3LateMaxNs := 0 }
  | 0x09 => s.modReg RegState.clearSticky
  | _ => s

/-- A snapshot of a session, by its page. -/
def State.snapshotOf (session page : Nat) (s : State) : Option Snapshot :=
  s.admin.snapshots.find? fun x => x.session = session && x.page = page

/-- R327: a page frozen for a session, which replaces the session's snapshot of it and, with 8 held, the oldest. -/
def State.takeSnapshot (session page : Nat) (bytes : Bytes) (s : State) : Nat × State :=
  let id := s.startCount * 2 ^ 32 + s.admin.snapshotSeq
  let keep := s.admin.snapshots.filter fun x => !(x.session = session && x.page = page)
  (id, s.modAdmin fun a => { a with
    snapshots := lastN 7 keep ++ [⟨session, page, id, s.elapsed, bytes⟩], snapshotSeq := a.snapshotSeq + 1 })

/-- SNAPSHOT_EXPIRED (R327): a snapshot is discarded 10 s after it was taken. -/
def State.snapshotExpired (id : Nat) (s : State) : State :=
  match s.admin.snapshots.find? fun x => x.id = id with
  | none => s
  | some x => (s.waitUntil (x.takenAt + secs 10)).modAdmin fun a => { a with snapshots := a.snapshots.filter fun y => y.id ≠ id }

/-- SNAPSHOT_EXPIRED. -/
def execSnapshotExpired (id : Nat) (s : State) : Host.Outcome State Fault Refusal := (s.snapshotExpired id).done

/-- ANSWER_CACHE_EXPIRED (R280): an entry is dropped 2 s after the selection of its answer's last frame. -/
def State.cacheExpired (sid msgId : Nat) (s : State) : State :=
  match (s.ses.find sid).bind fun e => e.cache.find? fun c => c.msgId = msgId with
  | none => s
  | some c => (s.waitUntil (c.at_ + secs 2)).modSess sid fun e => { e with cache := e.cache.filter fun x => x.msgId ≠ msgId }

/-- ANSWER_CACHE_EXPIRED. -/
def execAnswerCacheExpired (sid msgId : Nat) (s : State) : Host.Outcome State Fault Refusal := (s.cacheExpired sid msgId).done

/-! ## Features (Tables 6-17 and 13-14) -/

/-- A runtime feature: its field, and how its value is read. -/
structure Feature where
  field : FieldDesc
  get : DriveConfig → Int

/-- A field of a record's table with its reading. -/
def featureOf (fields : List FieldDesc) (k : Nat) (get : DriveConfig → Int) : Option Feature := (fields[k]?).map fun f => ⟨f, get⟩

/-- A drive feature: SCOPE is 0. -/
def featureTable (p : Part) (id : Nat) : Option Feature :=
  match id with
  | 0x01 => featureOf bridgeFields 1 fun c => (c.bridge.learn : Nat)
  | 0x02 => featureOf bridgeFields 3 fun c => (c.bridge.pauseHighPct : Nat)
  | 0x03 => featureOf bridgeFields 4 fun c => (c.bridge.pauseLowPct : Nat)
  | 0x30 => featureOf kvFields 2 fun c => (c.kv.expirySweepS : Nat)
  | 0x31 => featureOf journalFields 0 fun c => (c.journal.intervalMs : Nat)
  | 0x32 => featureOf journalFields 1 fun c => (c.journal.intervalMib : Nat)
  | 0x33 => featureOf (mediaFields p) 0 fun c => (c.media.scrubDays : Nat)
  | 0x34 => featureOf (mediaFields p) 4 fun c => (c.media.bgIdleMs : Nat)
  | 0x40 => featureOf thermalFields 0 fun c => (c.thermalSetpointC : Nat)
  | 0x41 => featureOf regulatorFields 1 fun c => (c.regulator.energyKneeMj : Nat)
  | 0x42 => featureOf regulatorFields 2 fun c => (c.regulator.gainScale2 : Nat)
  | 0x43 => featureOf regulatorFields 3 fun c => (c.regulator.gainScale3 : Nat)
  | 0x44 => featureOf regulatorFields 4 fun c => (c.regulator.gainScale4 : Nat)
  | 0x45 => featureOf regulatorFields 5 fun c => (c.regulator.gainScale5 : Nat)
  | 0x50 => featureOf timeFields 4 fun c => c.time.logSyncInterval
  | _ => none

/-- A port feature. -/
def portFeature (q : Port) (id : Nat) : Option Feature :=
  match id with
  | 0x10 => featureOf (shaperFields q) 0 fun c => ((c.shaper.get q).enable : Nat)
  | 0x11 => featureOf (shaperFields q) 1 fun c => ((c.shaper.get q).idleSlope5 : Nat)
  | 0x12 => featureOf (shaperFields q) 2 fun c => ((c.shaper.get q).idleSlope6 : Nat)
  | _ => none

/-- A tenant feature. -/
def tenantFeature (p : Part) (t id : Nat) : Option Feature :=
  match id with
  | 0x20 => featureOf (tenantFields p t) 4 fun c => ((c.tenant t).window : Nat)
  | 0x21 => featureOf (tenantFields p t) 7 fun c => ((c.tenant t).pinMaxKib : Nat)
  | _ => none

/-- The feature that FEATURE_ID and SCOPE name. -/
def feature (p : Part) (id scope : Nat) : Option Feature :=
  if 0x10 ≤ id ∧ id ≤ 0x12 then (if scope = 0 then portFeature .A id else if scope = 1 then portFeature .B id else none)
  else if id = 0x20 ∨ id = 0x21 then (if scope < 8 then tenantFeature p scope id else none)
  else if scope = 0 then featureTable p id else none

/-- SET_FEATURE (R127, R340): the value applied with the new configuration, or none when a joint rule would adjust a field. -/
def Feature.set (f : Feature) (value : Nat) (c : DriveConfig) : Option (Int × DriveConfig) :=
  let raw := if f.field.signed then signExtend 4 value else (value : Int)
  let (v, _) := clampField f.field raw
  let d := f.field.put v c
  let (e, adjusted) := applyJointRules d
  if e = d ∧ adjusted.isEmpty then some (v, d) else none

/-- The credit of a class as a change of its bit in `SHP_ENABLE` leaves it: set, it starts at 0; cleared, it is discarded (R197). -/
def Shaper.switched (was now : Bool) (c : Shaper) : Shaper := if was = now then c else { c with cs := 0 }

/-- The credits of a port after its `SHP_ENABLE` was `was`. -/
def State.switchShapers (q : Port) (was : Nat) (s : State) : State :=
  let now := (s.cfg.inUse.shaper.get q).enable
  s.modPort q fun p => { p with shaper5 := p.shaper5.switched (bit was 0) (bit now 0), shaper6 := p.shaper6.switched (bit was 1) (bit now 1) }

/-- Slopes and credits of both ports once the shaper settings in use are no longer `was` (R196, R197). -/
def State.shapersChanged (was : PerPort ShaperCfg) (s : State) : State :=
  (((s.setSlopes .A).setSlopes .B).switchShapers .A was.a.enable).switchShapers .B was.b.enable

/-- What a set changes beside the configuration: the slopes in effect (R196) and the credits of classes switched (R197).
`was` is the configuration before it. -/
def State.featureApplied (was : DriveConfig) (id scope : Nat) (s : State) : State :=
  let q : Port := if scope = 0 then .A else .B
  if 0x10 ≤ id ∧ id ≤ 0x12 then (s.setSlopes q).switchShapers q (was.shaper.get q).enable else s

end Sys2Proof.Machine
end

