-- ==== Sys2Proof/Machine/Starting.lean ====
section
/-!
DEFINITION. Starts (chapter 4): what each source does at once, and the steps of Tables 4-2 and 19-8 that a start runs,
with Brace where a cause waits at step 16 (R67) and Rescue where step 8 finds no set (R98, R493).
-/
namespace Sys2Proof.Machine

/-! ## Brace (R67, R68, R71) -/

/-- Brace entered from a serving state. An entry to Deep Sleep is abandoned (R87). -/
def State.enterBrace (cause : BraceCause) (s : State) : State :=
  if !s.mode.serving then s
  else
    let s := s.abortTest.modReg fun r => { r with ch1 := r.ch1.stop1 }
    let starts := s.elapsed :: s.power.braceStarts.filter fun t => s.elapsed < t + secs 60
    let ep : BraceEp := ⟨cause, s.mode, s.elapsed, s.elapsed, s.power.vinMv, s.staged⟩
    let s := (s.setMode .brace).modPower fun p => { p with brace := some ep, braceStarts := starts, sleep := .awake }
    if s.power.unstableArmed ∧ 10 < starts.length then
      (s.modPower fun p => { p with unstableArmed := false, unstableAt := s.elapsed }).event .supplyUnstable starts.length 0 0
    else s

/-- A Brace cause that holds when the drive begins to serve takes effect (R46, R67). -/
def State.braceIfWarned (s : State) : State :=
  if s.power.vinBelowWarn then s.enterBrace .vin else if s.power.pfwLow then s.enterBrace .pfw else s

/-! ## The commit record (R482) -/

/-- The state of a bank that follows from a commit record. -/
def FwState.bankState (f : FwState) (b : Bank) : BankState :=
  let named (p : Option Package) : Bool := (p.map Package.manifest) == some b.manifest
  if b.state = .empty ∨ b.state = .failed then b.state
  else if f.commit.failed = some b.manifest then .failed
  else if b.manifest = f.commit.running.manifest then .running
  else if named f.commit.previous then .previous
  else if named f.verified then .verified
  else .empty

/-- The states of the banks that follow from a commit record. -/
def FwState.settleBanks (f : FwState) : FwState := { f with banks := f.banks.map fun b => { b with state := f.bankState b } }

/-- A commit record in force. -/
def FwState.putCommit (c : Commit) (f : FwState) : FwState := { f with commit := c }.settleBanks

/-- A commit record written, one copy after the other: it decides which set runs. -/
def State.writeCommit (running : Package) (confirm : Confirm) (previous : Option Package) (failed : Option Nat) (s : State) : State :=
  s.modFw fun f =>
    let c : Commit := ⟨f.commit.seq + 1, running, confirm, previous, failed⟩
    { f with copies := [c, c] }.putCommit c

/-- The commit record as a start reads it: of the copies whose CRC verifies, the one with the highest sequence number; with
none, no set is left to run (R482, R493). -/
def FwState.readCommit (bad : List Nat) (f : FwState) : FwState :=
  let good := (f.copies.zipIdx.filter fun c => !bad.contains c.2).map Prod.fst
  match good.foldl (fun best c => match best with
    | none => some c
    | some b => if b.seq < c.seq then some c else some b) (none : Option Commit) with
  | some c => f.putCommit c
  | none => f.putCommit { f.commit with previous := none, failed := some f.commit.running.manifest }

/-- The confirmation window of a package, in ns (Table 19-2). -/
def Package.windowNs (p : Package) : Nat := (if p.confirmMin = 0 then 10 else min 60 p.confirmMin) * secs 60

/-- The commit record of a Graft or an activation: the new set runs on trial (R490). -/
def State.commitTrial (p : Package) (change : Nat) (s : State) : State :=
  let old := s.fw.commit.running
  (s.modFw fun f => { f with verified := none, lastChange := change }).writeCommit p (.trial (s.powered + p.windowNs)) (some old) none

/-- The commit record of a fallback (R492): the previous set runs, confirmed, and the one before it failed. -/
def State.commitFallback (prev : Package) (s : State) : State :=
  let bad := s.fw.commit.running.manifest
  (s.modFw fun f => { f with lastChange := 3 }).writeCommit prev .confirmed none (some bad)

/-- Parts of a set marked failed in their banks (R493). -/
def State.markFailed (manifest : Nat) (parts : List Nat) (s : State) : State :=
  s.modFw fun f => { f with banks := f.banks.map fun b =>
    if b.manifest = manifest && parts.contains b.part then { b with state := .failed } else b }

/-- All four banks of a set are present and none failed (R493 check 1). -/
def FwState.complete (f : FwState) (manifest : Nat) : Bool :=
  [1, 2, 3, 4].all fun p => f.banks.any fun b => b.part = p && b.manifest = manifest && decide (b.state ≠ .empty ∧ b.state ≠ .failed)

/-! ## The instants at which a start begins -/

/-- What a cold start clears: everything but flash, the security block and the life figures; the DRAM has a new key. -/
def State.coldFields (env : StartEnv) (dram : Bytes) (s : State) : State :=
  let keep := s.log.latched &&& 0x0000FFF0
  let bank : BitVec 32 := match s.power.bankClass with
    | .degraded => 1
    | .failed => 2
    | .healthy | .worn => 0
  let cfg := DriveConfig.defaults s.fused.part
  { s with
    mode := .coldStart
    cfg := { inUse := cfg, image := cfg }
    log := { s.log with events := s.log.flashEvents, errors := s.log.flashErrors, eventSeq := s.log.flashSeq, latched := keep ||| bank }
    admin := { s.admin with snapshots := [], snapshotSeq := 1, ly3LateMaxNs := 0, ly3LatePort := 0, ly3LateCause := 0 }
    net := {}
    time := {}
    ses := {}
    store := { s.store.reload with pins := [] }
    power := { s.power with
      vinMv := env.vinMv, vinMinMv := env.vinMv, vinBelowWarn := false, pfwLow := false, brace := none, braceStarts := [], unstableArmed := true
      unstableAt := 0, dusk := none, thermalLatch := false, thermalRefuse := false, deadlineRisk := false, deadlineLapse := false
      paceShort := false, junction := env.junction, junctionMax := env.junction, bankMv := List.replicate 8 env.bankMv
      ch1Failed := false, test := none, testDue := none, fullSince := none, chargeUs := none, discharging := none, sleep := .awake
      onAt := some (s.power.onAt.getD s.elapsed) }
    reg := {}
    media := { s.media with waiting := [], busy := [], fg := false, bg := false }
    journal := { s.journal with bankHold := true }
    watch := { s.watch with jobs := [], running := false, wasRunning := false, checked := [], resetCount := 0, lastMissed := 0,
                            warmAt := [], escalatedAt := [] }
    sec := { s.sec with dkOpen := List.replicate 8 false, dramKey := dram, action := max 1 s.sec.recordedAction, badSamples := 0
                        intactSince := none, lockDrain := false }
    fw := { s.fw with download := none, graft := none, activation := none, fallbackDue := none }
    start := { s.start with retained := false, escalateNext := false, series := none, limit := .closed, awaitingReady := false
                            referenceHeld := false, run := none, kept := false } }

/-- A cold start clears the drive; a download under way is discarded (R478). -/
def State.coldClear (env : StartEnv) (s : State) : State :=
  let (dram, s) := s.random 64
  (((if s.fw.download.isSome then s.deferEvent .fwRefused 0x0D 0 0 else s).noteJunction env.junction).coldFields env dram).settle

/-- The drive switched off: what is powered only while it runs is lost, and the bank is discharged (R77). -/
def State.switchOff (s : State) : State :=
  { s with
    mode := .off
    net := {}, time := {}, ses := {}, reg := {}
    store := { s.store.reload with pins := [] }
    watch := { s.watch with jobs := [], running := false, wasRunning := false }
    media := { s.media with waiting := [], busy := [] }
    sec := { s.sec with dkOpen := List.replicate 8 false, dramKey := [], lockDrain := false }
    power := { s.power with brace := none, dusk := none, inputSwitch := false, discharging := some s.elapsed, test := none
                            vinBelowWarn := false, pfwLow := false
                            poweredNs := s.powered, onAt := none, sleep := .awake }
    start := { s.start with retained := false, run := none, series := none, limit := .closed, resetLow := none, coldHeld := false
                            referenceHeld := false, svcJudged := false, svcHeld := false, scanReleased := false, tap := {}, awaitingReady := false } }

/-- The retained region loses its sessions: a cold start or the escalated path closes every session without a notice. -/
def State.loseSessions (s : State) : State :=
  let s := s.ses.sessions.foldl (fun s e => (s.release e.assemblyBytes).removeSess e.id) s
  let quiet (p : PortState) : PortState := { p with epQ := p.epQ.filter fun e => match e.load with
    | .ly _ => false
    | .raw _ | .dawn .. => true }
  (((s.modSes fun x => { x with kept := [], held := [], waiting := [] }).modPort .A quiet).modPort .B quiet).modAdmin fun a =>
    { a with snapshots := [] }

/-- A Graft under way is abandoned (R486). -/
def State.abandonGraft (s : State) : State :=
  match s.fw.graft with
  | none => s
  | some g =>
    let s := s.modFw fun f => { f with graft := none, fallbackDue := if g.fallback.isSome then g.fallback else f.fallbackDue }
    match s.ses.find g.session with
    | none => s
    | some e => match e.flight g.msgId with
      | none => s
      | some f => s.finish (f.ask e) 0x31 3 {}

/-- The watchdog stops at the recognition of a source; a start under way has noted already whether it ran. -/
def State.haltWatch (s : State) : State := if s.mode = .warmStart ∧ s.watch.running = false then s else s.stopWatch

/-- The event of a Brace episode that ends now (R70). -/
def State.logEpisode (s : State) : State :=
  match s.power.brace with
  | none => s
  | some b => s.event .braceEpisode (b.cause.reason * 2 ^ 24 + b.minVinMv) ((s.elapsed - b.since) / 1000)
      (b.stagedAtEntry / 1024 * 2 ^ 16 + s.staged / 1024)

/-- A start that leaves Brace ends its episode, and CH1 charges again. -/
def State.dropBrace (s : State) : State :=
  match s.power.brace with
  | none => s
  | some _ => (s.logEpisode.modPower fun p => { p with brace := none }).resumeCharge

/-- Step 1 and the drain of step 2: the gate closed, jobs aborted, and the staging buffer drained. -/
def State.quiesce (s : State) : State :=
  let s := s.abortTest.abortJobs.abandonGraft
  let s := s.haltWatch
  let s := (s.setMode .warmStart).modNet fun n => { n with gateOpen := false }
  let s := (s.modPower fun p => { p with sleep := .awake }).modStart fun x => { x with series := none, awaitingReady := false }
  (s.settle.dropBrace.drainNow.keepCompletions .A).keepCompletions .B

/-- Steps 1 and 2 of a warm start, with the stop record. Where no start has judged the journal since the cold start (a drive
in Rescue), nothing is written to it. -/
def State.orderlyStop (s : State) : State :=
  let s := s.quiesce
  if s.start.retained then s.stopRecord else s

/-- The time since the reference point of a start is not counted against the requests in flight (R498). -/
def State.pauseBounds (s : State) : State :=
  s.modSes fun x => { x with sessions := x.sessions.map fun e => { e with
    flights := e.flights.map fun f => { f with admittedAt := f.admittedAt + (s.elapsed - s.start.refAt) } } }

/-- A start on a path from a step, with its source. The reference point is now. -/
def State.beginRun (path : StartPath) (source : StartSource) (step : Nat) (env : StartEnv) (s : State) : State :=
  let s := s.when s.start.run.isSome State.pauseBounds
  let s := s.modStart fun x => { x with run := some ⟨path, source, step, env, false⟩, refAt := s.elapsed }
  if s.sec.alarmPending then (s.modSec fun k => { k with alarmPending := false }).alarm else s

/-- A cold start begins at step 3. -/
def State.beginCold (source : StartSource) (env : StartEnv) (s : State) : State := (s.coldClear env).beginRun .cold source 3 env

/-- A warm start recognised. -/
def State.beginWarm (source : StartSource) (env : StartEnv) (s : State) : State := s.orderlyStop.beginRun .warm source 4 env

/-- The escalated path is entered (R91): with the third entry within 60 s the running set counts as failed (R492). -/
def State.noteEscalation (s : State) : State :=
  let entries := s.elapsed :: s.watch.escalatedAt.filter fun t => s.elapsed < t + secs 60
  let s := s.modWatch fun w => { w with escalatedAt := entries, escalations := inc32 w.escalations }
  if entries.length < 3 then s
  else if s.fw.commit.previous.isSome then s.modFw fun f => { f with fallbackDue := some 2 }
  else s.writeCommit s.fw.commit.running s.fw.commit.confirm none (some s.fw.commit.running.manifest)

/-- The escalated path of R91 entered: sessions are lost, and until step 11 has read the image again every class but those the
bridge keeps runs on its defaults (R118, R125). -/
def State.escalate (s : State) : State :=
  s.loseSessions.noteEscalation.modCfg fun x => { x with inUse := keepBridge x.inUse (DriveConfig.defaults s.fused.part) }

/-- The escalated path of R91 begins at step 8. -/
def State.beginEscalated (env : StartEnv) (s : State) : State := s.escalate.beginRun .escalated .escalated 8 env

/-- A warm-start source recognised during a warm start (R92): the path under way begins again; one that has moved the set
or lost the retained region goes on as the escalated path. -/
def State.restartWarm (source : StartSource) (env : StartEnv) (s : State) : State :=
  match s.start.run with
  | some { path := .warmAfterDusk, .. } => s.beginRun .warmAfterDusk source 3 env
  | some { path := .activation, .. } => (s.modFw fun f => { f with activation := none }).stopRecord.beginEscalated env
  | some { path := .escalated, .. } => s.beginRun .escalated .escalated 8 env
  | _ => s.beginWarm source env

/-! ## Steps 3 to 9 -/

/-- V3P3_AUX comes up at step 3 where Off or Dusk took it away, and SVC_EN is judged from then on (R38, R56). -/
def State.auxUp (env : StartEnv) (s : State) : State :=
  if s.start.svcJudged then s
  else s.modStart fun x => { x with auxAt := s.elapsed, svcJudged := true, svcHeld := env.svcHigh }

/-- Step 3: the input switch closes, and the time base runs from 0 where it stood still (R178). -/
def State.stepRails (env : StartEnv) (s : State) : State :=
  let s := s.auxUp env
  let s := s.modPower fun p => { p with inputSwitch := true, vinMv := env.vinMv, dusk := none }
  if s.time.running then s else s.modTime fun t => { t with running := true, unset := true, anchorNs := 0, anchorAt := s.elapsed }

/-- The contacts of Table 13-16 with the value that a set of straps puts on each. -/
def Straps.contacts (x : Straps) : List (Nat × Nat) :=
  [(34, bitOf x.spi), (35, bitOf (bit x.addr 0)), (36, bitOf (bit x.addr 1)), (37, bitOf (bit x.addr 2)),
   (54, bitOf (bit x.slot 0)), (55, bitOf (bit x.slot 1)), (56, bitOf (bit x.slot 2)), (57, bitOf (bit x.slot 3)),
   (58, bitOf x.sgmiiA), (59, bitOf x.sgmiiB)]

/-- Step 4: the straps are sampled, or compared with those of the cold start, which stand (R51). -/
def State.stepStraps (cold : Bool) (x : Straps) (s : State) : State :=
  if cold then s.modStart fun st => { st with straps := x }
  else (s.start.straps.contacts.zip x.contacts).foldl (fun s p =>
    if p.1.2 = p.2.2 then s else s.event .strapChanged p.1.1 p.1.2 p.2.2) s

/-- Step 5: the PHYs are released. -/
def State.stepPhys (s : State) : State :=
  (s.modPort .A fun p => { p with phyReset := false }).modPort .B fun p => { p with phyReset := false }

/-- Step 6: the first tamper sample (R54), and the watchdog of a part with suffix H. -/
def State.stepFuses (env : StartEnv) (s : State) : State :=
  let s := s.modSec fun k => { k with badSamples := if env.loopIntact then 0 else 3
                                      intactSince := if env.loopIntact then some s.elapsed else none }
  let s := if env.loopIntact then s else s.alarm
  if s.fused.wdgHwStart then s.startWatch else s

/-- Step 7: CH0 and CH1 start where they do not run; charging time counts from below 15 V (R85). -/
def State.stepRegulators (env : StartEnv) (s : State) : State :=
  let s := s.modPower fun p => { p with
    bankMv := List.replicate 8 env.bankMv
    chargeUs := if env.bankMv < 15000 then some 0 else p.chargeUs }
  s.modReg fun r => { r with
    ch0 := if r.ch0.running then r.ch0 else r.ch0.start0
    ch0Held := r.ch0OscHold
    ch1 := if r.ch1Stopped ∨ r.ch1.running then r.ch1 else r.ch1.start1 env.bankMv }

/-- CH2 to CH5 start where they do not run (R415). -/
def State.startLoops (s : State) : State :=
  let c := s.cfg.inUse.regulator
  s.modReg (RegState.startLoops s.elapsed c.gainScale2 c.gainScale3 c.gainScale4 c.gainScale5)

/-- START_KIND in Rescue (Table 4-8): a cold start is clean or unclean by the newest journal entry. -/
def State.rescueKind (path : StartPath) (s : State) : StartKind :=
  match path with
  | .escalated => .escalated
  | .cold | .warm | .warmAfterDusk | .activation =>
    if s.journal.newest = .stop ∨ s.journal.newest = .dusk then .coldClean else .coldUnclean

/-- The watchdog runs in Rescue (Table 17-7), where it ran before or starts in hardware. -/
def State.rescueWatch (s : State) : State :=
  if (s.fused.wdgHwStart ∨ s.watch.wasRunning) ∧ s.watch.running = false then s.startWatch else s

/-- Rescue entered from the boot ROM (R98, R282): it serves at once, from the defaults; the bridge keeps its settings, and the
retained region holds no live state. -/
def State.enterRescue (path : StartPath) (source : StartSource) (s : State) : State :=
  let s := (s.deferEvent .rescue 0 0 0).rescueWatch
  let s := (s.setMode .rescue).countStart
  let s := s.modNet fun n => { n with gateOpen := true }
  let s := s.modCfg fun x => { x with inUse := keepBridge x.inUse (DriveConfig.defaults s.fused.part) }
  let kind := s.rescueKind path
  (s.startLoops.modStart fun x => { x with
    run := none, awaitingReady := false, kind := kind, source := source, kept := false, retained := false }).beginSeries .rescue

/-- Step 8 (R493). -/
def State.stepSelect (r : StartRun) (s : State) : State × Bool :=
  let s := s.modFw (FwState.readCommit r.env.badCopies)
  let c := s.fw.commit
  let badRunning := s.badParts c.running.manifest r.env.badRunning
  let ok (s : State) (m : Nat) (bad : List Nat) : Bool := s.fw.complete m && bad.isEmpty && decide (c.failed ≠ some m)
  if ok s c.running.manifest badRunning then (s, true)
  else
    let s := s.markFailed c.running.manifest badRunning
    match c.previous with
    | some p =>
      let badPrevious := s.badParts p.manifest r.env.badPrevious
      if ok s p.manifest badPrevious then ((s.commitFallback p).deferEvent .fwFallback 3 p.manifest 0, true)
      else ((s.markFailed p.manifest badPrevious).enterRescue r.path r.source, false)
    | none => (s.enterRescue r.path r.source, false)

/-- The offset that a failing scrub of the retained region reports (R440): a failing line, or 0 where the region holds
no live state of the running set's format. -/
def State.scrubFinds (env : StartEnv) (s : State) : Option Nat :=
  if !s.start.retained ∨ s.start.retainedFormat ≠ s.fw.commit.running.retainedFormat then some 0 else env.scrubFails

/-- Step 9 failed (R95): the reason is logged, sessions and counters are lost, and the start goes on as the escalated path. -/
def State.scrubFailed (r : StartRun) (offset : Nat) (s : State) : State :=
  let s := (s.event .scrubFailed offset 0 0).escalate
  let s := s.modNet fun n => { n with counters := {}, crossedHigh := false, crossCount := 0, peak := n.level }
  s.modStart fun x => { x with run := some { r with path := .escalated, source := .escalated, step := 8 } }

/-! ## Steps 10 to 15 -/

/-- The retained word of the reset count as step 10 finds it: one that fails its check reads as the largest count (R446). -/
def State.readResetCount (r : StartRun) (s : State) : State :=
  if r.env.resetWordFails ∧ r.path ≠ .cold then s.modWatch fun w => { w with resetCount := 0xFFFF } else s

/-- Step 10: the watchdog as Tables 17-6 and 17-7 have it. -/
def State.stepServing (r : StartRun) (s : State) : State :=
  let s := s.readResetCount r
  match r.path with
  | .cold | .escalated => if s.fused.wdgHwStart then s.startWatch else s
  | .warm | .warmAfterDusk | .activation => if s.watch.wasRunning then s.startWatch else s

/-- The full read of a start. -/
def State.readImage (env : StartEnv) (s : State) : FullRead := fullRead s.start.straps env.memory

/-- The configuration of a full read put in use: on a cold start the bridge settings wait for step 15, on the escalated
path those of the last cold start stay (R100, R125). -/
def State.useImage (r : StartRun) (bad : List Nat) (s : State) : State :=
  let build := buildConfig s.fused.part s.start.straps s.fw.commit.running.catalogue (inc32 s.startCount) (s.readImage r.env) bad
  match r.path with
  | .escalated =>
    let (c, rep) := build (some s.cfg.image)
    (s.modCfg fun _ => ⟨c, c, rep⟩).shapersChanged s.cfg.inUse.shaper
  | _ =>
    let (c, rep) := build none
    s.modCfg fun _ => ⟨keepBridge (DriveConfig.defaults s.fused.part) c, c, rep⟩

/-- The GENERATION of the newest verifying header above the source. -/
def newerGeneration (rep : ConfigReport) (h : HeaderRead) : Nat :=
  match h.headers with
  | none => 0
  | some (a, b) => max (if ordersAbove rep true a then a.generation else 0) (if ordersAbove rep false b then b.generation else 0)

/-- The header reread of a warm start (R124). -/
def State.rereadImage (env : StartEnv) (s : State) : State :=
  match rereadHeaders s.start.straps s.cfg.report env.memory with
  | .failed => s.event .headerRereadFailed s.cfg.report.busForm 0 0
  | .nothingNewer => s
  | .newer =>
    let g := newerGeneration s.cfg.report (readHeaders s.start.straps env.memory)
    (s.modCfg fun x => { x with report := { x.report with newerCopyWaiting := true } }).event .newerCopy g 0 0

/-- The configuration bus taken for the read of step 11: the status outputs have been released and V3P3_AUX up for 20 ms, and
the lines of I²C have been high for 100 µs (R52). -/
def State.takeBus (r : StartRun) (s : State) : State :=
  let idle := if s.start.straps.spi then 0 else 100000
  (s.waitUntil (max s.start.releasedAt s.start.auxAt + ms 20 + idle)).modStart fun x => { x with run := some { r with reading := true } }

/-- Step 11. -/
def State.stepConfigure (r : StartRun) (s : State) : State :=
  match r.path with
  | .cold | .escalated =>
    let s := s.useImage r []
    if !s.fused.wdgHwStart ∧ s.cfg.inUse.watchdog.swStart = 0 then s.startWatch else s
  | .warm | .warmAfterDusk | .activation => s.rereadImage r.env

/-- The event of R123: the report holds entries. -/
def State.noteAdjusted (s : State) : State :=
  let n := s.cfg.report.entries.length
  if n = 0 then s else s.event .configAdjusted n s.cfg.report.source 0

/-- Step 12. -/
def State.stepKeys (r : StartRun) (s : State) : State :=
  let s := s.rekey
  let x := s.checkSecurity s.cfg.image (s.readImage r.env).walked s.cfg.report.sourceGeneration
  let s := if x.bad.isEmpty then s else s.useImage r x.bad
  (s.applySecurity x).noteAdjusted

/-- A band that was open at an unclean stop, closed now (R398): what its complete rows hold is verified, and the extents of an
incomplete row wait to be relocated. -/
def State.closeOpen (s : State) (b : Band) : State :=
  let s := s.modMedia (MediaState.modBand b.id fun b => { b with closed := some s.media.closings })
  let s := s.when (decide (0 < b.col)) fun s => s.addOp .read (.partialRow b.id) (b.data.getD 0 ⟨0, 0⟩) b.row
  if b.row = 0 then s.endVerify b.id else s.verifyBand b

/-- What an unclean start rebuilds at step 13 (R380, R395, R398): open bands are closed, and read counts and scrub times
restart from the newest checkpoint. -/
def State.recover (env : StartEnv) (s : State) : State :=
  let s := (s.media.bands.filter fun b => b.closed.isNone).foldl State.closeOpen s
  let s := s.modMedia fun m =>
    { m with
      closings := m.closings + 1
      blocks := m.blocks.map fun b => match s.journal.checkpoint.find? fun c => c.id = b.id with
        | some c => { b with reads := c.reads, scrubbed := c.scrubbed }
        | none => { b with reads := 0, scrubbed := 0 } }
  let s := (s.waitUntil (s.elapsed + ms env.scanMs)).modJournal fun j => { j with writeSeq := j.writeSeq + 65536 }
  (s.writeEntry .recovery).event .uncleanRecovery env.scanMs env.scanPages 0

/-- The time set at step 13 (R178). -/
def State.setStartTime (s : State) : State :=
  if s.time.unset ∧ !s.time.synced then
    (s.setTime (s.journal.lastTime.toNs + secs 1)).modTime fun t => { t with unset := false }
  else s.modTime fun t => { t with unset := false }

/-- The event of a Dusk record that is the newest entry (R73). -/
def State.noteDusk (s : State) : State :=
  match s.journal.newest, s.journal.duskRecord with
  | .dusk, some d => s.eventAt d.time .dusk d.synced .dusk d.cause d.minVinMv d.flushedKib
  | _, _ => s

/-- Step 13 (R394, R402). -/
def State.stepJournal (r : StartRun) (s : State) : State :=
  let clean := decide (s.journal.newest = .stop ∨ s.journal.newest = .dusk)
  let s := s.noteDusk
  match r.path with
  | .cold | .escalated =>
    let cold := decide (r.path = .cold)
    let s := s.modStart fun x => { x with kind := if clean then .coldClean else .coldUnclean }
    let s := if !clean && cold then s.modAdmin fun a => { a with uncleanStarts := inc32 a.uncleanStarts } else s
    (if clean then s else s.recover r.env).setStartTime
  | .warm | .warmAfterDusk | .activation => s.setStartTime

/-- The pins whose key the index holds, loaded again unless the drive is locked (R258, R395). -/
def State.reloadPins (s : State) : State :=
  s.modStore fun x => { x with pins := (x.flashPins.filter fun p => (newest x.keys p.tenant p.key).isSome).map fun p =>
    { p with loaded := if s.sec.lockFlag then none else (newest x.keys p.tenant p.key).map Version.num } }

/-- The open versions of segmented writes that go on: the hash front takes them as they stand. -/
def State.reopen (s : State) : State :=
  s.ses.sessions.foldl (fun s e => e.flights.foldl (fun s f => match f.work with
    | .segmented k v _ => s.putOpen e.tenant k v
    | _ => s) s) s

/-- Step 14: after any start the hash front is rebuilt from flash, so that of every key it holds the newest version alone, and
the pin cache is reloaded (R22). -/
def State.stepRebuild (s : State) : State := (s.modStore StoreState.reload).reopen.reloadPins

/-- A port that is up at a speed which `LINK_x_SPEED` does not allow goes down (R151); in SGMII mode that is the mismatch of R153. -/
def State.judgeSpeed (q : Port) (s : State) : State :=
  let p := s.portOf q
  if p.up ∧ !s.speedAllowed q p.speed then
    (s.linkDown q).when (s.start.straps.sgmii q) fun s => s.event .sgmiiRefused q.index 2 0
  else s

/-- Step 15: bridge, gate lists, shapers and time parameters of the configuration take effect. -/
def State.stepBridge (s : State) : State :=
  let s := s.modCfg fun x => { x with inUse := x.image }
  let s := (s.modNet fun n => { n with configured := true }).modTime fun t => { t with configured := true }
  let one (s : State) (q : Port) : State :=
    let s := s.judgeSpeed q
    let g := s.cfg.inUse.gates.get q
    let s := s.setSlopes q
    let s := if g.active then s.modPort q fun p => { p with gate := g.arm s.timeNs } else s
    s.modPort q fun p => { p with
      pauseInEffect := p.up && s.pauseApplies q p.pauseNegotiated
      verifyFrom := if p.preempt = .off then s.elapsed else p.verifyFrom
      preempt := if !p.up then .off else if (s.cfg.inUse.port.get q).preempt = 1 then (if p.preempt = .off then .verifying else p.preempt) else .off }
  (one (one s .A) .B).selectMaster

/-! ## Step 16 -/

/-- The timers that stand still while the gate is closed run on from now (R97, R223), and the
time with the gate closed counts against no bound (R498). -/
def State.resumeSessions (s : State) : State :=
  (s.pauseBounds.modSes fun x => { x with sessions := x.sessions.map fun e => { e with
    heardAt := s.elapsed
    assembling := e.assembling.map fun a => { a with firstAt := s.elapsed, lastAt := s.elapsed } } }).releaseKept

/-- Held reads whose operation a stop dropped are asked for again. -/
def State.requestHeld (s : State) : State :=
  s.ses.sessions.foldl (fun s e => e.flights.foldl (fun s f =>
    if (s.media.waiting ++ s.media.busy).any (fun o => o.purpose = .held e.id f.msgId) then s
    else match f.work with
      | .read k num .. => s.requestRead e.id f.msgId e.tenant k num
      | .pinLoad k num => s.requestRead e.id f.msgId e.tenant k num
      | _ => s) s) s

/-- A start record of page 0x08 (R337). -/
def State.recordStart (kind : StartKind) (source : StartSource) (s : State) : State :=
  let r : StartRecord := ⟨s.timeNow, kind.code, source.code, s.startCount, if source = .watchdog then s.watch.lastMissed else 0⟩
  s.modAdmin fun a => { a with startRecords := (r :: a.startRecords).take 16 }

/-- A set falls back to the previous one (R492): by Graft where that set is eligible against the one that failed, and by the
activation path otherwise. In Brace and in a start it waits. -/
def State.beginFallback (cause : Nat) (s : State) : State :=
  match s.fw.commit.previous with
  | none => s
  | some p =>
    if !s.mode.serving then s.modFw fun f => { f with fallbackDue := some cause }
    else
      let s := s.abortTest
      s.modFw fun f =>
        if s.fw.commit.running.eligible p then { f with fallbackDue := none, graft := some ⟨0, 0, s.elapsed, some cause⟩ }
        else { f with fallbackDue := none, activation := some ⟨some cause, s.elapsed⟩ }

/-- A fallback that fell due begins, where the drive serves. -/
def State.takeFallback (s : State) : State :=
  match s.fw.fallbackDue with
  | some c => if s.mode.serving then s.beginFallback c else s
  | none => s

/-- START_KIND of a start (Table 4-8). -/
def State.kindOf (r : StartRun) (s : State) : StartKind :=
  if r.source = .activation then .activation
  else match r.path with
  | .cold => s.start.kind
  | .warm => .warm
  | .warmAfterDusk => .warmAfterDusk
  | .escalated => .escalated
  | .activation => .activation

/-- SESSIONS_KEPT of a start (Table 4-8, R488). -/
def State.keptBy (r : StartRun) (s : State) : Bool :=
  match r.path with
  | .warm | .warmAfterDusk => true
  | .cold | .escalated => false
  | .activation => s.start.kept

/-- The state that step 16 enters (Table 4-5). -/
def State.levelAt16 (s : State) : Mode := if s.sec.lockFlag then .sealed else .readyRead

/-- The drive enters its serving level: START_COUNT rises and the retained region holds a live state from now on. -/
def State.enterLevel (r : StartRun) (kind : StartKind) (kept : Bool) (level : Mode) (s : State) : State :=
  ((s.setMode level).countStart).modStart fun x => { x with
    run := none, kind := kind, source := r.source, kept := kept, awaitingReady := level != Mode.sealed, retained := true
    retainedFormat := s.fw.commit.running.retainedFormat, escalateNext := false, resetLow := none, coldHeld := false }

/-- The events and records of step 16, with the open entry. -/
def State.logStart (r : StartRun) (kind : StartKind) (s : State) : State :=
  let s := s.logDeferred
  let a := kind.code * 2 ^ 24 + r.source.code * 2 ^ 16 + s.watch.resetCount
  ((s.event .start a s.startCount ((s.elapsed - s.start.refAt) / 1000000)).recordStart kind r.source).writeEntry .open

/-- The timers that step 16 sets: the lazy sweep, and the bank test of a failed class (R84). -/
def State.armTimers (s : State) : State :=
  let failed := s.bankClass == .failed
  let s := s.modStore fun x => { x with sweepDue := s.elapsed + secs s.cfg.inUse.kv.expirySweepS }
  s.modPower fun p => { p with testDue := if p.testDue.isNone && failed then some (s.elapsed + secs 600) else p.testDue }

/-- The watchdog of a part with suffix S that starts at Ready-Read (R442). -/
def State.lateWatch (s : State) : State :=
  if !s.fused.wdgHwStart && !s.watch.running && s.cfg.inUse.watchdog.swStart == 1 then s.startWatch else s

/-- The dawn series of a serving level, with the announcements of the IP addresses (R101, R272, R273). -/
def State.announceLevel (level : Mode) (s : State) : State :=
  ((((s.beginSeries level).gratuitousArp .A).gratuitousArp .B).unsolicited .A).unsolicited .B

/-- The endpoint open for service: gate, loops, admission limit, announcements, kept sessions and held reads. -/
def State.openService (level : Mode) (s : State) : State :=
  let s := s.modNet fun n => { n with gateOpen := true }
  ((s.lateWatch.startLoops.openLimit.armTimers).announceLevel level).resumeSessions.requestHeld.submitVerify

/-- The Brace causes as they stand when the drive reaches its serving level (R46, R67). -/
def State.noteLevels (env : StartEnv) (s : State) : State :=
  s.modPower fun p => { p with
    vinMv := env.servingVinMv.getD p.vinMv
    vinBelowWarn := match env.servingVinMv with
      | some v => decide (v < s.cfg.inUse.power.vinWarnMv)
      | none => p.vinBelowWarn
    pfwLow := env.servingPfwLow.getD p.pfwLow }

/-- Step 16: START_COUNT rises, the open entry is written, the gate opens and the serving level is entered. -/
def State.serve (r : StartRun) (s : State) : State :=
  let kind := s.kindOf r
  let level := s.levelAt16
  let s := (s.waitUntil (s.start.refAt + ms r.env.servingMs)).enterLevel r kind (s.keptBy r) level
  let s := (s.logStart r kind).openService level
  let s := (s.when (r.path == .cold) State.probeBands).resumeVerify
  ((s.kickAll.noteLevels r.env).braceIfWarned).takeFallback

/-! ## Activation (Table 19-8) -/

/-- Step 6: the configuration is built again from its copy (R489); the retained region is kept or reformatted (R488). -/
def State.stepReformat (s : State) : State :=
  let p := s.fw.commit.running
  let s := if s.start.retainedFormat = p.retainedFormat then s.modStart fun x => { x with kept := true }
    else (s.loseSessions).modStart fun x => { x with kept := false, retainedFormat := p.retainedFormat }
  let was := s.cfg.inUse.shaper
  let (c, _) := applyJointRules (if p.settingsKeep then s.cfg.inUse else s.cfg.image)
  let s := s.modCfg fun x => { x with inUse := c, report := { x.report with catalogueVersion := p.catalogue, startCount := inc32 s.startCount } }
  (s.shapersChanged was).noteAdjusted

/-- Step 5 failed (R487, R492): the previous set is loaded in place of the failed one, or none is left. -/
def State.loadFailed (r : StartRun) (s : State) : State :=
  let bad := s.fw.commit.running.manifest
  let s := s.markFailed bad (s.badParts bad r.env.badRunning)
  match s.fw.commit.previous with
  | some p => ((s.commitFallback p).event .fwFallback 3 p.manifest 0).modStart fun x =>
      { x with run := some { r with env := { r.env with badRunning := r.env.badPrevious } } }
  | none => s.escalate.modStart fun x => { x with run := some { r with path := .escalated, source := .escalated, step := 8 } }

/-- The commit record of step 4. -/
def State.stepCommit (s : State) : State :=
  match (s.fw.activation.bind ActivationRun.fallback), s.fw.verified, s.fw.commit.previous with
  | some c, _, some p => (s.commitFallback p).event .fwFallback c p.manifest 0
  | some _, _, none => s
  | none, some p, _ => s.commitTrial p 2
  | none, none, _ => s

/-- One step of Table 19-8. -/
def State.stepActivate (r : StartRun) (next : State → State) (s : State) : State :=
  match r.step with
  | 4 => next s.stepCommit
  | 5 => if (s.badParts s.fw.commit.running.manifest r.env.badRunning).isEmpty then next (if s.watch.wasRunning then s.startWatch else s) else s.loadFailed r
  | 6 => next s.stepReformat
  | 7 => next s.stepRebuild
  | 8 =>
    let pause := (s.start.refAt + ms r.env.servingMs - s.start.refAt + 999999) / 1000000
    let m := s.fw.commit.running.manifest
    let fell := (s.fw.activation.bind ActivationRun.fallback).isSome || decide (s.fw.commit.failed.isSome)
    let s := s.modFw fun f => { f with activation := none }
    (if fell then s else s.event .fwActivated pause m 0).serve r
  | _ => next s

/-! ## The run of a start -/

/-- The steps that a path runs, in order (Tables 4-2 and 19-8). -/
def StartPath.steps : StartPath → List Nat
  | .cold => [3, 4, 5, 6, 7, 8, 10, 11, 12, 13, 14, 15, 16]
  | .warm => [1, 2, 4, 9, 10, 11, 13, 14, 16]
  | .warmAfterDusk => [3, 4, 5, 7, 9, 10, 11, 13, 14, 16]
  | .escalated => [8, 10, 11, 12, 13, 14, 16]
  | .activation => [1, 2, 3, 4, 5, 6, 7, 8]

/-- The run goes on to the step after its own. -/
def State.nextStep (r : StartRun) (s : State) : State :=
  s.modStart fun x => { x with run := (r.path.steps.find? fun k => r.step < k).map fun k => { r with step := k, reading := false } }

/-- One step of a start. -/
def State.startStep (r : StartRun) (s : State) : State :=
  let next := State.nextStep r
  if r.path = .activation then s.stepActivate r next
  else match r.step with
    | 3 => next (s.stepRails r.env)
    | 4 => next (s.stepStraps (decide (r.path = .cold)) r.env.straps)
    | 5 => next s.stepPhys
    | 6 => next (s.stepFuses r.env)
    | 7 => next (s.stepRegulators r.env)
    | 8 => match s.stepSelect r with
      | (s, true) => next s
      | (s, false) => s
    | 9 =>
      if s.start.escalateNext then
        s.escalate.modStart fun x => { x with escalateNext := false, run := some { r with path := .escalated, source := .escalated, step := 8 } }
      else match s.scrubFinds r.env with
        | some off => s.scrubFailed r off
        | none => next s
    | 10 => next (s.stepServing r)
    | 11 => if r.reading then next (s.stepConfigure r) else s.takeBus r
    | 12 => next (s.stepKeys r)
    | 13 => next (s.stepJournal r)
    | 14 => next s.stepRebuild
    | 15 => next s.stepBridge
    | 16 => s.serve r
    | _ => next s

/-- The steps of the start under way, up to its end, to the step it waits before, or while RESET_N is low. `fuel` bounds the
steps: no start has more than 30. -/
def State.runSteps : Nat → State → State
  | 0, s => s
  | fuel + 1, s => match s.start.run with
    | none => s
    | some r =>
      let waits := match r.env.stopAt with
        | some k => decide (k ≤ r.step)
        | none => false
      if waits || (r.reading && r.env.stopInRead) || s.start.resetLow.isSome then s else State.runSteps fuel (s.startStep r)

/-- The start under way carried on. -/
def State.runStart (s : State) : State := s.runSteps 40

/-- One period of the 25 MHz reference clock without a command; a start that waited goes on to its end
(notes/assumptions/2.md). -/
def State.idle (s : State) : Host.Outcome State Fault Refusal :=
  let s := s.waitUntil (s.elapsed + 40)
  match s.start.run with
  | none => s.done
  | some r => ((s.modStart fun x => { x with run := some { r with env := { r.env with stopAt := none, stopInRead := false } } }).runStart).done

end Sys2Proof.Machine
end

