-- ==== Sys2Proof/Machine/Dusk.lean ====
section
/-!
DEFINITION. Dusk (R72 to R77, R391, R392) with its rows, and the end of the post-Dusk hold (Table 3-5).
-/
namespace Sys2Proof.Machine

/-! ## Commitment (Table 3-4, steps 1 to 4) -/

/-- A request whose first answer was HELD: it survives Dusk with its session. -/
def Flight.survives (f : Flight) : Bool := f.token.isSome

/-- The work of a held request once Dusk has ended every open version: a read of one reads what was staged of it, and a PIN
loads it (R309, R310). -/
def Work.cut (find : Bytes → Nat → Nat → Option Version) : Work → Work
  | .openRead k n ad off len => match find k n ad with
    | some v => readWork k (closeVersion v) off len
    | none => .openRead k n ad off len
  | .pinOpen k n _ => .pinLoad k n
  | w => w

/-- What Dusk leaves of a session: held requests stay, requests whose answer was not on the wire are lost with it. -/
def Sess.afterDusk (find : Nat → Bytes → Nat → Nat → Option Version) (e : Sess) : Sess :=
  let gone := e.flights.filter fun f => !f.survives
  { e with
    flights := (e.flights.filter Flight.survives).map fun f => { f with work := f.work.cut (find e.tenant) }
    assembling := []
    sets := gone.foldl (fun sets f => match f.ly1 with
      | some (n, _, _) => modifyAt n (fun x => { x with busy := false }) sets
      | none => sets) e.sets }

/-- Whether Dusk keeps a session: an open one, and a handshake whose SESSION_ACCEPT has been sent (R224). -/
def State.duskKeeps (e : Sess) (s : State) : Bool :=
  match e.phase with
  | .open => true
  | .pending _ => !s.hasQueued e.port e.id
  | .closing .. | .dropping .. => false

/-- Sessions at commitment: those that were closing and handshakes not yet accepted end, frames received are lost, and every
open version ends at its staged bytes. -/
def State.duskSessions (s : State) : State :=
  let s := (s.ses.sessions.filter fun e => !s.duskKeeps e).foldl (fun s e => s.removeSess e.id) s
  let s := (s.keepCompletions .A).keepCompletions .B
  let find := s.findVersion
  let s := s.modSes fun x => { x with sessions := x.sessions.map (Sess.afterDusk find) }
  (s.modStore StoreState.closeOpen).modNet fun n => { n with inbox := [], level := 0, paused := false }

/-- A port whose PHY is powered down. -/
def PortState.dark (p : PortState) : PortState := { p.drop with phyReset := true }

/-- Ports, time base and regulators at step 3. -/
def State.duskHardware (s : State) : State :=
  let now := s.timeNs
  let s := s.modNet fun n => { n with
    port := ⟨n.port.a.dark, n.port.b.dark⟩, learn := [], gateOpen := false, forwarding := false, actUntil := none }
  let s := s.modTime fun t => { t with
    running := false, anchorNs := now, anchorAt := s.elapsed, synced := false, grandmaster := false, slave := none, offsets := []
    port := ⟨{}, {}⟩, ppsHigh := false, ppsLock := none }
  s.modReg fun r => { r.stopLoops with ch0Held := true, vcoreMv := 900, ch0 := { r.ch0 with running := false }, ch1 := r.ch1.stop1 }

/-- Starts, updates and the service port at commitment. -/
def State.duskRuns (s : State) : State :=
  let updating := s.fw.activation.isSome && decide (s.mode = .warmStart)
  let s := if s.fw.download.isSome then s.deferEvent .fwRefused 0x0D 0 0 else s
  let s := s.modFw fun f => { f with download := none, graft := none, activation := none }
  s.modStart fun x => { x with
    run := none, series := none, limit := .closed, awaitingReady := false, escalateNext := x.escalateNext || updating
    scanReleased := false, tap := {}, resetLow := none, coldHeld := false, referenceHeld := false, svcJudged := false, svcHeld := false }

/-- A Dusk record may be written: the bank pays for it, and no unclean start is still to write its recovery entry
(R75, R391, R392). -/
def State.mayRecord (s : State) : Bool :=
  let judged := match s.mode, s.start.run with
    | .coldStart, some r => decide (13 < r.step)
    | .coldStart, none => false
    | .rescue, _ => false
    | _, some r => decide (r.path ≠ .escalated ∨ 13 < r.step)
    | _, none => true
  decide (120000 ≤ s.avail) && (judged || decide (s.journal.newest = .stop ∨ s.journal.newest = .dusk))

/-- Steps 5 to 7: the flush in admission order, the rest of the open rows, the Dusk record, and the end. -/
def State.finishDusk (s : State) : State :=
  match s.power.dusk with
  | none => s
  | some d =>
    if d.complete then s
    else
      let s := s.drainNow
      let open_ := (s.media.bands.filter fun b => b.closed.isNone).map Band.id
      let s := open_.foldl (fun s id => s.fillRow id) s
      let s := s.modJournal fun j => { j with duskRecord := some ⟨d.cause.code, d.time, d.minVinMv, d.flushedKib, d.synced⟩ }
      ((s.writeEntry .dusk).modMedia fun m => { m with busy := [] }).modPower fun p =>
        { p with dusk := some { d with recorded := true, complete := true } }

/-- Dusk committed (R72). Flash reads are aborted; programs and erases that have started run on (step 4 of Table 3-4). `paid` says that the flush runs to its end within this command; otherwise its extents follow one
by one. -/
def State.commitDusk (cause : DuskCause) (paid : Bool) (vin : Nat) (s : State) : State :=
  if s.mode = .off ∨ s.mode = .dusk then s
  else
    let minVin := match s.power.brace with
      | some b => min b.minVinMv vin
      | none => vin
    let s := s.modPower fun p => { p with vinMv := vin, vinMinMv := min p.vinMinMv vin, brace := p.brace.map fun b => { b with minVinMv := minVin } }
    let record := s.mayRecord
    let s := (s.abortTest.abortJobs.logEpisode).haltWatch
    let ep : DuskEp := ⟨cause, s.timeNow, minVin, s.staged / 1024, false, !record, s.time.synced, s.elapsed⟩
    let s := s.duskRuns.duskSessions.duskHardware
    let s := (s.dropOps fun p => decide (p ≠ .erase)).modMedia fun m => { m with busy := m.busy.filter fun o => o.kind ≠ .read }
    let s := (s.setMode .dusk).modPower fun p => { p with
      brace := none, dusk := some ep, inputSwitch := false, sleep := .awake, thermalLatch := p.thermalLatch || cause == DuskCause.thermal
      vinBelowWarn := false, pfwLow := false }
    let s := s.settle
    if paid then s.finishDusk else s

/-- A measured VIN noted. -/
def State.noteVin (vin : Nat) (s : State) : State :=
  s.modPower fun p => { p with
    vinMv := vin, vinMinMv := min p.vinMinMv vin, brace := p.brace.map fun b => { b with minVinMv := min b.minVinMv vin }
    dusk := p.dusk.map fun d => if d.complete then d else { d with minVinMv := min d.minVinMv vin } }

/-- A supply cause of Dusk with the VIN measured at it. A drive already in Dusk ignores the cause and goes on measuring (R72,
R73). -/
def State.supplyDusk (cause : DuskCause) (paid : Bool) (vin : Nat) (s : State) : State :=
  if s.mode = .dusk then s.noteVin vin else s.commitDusk cause paid vin

/-- VIN_BELOW_CUT: VIN below `PWR_VIN_CUT_MV`. -/
def State.belowCut (vin : Nat) (paid : Bool) (s : State) : State :=
  if vin < s.cfg.inUse.power.vinCutMv then s.supplyDusk .belowCut paid vin else s

/-- VIN_BELOW_CUT (R72). -/
def execVinBelowCut (vin : Nat) (paid : Bool) (s : State) : Host.Outcome State Fault Refusal := (s.belowCut vin paid).done

/-- INPUT_COLLAPSE: VIN below 9 V, or current flowing back (R65). -/
def State.collapsed (vin : Nat) (reverse paid : Bool) (s : State) : State :=
  if vin < 9000 ∨ reverse = true then s.supplyDusk .collapse paid vin else s

/-- INPUT_COLLAPSE (R72). -/
def execInputCollapse (vin : Nat) (reverse paid : Bool) (s : State) : Host.Outcome State Fault Refusal := (s.collapsed vin reverse paid).done

/-- OVERVOLTAGE: VIN above 34 V (R65). -/
def State.overvolted (vin : Nat) (paid : Bool) (s : State) : State :=
  if 34000 < vin then s.supplyDusk .overvoltage paid vin else s

/-- OVERVOLTAGE (R72). -/
def execOvervoltage (vin : Nat) (paid : Bool) (s : State) : Host.Outcome State Fault Refusal := (s.overvolted vin paid).done

/-- THERMAL_SHUTDOWN (R26): writes are refused, and Dusk and Off follow. The event is logged at the next start (R333). -/
def State.overheated (junction : Int) (paid : Bool) (s : State) : State :=
  if junction < 1150 ∨ s.mode = .off ∨ s.mode = .dusk then s
  else
    let s := (s.noteJunction junction).modPower fun p => { p with thermalRefuse := true }
    let s := s.modAdmin fun a => { a with thermalShutdowns := inc32 a.thermalShutdowns }
    (s.deferEvent .thermalShutdown 0 (junction % 4294967296).toNat 0).commitDusk .thermal paid s.power.vinMv

/-- THERMAL_SHUTDOWN. -/
def execThermalShutdown (junction : Int) (paid : Bool) (s : State) : Host.Outcome State Fault Refusal := (s.overheated junction paid).done

/-- REFERENCE_CLOCK_LOST (R30): the event is logged at the next start. -/
def State.referenceLost (paid : Bool) (s : State) : State :=
  let s := s.modPower fun p => { p with referencePresent := false }
  if s.mode = .off ∨ s.mode = .dusk then s
  else (s.deferEvent .referenceLost 0 0 0).commitDusk .reference paid s.power.vinMv

/-- REFERENCE_CLOCK_LOST. -/
def execReferenceClockLost (paid : Bool) (s : State) : Host.Outcome State Fault Refusal := (s.referenceLost paid).done

/-- The time in Dusk counted: the scrub interval leaves it out (R363). -/
def State.leaveDusk (s : State) : State :=
  match s.power.dusk with
  | none => s
  | some d => s.modPower fun p => { p with duskNs := p.duskNs + (s.elapsed - d.at_), dusk := some { d with at_ := s.elapsed } }

/-- MODULE_SUPPLY_FAILS (R391): the hold-up energy runs out in Dusk. What is programmed stays; no Dusk record is written. -/
def State.supplyFails (s : State) : State := if s.mode = .dusk then s.leaveDusk.switchOff else s

/-- MODULE_SUPPLY_FAILS. -/
def execModuleSupplyFails (s : State) : Host.Outcome State Fault Refusal := s.supplyFails.done

/-- INPUT_PROTECTION_TRIP (R510): the protection takes input and hold-up path away without Dusk. Above 60 V the manual says
that the module can be damaged, and nothing of what it then does. -/
def execInputProtectionTrip (vin : Nat) (s : State) : Host.Outcome State Fault Refusal :=
  if 60000 < vin then .fault .damaged
  else if vin ≤ 40000 then s.done
  else s.switchOff.done

/-! ## The post-Dusk hold (Table 3-5) -/

/-- VIN valid lies between VIN_WARN + 0.8 V and 34 V (R65); before a configuration is read VIN_WARN is its default. -/
def State.vinValid (vin : Nat) (s : State) : Bool := decide (s.cfg.inUse.power.vinWarnMv + 800 ≤ vin ∧ vin ≤ 34000)

/-- The drive holds in reset before a cold start: for RESET_N (R45) or for the reference (R30). -/
def State.holdReset (reference : Bool) (env : StartEnv) (s : State) : State :=
  (s.coldClear env).modStart fun x => { x with
    referenceHeld := reference, coldHeld := !reference, resetLow := if reference then none else some s.elapsed }

/-- The hold ends. VIN valid is what R65 says of it: recognised, and within the thresholds. In the warm start that follows
CH0 resumes from the 0.90 V it was held at (R409). -/
def State.holdEnds (resetLow vinSeen : Bool) (env : StartEnv) (s : State) : State :=
  match s.power.dusk with
  | none => s
  | some d =>
    let s := s.finishDusk.leaveDusk
    let valid := vinSeen && s.vinValid env.vinMv
    let warm := valid && decide (15000 ≤ env.bankMv)
    if d.cause = .thermal then s.switchOff
    else if d.cause = .reference ∨ (!s.power.referencePresent ∧ (resetLow || warm) = true) then
      if s.power.referencePresent then (s.beginCold .reference env).runStart else s.holdReset true env
    else if resetLow then (if valid then s.holdReset false env else s.switchOff)
    else if warm then
      (((s.setMode .warmStart).modReg fun r => { r with ch0 := r.ch0.start0, ch0Held := r.ch0OscHold }).modPower fun p => { p with vinMv := env.vinMv, bankMv := List.replicate 8 env.bankMv }).beginRun
        .warmAfterDusk .afterDusk 3 env |>.runStart
    else (s.waitUntil (s.elapsed + ms 500)).switchOff

/-- POST_DUSK_HOLD_END (R76). -/
def execPostDuskHoldEnd (resetLow vinValid : Bool) (env : StartEnv) (s : State) : Host.Outcome State Fault Refusal :=
  (s.holdEnds resetLow vinValid env).done

end Sys2Proof.Machine
end

