-- ==== Sys2Proof/Machine/Sources.lean ====
section
/-!
DEFINITION. The sources of starts (Table 4-1, R44, R91, R92), the entry to Ready or Overcast (step 17), Brace and its
supply conditions (R65 to R71), and the wake from Deep Sleep (R89).
-/
namespace Sys2Proof.Machine

/-! ## Supply -/

/-- The drive is switched on: powered time runs, and nothing of an earlier configuration is in use. -/
def State.switchOn (s : State) : State :=
  let c := DriveConfig.defaults s.fused.part
  (s.modCfg fun _ => { inUse := c, image := c }).modPower fun p => { p with onAt := some s.elapsed, discharging := none }

/-- The bank voltage that a start finds: 30 s after Off the discharge has brought it below 5 V (R60, R77). -/
def State.bankFound (env : StartEnv) (s : State) : StartEnv :=
  match s.power.discharging with
  | some t => if t + secs 30 ≤ s.elapsed then { env with bankMv := min env.bankMv 4999 } else env
  | none => env

/-- VIN_VALID (R90): a cold start from Off, held while RESET_N is low (R44). -/
def State.vinOn (resetLow : Bool) (env : StartEnv) (s : State) : State :=
  if s.mode ≠ .off ∨ s.power.thermalLatch = true then s
  else
    let env := s.bankFound env
    let t := s.switchOn
    if !t.vinValid env.vinMv then s
    else if resetLow then t.holdReset false env
    else (t.beginCold .vin env).runStart

/-- VIN_VALID. -/
def execVinValid (resetLow : Bool) (env : StartEnv) (s : State) : Host.Outcome State Fault Refusal := (s.vinOn resetLow env).done

/-- REFERENCE_CLOCK_RETURN (R30, R90). -/
def State.referenceBack (env : StartEnv) (s : State) : State :=
  let s := s.modPower fun p => { p with referencePresent := true }
  if s.start.referenceHeld then (s.beginCold .reference env).runStart else s

/-- REFERENCE_CLOCK_RETURN. -/
def execReferenceClockReturn (env : StartEnv) (s : State) : Host.Outcome State Fault Refusal := (s.referenceBack env).done

/-- JUNCTION_COOLED (R26, R90): 95 °C or less after a thermal shutdown. -/
def State.cooled (env : StartEnv) (s : State) : State :=
  if s.mode = .off ∧ s.power.thermalLatch = true ∧ env.junction ≤ 950 then
    (s.switchOn.beginCold .thermal (s.bankFound env)).runStart
  else s

/-- JUNCTION_COOLED. -/
def execJunctionCooled (env : StartEnv) (s : State) : Host.Outcome State Fault Refusal := (s.cooled env).done

/-! ## RESET_N (R44, R92) -/

/-- What the drive measures of itself, for a start that finds nothing new. -/
def State.ownEnv (s : State) : StartEnv :=
  { straps := s.start.straps, vinMv := s.power.vinMv, bankMv := s.power.lastMv, junction := s.power.junction }

/-- The falling edge of a RESET_N level recognised now: 10 µs ago, or earlier where it is known already (R44). -/
def State.noteResetLow (s : State) : State :=
  s.modStart fun x => { x with resetLow := some (x.resetLow.getD (s.elapsed - 10000)) }

/-- RESET_N_RECOGNISED (R44, R45, R92). In the post-Dusk hold it ends the hold, with VIN as the supervisor last measured it. -/
def State.resetSeen (s : State) : State :=
  match s.mode with
  | .off => s
  | .dusk =>
    if (s.power.dusk.map DuskEp.complete).getD false then s.holdEnds true (s.vinValid s.power.vinMv) s.ownEnv else s
  | .coldStart | .warmStart => s.noteResetLow
  | _ => s.orderlyStop.noteResetLow

/-- RESET_N_RECOGNISED. -/
def execResetNRecognised (s : State) : Host.Outcome State Fault Refusal := s.resetSeen.done

/-- RESET_N_HELD_COLD (R44): 500 ms after the falling edge the drive is in Cold Start with its PHYs in reset. -/
def State.resetHeld (s : State) : State :=
  match s.start.resetLow with
  | none => s
  | some t =>
    if s.start.coldHeld ∨ s.mode = .off ∨ s.mode = .dusk then s
    else ((s.waitUntil (t + ms 500)).coldClear s.ownEnv).modStart fun x => { x with coldHeld := true }

/-- RESET_N_HELD_COLD. -/
def execResetNHeldCold (s : State) : Host.Outcome State Fault Refusal := s.resetHeld.done

/-- RESET_N_RELEASED (R90, R92): the path that the low level selected begins; a level of 500 ms or more selects the cold one
(R44). A cold start that has not reached step 8 goes on from its own step, since steps 3 to 7 come before step 8 (R93; DEDUCED,
notes/assumptions/26.md). -/
def State.resetReleased (env : StartEnv) (s : State) : State :=
  match s.start.resetLow with
  | none => s
  | some t =>
    let s := if t + ms 500 ≤ s.elapsed then s.resetHeld else s
    let held := s.start.coldHeld
    let s := s.modStart fun x => { x with resetLow := none, coldHeld := false }
    if held then (s.beginCold .resetCold env).runStart
    else match s.mode, s.start.run with
      | .coldStart, some r => (s.beginRun .cold r.source (min r.step 8) env).runStart
      | .warmStart, _ => (s.restartWarm .resetWarm env).runStart
      | _, _ => s

/-- RESET_N_RELEASED. -/
def execResetNReleased (env : StartEnv) (s : State) : Host.Outcome State Fault Refusal := (s.resetReleased env).done

/-! ## Step 17 -/

/-- The ledger covers the staging limit with a bank that has not failed (R82, R85). -/
def State.coversLimit (s : State) : Bool := decide (s.bankClass ≠ .failed) && decide (needUj s.stagingLimit ≤ s.avail)

/-- The state that step 17 enters (Table 4-5), if it enters one now. -/
def State.levelAt17 (s : State) : Option Mode :=
  if s.media.spare ≤ overcastLevel then some .overcast else if s.coversLimit then some .ready else none

/-- Step 17: Ready or Overcast entered with its dawn series. The first scheduled bank test follows 10 min later (R84). -/
def State.enterTop (m : Mode) (s : State) : State :=
  let overcast := m == .overcast
  let s := ((s.enter m).modStart fun x => { x with awaitingReady := false }).modMedia fun x => { x with overcast := x.overcast || overcast }
  let s := s.when overcast (State.event .overcast s.media.spare 0 0)
  (s.modPower fun p => { p with testDue := some (p.testDue.getD (s.elapsed + secs 600)) }).beginSeries m

/-- READY_ENTRY (R82, R98). -/
def State.readyEntry (s : State) : State :=
  if s.mode = .readyRead ∧ s.start.awaitingReady = true then
    match s.levelAt17 with
    | some m => s.enterTop m
    | none => s
  else s

/-- READY_ENTRY. -/
def execReadyEntry (s : State) : Host.Outcome State Fault Refusal := s.readyEntry.done

/-! ## Brace -/

/-- A Brace cause recognised: in Deep Sleep it is logged, in a start it waits, and in Brace the 5 ms of R70 begin anew (R46,
R67, R88). -/
def State.warned (cause : BraceCause) (s : State) : State :=
  match s.mode with
  | .deepSleep => s.event .warningInSleep cause.reason 0 0
  | .brace => s.modPower fun p => { p with brace := p.brace.map fun b => { b with warnedAt := s.elapsed } }
  | _ => s.enterBrace cause

/-- VIN_BELOW_WARNING (R65, R67). In Dusk the supervisor goes on measuring VIN (R73). -/
def State.vinWarned (vin : Nat) (s : State) : State :=
  if s.mode = .dusk then s.noteVin vin
  else if s.mode = .off ∨ s.cfg.inUse.power.vinWarnMv ≤ vin then s
  else ((s.noteVin vin).modPower fun p => { p with vinBelowWarn := true }).warned .vin

/-- VIN_BELOW_WARNING. -/
def execVinBelowWarning (vin : Nat) (s : State) : Host.Outcome State Fault Refusal := (s.vinWarned vin).done

/-- PFW_N_WARNING (R46). -/
def State.pfwWarned (s : State) : State :=
  if s.mode = .off ∨ s.mode = .dusk then s else (s.modPower fun p => { p with pfwLow := true }).warned .pfw

/-- PFW_N_WARNING. -/
def execPfwNWarning (s : State) : Host.Outcome State Fault Refusal := s.pfwWarned.done

/-- The end of a Brace episode: the event, charging, and the state it was entered from. -/
def State.leaveBrace (s : State) : State :=
  match s.power.brace with
  | none => s
  | some b =>
    let s := s.logEpisode
    (((s.setMode b.entered).modPower fun p => { p with brace := none }).resumeCharge.leaveReady.kickAll).takeFallback

/-- BRACE_EXIT (R70): 5 ms without a break since the last warning, with VIN at or above warning plus 0.8 V and PFW_N high. -/
def State.braceExit (vin : Nat) (s : State) : State :=
  if vin < s.cfg.inUse.power.vinWarnMv + 800 ∨ s.mode = .off then s
  else if s.mode = .dusk then s.noteVin vin
  else
    let s := s.modPower fun p => { p with vinMv := vin, vinBelowWarn := false, pfwLow := false }
    match s.mode, s.power.brace with
    | .brace, some b => (s.waitUntil (b.warnedAt + ms 5)).leaveBrace
    | _, _ => s

/-- BRACE_EXIT. -/
def execBraceExit (vin : Nat) (s : State) : Host.Outcome State Fault Refusal := (s.braceExit vin).done

/-- SUPPLY_UNSTABLE_REARM (R71): at least 60 s after the event, at the first instant with at most 10 episodes in the 60 s
before it. -/
def State.rearm (s : State) : State :=
  if s.power.unstableArmed then s
  else
    let quiet := match s.power.braceStarts[10]? with
      | some t => t + secs 60
      | none => 0
    (s.waitUntil (max (s.power.unstableAt + secs 60) quiet)).modPower fun p => { p with unstableArmed := true }

/-- SUPPLY_UNSTABLE_REARM. -/
def execSupplyUnstableRearm (s : State) : Host.Outcome State Fault Refusal := s.rearm.done

/-! ## Waking (R89) -/

/-- The drive awake in Ready-Read, with the events and the first series of R89. -/
def State.awaken (source : Nat) (s : State) : State :=
  let s := (s.setMode .readyRead).modPower fun p => { p with sleep := .awake }
  let s := s.modStart fun x => { x with kind := .wake, source := .wake, kept := true }
  let s := (s.event .deepSleep 2 source 0).recordStart .wake .wake
  let s := if s.watch.wasRunning then s.startWatch else s
  s.openService .readyRead

/-- The drive wakes and returns to the state it slept from. -/
def State.wakeUp (source : Nat) (s : State) : State :=
  match s.mode, s.power.sleep with
  | .deepSleep, .asleep m =>
    let s := s.awaken source
    let s := if m = .readyRead then s.beginSeries .readyRead else (s.setMode m).beginSeries m
    s.kickAll
  | _, _ => s

/-- WAKE_INPUT (R47). -/
def execWakeInput (s : State) : Host.Outcome State Fault Refusal := (s.wakeUp 1).done

/-- WAKE_FRAME (R238). -/
def State.wakeFrame (s : State) : State :=
  match s.takeFrame .wake with
  | (none, s) => s
  | (some f, s) => if s.wakeFrameOk f.payload then s.wakeUp 2 else s

/-- WAKE_FRAME. -/
def execWakeFrame (s : State) : Host.Outcome State Fault Refusal := s.wakeFrame.done

end Sys2Proof.Machine
end

