-- ==== Sys2Proof/Machine/Guard.lean ====
section
/-!
DEFINITION. The tamper loop (R54, R456), the service port (R56, R465 to R467) with the test access port (R57), the watchdog
(R441 to R446), the scan engine (R435 to R439) and the backstop of R509.
-/
namespace Sys2Proof.Machine

/-! ## SVC_EN -/

/-- SVC_EN_IGNORED (R56): a high level of 1 ms or more ended before it was recognised; one that was high at step 3 is not
counted. From 80 ms to 100 ms the manual leaves the judgement open. -/
def State.svcIgnored (len : Nat) (s : State) : State :=
  if s.start.svcHeld then s.modStart fun x => { x with svcHeld := false }
  else if !s.start.svcJudged ∨ len = 0 ∨ 100 ≤ len then s
  else
    let (d, t) := s.draw
    if len < 80 then (s.count .svcEnIgnored 1).event .svcEnIgnored len 0 0
    else if Config.svcEnBand d then (t.count .svcEnIgnored 1).event .svcEnIgnored len 0 0
    else t

/-- SVC_EN_IGNORED. -/
def execSvcEnIgnored (len : Nat) (s : State) : Host.Outcome State Fault Refusal := (s.svcIgnored len).done

/-- Sealed entered by the opening of the service port: a start under way goes on to it by itself, every other state enters
it at once. -/
def State.sealForPort (s : State) : State :=
  if s.mode = .coldStart ∨ s.mode = .warmStart then (s.event .servicePortOpened 0 0 0).eraseAll
  else ((s.enter .sealed).event .servicePortOpened 0 0 0).sealErased

/-- SERVICE_PORT_OPEN (R465, Table 18-6): everything is erased before the scan chain is released. -/
def State.portOpens (s : State) : State :=
  if !s.start.svcJudged ∨ s.start.scanReleased = true then s
  else
    let s := if s.mode = .deepSleep then s.awaken 4 else s
    let s := s.sealForPort.stopWatch
    s.modStart fun x => { x with scanReleased := true, tap := {}, svcHeld := false }

/-- SERVICE_PORT_OPEN. -/
def execServicePortOpen (s : State) : Host.Outcome State Fault Refusal := s.portOpens.done

/-- SERVICE_PORT_CLOSE (R467). -/
def State.portCloses (env : StartEnv) (s : State) : State :=
  if !s.start.scanReleased then s
  else
    let s := s.modStart fun x => { x with scanReleased := false, tap := {} }
    if s.cfg.inUse.security.svcCloseAction = 0 then
      (((s.modSec fun k => { k with lockFlag := false }).quiesce.stopRecord).beginCold .servicePort env).runStart
    else if s.watch.wasRunning then s.startWatch else s

/-- SERVICE_PORT_CLOSE. -/
def execServicePortClose (env : StartEnv) (s : State) : Host.Outcome State Fault Refusal := (s.portCloses env).done

/-! ## The tamper loop -/

/-- A level or a short that is a fault of the loop (R54). -/
def TamperReading.fault (r : TamperReading) : Bool :=
  r.grounded || !r.follows || decide (800 < r.idleOutMv ∨ 800 < r.idleRetMv ∨ 3600 < r.pulseOutMv ∨ 3600 < r.pulseRetMv)

/-- Whether a sample finds the loop open or faulted, with the draw that the band of R54 takes. -/
def State.judgeLoop (r : TamperReading) (s : State) : Bool × State :=
  if r.fault then (true, s)
  else if r.ohms ≤ 3000 then (false, s)
  else if 5000 ≤ r.ohms then (true, s)
  else
    let (d, s) := s.draw
    (Config.tamperBand d, s)

/-- An alarm recognised in Deep Sleep: the drive wakes and stays in Sealed (R89, Table 18-3). -/
def State.alarmAsleep (s : State) : State :=
  let action := s.sec.action
  let s := (s.awaken 3).event .tamperAlarm action Mode.deepSleep.code 0
  if action = 2 then s.sealErased else s.lock

/-- TAMPER_SAMPLE (R54): the third sample in a row that finds the loop open or faulted raises the alarm. -/
def State.tamperSample (r : TamperReading) (s : State) : State :=
  if s.mode = .off then s
  else
    let (bad, s) := s.judgeLoop r
    if !bad then s.modSec fun k => { k with badSamples := 0, intactSince := some (k.intactSince.getD s.elapsed) }
    else
      let third := decide (s.sec.badSamples = 2)
      let s := s.modSec fun k => { k with badSamples := min 3 (k.badSamples + 1), intactSince := none }
      if !third then s else if s.mode = .deepSleep then s.alarmAsleep else s.alarm

/-- TAMPER_SAMPLE. -/
def execTamperSample (r : TamperReading) (s : State) : Host.Outcome State Fault Refusal := (s.tamperSample r).done

/-! ## The watchdog -/

/-- The period P. -/
def Fused.periodNs (f : Fused) : Nat := ms (16 * 4 ^ f.wdgPeriod)

/-- The opening of the window within a period. -/
def Fused.openNs (f : Fused) : Nat := f.periodNs * f.wdgWindow / 4

/-- What a watchdog expiry that leads to a warm start brings about: `warm`, or with the third within 60 s the escalated path
behind `stop` (R91). -/
def State.watchStarts (env : StartEnv) (stop warm : State → State) (s : State) : State :=
  let recent := s.elapsed :: s.watch.warmAt.filter fun t => s.elapsed < t + secs 60
  let s := s.modWatch fun w => { w with warmAt := recent }
  if recent.length < 3 then warm s
  else
    let s := (stop s).beginEscalated env
    s.event .watchdogEscalation s.watch.escalatedAt.length 0 0

/-- A watchdog expiry during a warm start: it begins again, and it counts like one in a serving state. -/
def State.watchInWarm (path : StartPath) (env : StartEnv) (s : State) : State :=
  match path with
  | .warm | .warmAfterDusk => s.watchStarts env State.abortJobs (State.restartWarm .watchdog env)
  | .cold | .escalated | .activation => s.restartWarm .watchdog env

/-- The watchdog expires (R444, R446): `violator` is the slot whose check-in violated. -/
def State.watchExpires (violator : Option Nat) (env : StartEnv) (s : State) : State :=
  let missed := (List.range 8).filter fun n => !s.watch.checked.contains n || decide (violator = some n)
  let n := min 0xFFFF (s.watch.resetCount + 1)
  let s := s.modWatch fun w => { w with lastMissed := slotMap missed, resetCount := n }
  let s := s.event .watchdogExpiry (slotMap missed) n 0
  match s.mode, s.start.run with
  | .coldStart, some r => (s.abortJobs.stopWatch.beginRun .cold r.source (min r.step 8) env).runStart
  | .warmStart, some r => (s.watchInWarm r.path env).runStart
  | _, _ => (s.watchStarts env State.orderlyStop (State.beginWarm .watchdog env)).runStart

/-- The boot ROM runs, and makes every check-in: in Rescue, and in a start before step 10 (R442, Table 17-7). -/
def State.bootRom (s : State) : Bool :=
  match s.mode, s.start.run with
  | .rescue, _ => true
  | _, some r => decide (r.path ≠ .activation ∧ r.step ≤ 10)
  | _, none => false

/-- The slots that an activity checks in (R147): those that `WDG_TASKn_ACT` assigns to it, where 0x00 stands for the watchdog
service itself; while the boot ROM runs, every slot by the service and none by an activity. -/
def State.slotsOf (activity : Nat) (s : State) : List Nat :=
  if s.bootRom then if activity = 0 then List.range 8 else []
  else (List.range 8).filter fun n => s.cfg.inUse.watchdog.tasks.getD n 0 = activity

/-- The check-ins of some slots, one after the other, up to the first that violates (R443, R444). -/
def State.checkSlots (env : StartEnv) : List Nat → State → State
  | [], s => s
  | n :: rest, s =>
    let t := s.elapsed - s.watch.periodAt
    if t < s.fused.openNs ∨ s.watch.checked.contains n = true then s.watchExpires (some n) env
    else if s.fused.periodNs + 40 ≤ t then s.watchExpires none env
    else
      let checked := n :: s.watch.checked
      if checked.length < 8 then State.checkSlots env rest (s.modWatch fun w => { w with checked := checked })
      else s.modWatch fun w => { w with checked := [], periodAt := s.elapsed + 40 }

/-- WATCHDOG_CHECK_IN (R443, R444): an activity of Table 6-13 checks in. -/
def State.checkIn (activity : Nat) (env : StartEnv) (s : State) : State :=
  if s.watch.running then s.checkSlots env (s.slotsOf activity) else s

/-- WATCHDOG_CHECK_IN. -/
def execWatchdogCheckIn (activity : Nat) (env : StartEnv) (s : State) : Host.Outcome State Fault Refusal := (s.checkIn activity env).done

/-- WATCHDOG_EXPIRY (R444): the end of P with a slot that has not checked in. -/
def State.watchRunsOut (env : StartEnv) (s : State) : State :=
  if s.watch.running then (s.waitUntil (s.watch.periodAt + s.fused.periodNs)).watchExpires none env else s

/-- WATCHDOG_EXPIRY. -/
def execWatchdogExpiry (env : StartEnv) (s : State) : Host.Outcome State Fault Refusal := (s.watchRunsOut env).done

/-! ## Test access port (IEEE 1149.1) -/

/-- The TAP controller's next state on a rising edge of TCK. -/
def TapState.next (tms : Bool) : TapState → TapState
  | .reset => if tms then .reset else .idle
  | .idle => if tms then .selectDr else .idle
  | .selectDr => if tms then .selectIr else .captureDr
  | .captureDr => if tms then .exit1Dr else .shiftDr
  | .shiftDr => if tms then .exit1Dr else .shiftDr
  | .exit1Dr => if tms then .updateDr else .pauseDr
  | .pauseDr => if tms then .exit2Dr else .pauseDr
  | .exit2Dr => if tms then .updateDr else .shiftDr
  | .updateDr => if tms then .selectDr else .idle
  | .selectIr => if tms then .reset else .captureIr
  | .captureIr => if tms then .exit1Ir else .shiftIr
  | .shiftIr => if tms then .exit1Ir else .shiftIr
  | .exit1Ir => if tms then .updateIr else .pauseIr
  | .pauseIr => if tms then .exit2Ir else .pauseIr
  | .exit2Ir => if tms then .updateIr else .shiftIr
  | .updateIr => if tms then .selectDr else .idle

/-- A number read from bits, the bit nearest TDO first. -/
def natOfBits : List Bool → Nat
  | [] => 0
  | b :: bs => bitOf b + 2 * natOfBits bs

/-- The instruction that a shifted-in value selects; the encodings are open. -/
def tapInstr (v : Nat) : TapInstr :=
  match Config.tapDecode v with
  | 0 => .bypass
  | 1 => .idcode
  | 2 => .sample
  | 3 => .extest
  | n => .debug n

/-- The data register that an instruction captures. -/
def TapInstr.capture (draw : Nat) : TapInstr → List Bool
  | .bypass => [false]
  | .idcode => (List.range 32).map Config.idcodeBit
  | .sample => (List.range Config.boundaryLength).map (Config.boundaryCell draw)
  | .extest => (List.range Config.boundaryLength).map (Config.boundaryCell draw)
  | .debug _ => [Config.debugShift draw]

/-- What the controller's state does on the rising edge that ends it: capture and shift. -/
def Tap.rise (draw : Nat) (tms tdi : Bool) (t : Tap) : Tap :=
  let t := match t.state with
    | .captureDr => { t with dr := t.instr.capture draw }
    | .shiftDr => { t with dr := t.dr.drop 1 ++ [tdi] }
    | .captureIr => { t with ir := true :: List.replicate (Config.irLength - 1) false }
    | .shiftIr => { t with ir := t.ir.drop 1 ++ [tdi] }
    | _ => t
  { t with state := t.state.next tms }

/-- What happens on a falling edge: TDO changes, and the update states take effect. -/
def Tap.fall (t : Tap) : Tap :=
  match t.state with
  | .reset => { t with instr := .idcode, tdo := none }
  | .shiftDr => { t with tdo := t.dr.head? }
  | .shiftIr => { t with tdo := t.ir.head? }
  | .updateIr => { t with instr := tapInstr (natOfBits t.ir), tdo := none }
  | .updateDr => { t with tdo := none, cells := match t.instr with
      | .extest | .sample => t.dr
      | .bypass | .idcode | .debug _ => t.cells }
  | _ => { t with tdo := none }

/-- TCK_EDGE (R57): before release the TAP ignores TCK, TMS and TDI. -/
def State.tckEdge (rising tms tdi : Bool) (s : State) : State :=
  if !s.start.scanReleased then s
  else if rising then
    let (d, s) := s.draw
    s.modStart fun x => { x with tap := x.tap.rise d tms tdi }
  else s.modStart fun x => { x with tap := x.tap.fall }

/-- TCK_EDGE. -/
def execTckEdge (rising tms tdi : Bool) (s : State) : Host.Outcome State Fault Refusal := (s.tckEdge rising tms tdi).done

/-- TRST_N_LOW (R57). -/
def execTrstNLow (s : State) : Host.Outcome State Fault Refusal := (s.modStart fun x => { x with tap := {} }).done

/-! ## The backstop (R509) -/

/-- A request ended by the backstop: a segmented write is cut at what is staged of it (R309). -/
def State.endOverdue (e : Sess) (f : Flight) (s : State) : State :=
  match f.work, e.assembling.find? fun a => a.admitted && a.msgId = f.msgId with
  | .segmented .., some a => s.cutWrite e a 0x7F 0 0 0
  | _, _ => s.stopFlight 0x7F 0 e f

/-- BACKSTOP_EXPIRY: a request in flight 10 s after its admission ends with INTERNAL and releases its lock. A write past its
commit point keeps its effect. The time for which a start closes the gate is not counted (R498), so that none ends in one. -/
def State.backstop (sid msgId : Nat) (s : State) : State :=
  if s.mode = .warmStart ∨ s.mode = .dusk then s else
  match s.ses.find sid with
  | none => s
  | some e => match e.flight msgId with
    | none => s
    | some f =>
      let s := s.waitUntil (f.admittedAt + secs 10)
      let s := (s.dropOps fun p => p = .held sid msgId).eventFor (some ((f.ask e).ref 0x7F 0)) .internal 0x201 msgId e.tenant
      (s.endOverdue e f).settleCloses

/-- BACKSTOP_EXPIRY. -/
def execBackstopExpiry (sid msgId : Nat) (s : State) : Host.Outcome State Fault Refusal := (s.backstop sid msgId).done

end Sys2Proof.Machine
end

