-- ==== Sys2Proof/Machine/Bank.lean ====
section
/-!
DEFINITION. The bank's samples, its test and its classes (R78, R81 to R85), the regulator array's samples (R404 to R424), and
the conditions and the history of the junction (R26, R336).
-/
namespace Sys2Proof.Machine

/-- The drive is powered and neither off nor in Dusk. -/
def State.alive (s : State) : Bool := decide (s.mode ≠ .off ∧ s.mode ≠ .dusk)

/-! ## The junction (Table 1-3) -/

/-- A temperature as an event's parameter. -/
def tempParam (j : Int) : Nat := (j % 4294967296).toNat

/-- Deadline risk entered: junction at or above 103 °C, or pace short for 100 µs. -/
def State.riskEntered (j : Int) (s : State) : State :=
  if s.power.deadlineRisk then s
  else ((s.modPower fun p => { p with deadlineRisk := true }).modAdmin fun a =>
    { a with deadlineRiskCount := inc32 a.deadlineRiskCount }).event .deadlineRisk (if 1030 ≤ j then 1 else 2) (tempParam j) 0

/-- Pace short: CH0 stands at 0.90 V and the measured pace is still below the one required (Table 1-3). -/
def State.paceIsShort (below : Bool) (s : State) : Bool := below && decide (s.reg.vcoreMv = 900)

/-- The regulator array is sampled: its samples are taken on the reference clock (R23). -/
def State.sampled (s : State) : Bool := s.power.referencePresent && decide (s.mode ≠ .off)

/-- DEADLINE_RISK. -/
def State.risk (j : Int) (pace : Bool) (s : State) : State :=
  if !s.alive then s
  else
    let short := s.paceIsShort pace
    let s := (s.noteJunction j).modPower fun p => { p with paceShort := short }
    if 1030 ≤ j ∨ short = true then s.riskEntered j else s

/-- DEADLINE_RISK (R26). -/
def execDeadlineRisk (j : Int) (pace : Bool) (s : State) : Host.Outcome State Fault Refusal := (s.risk j pace).done

/-- DEADLINE_LAPSE: junction above 105 °C, or pace short for 1 ms. -/
def State.lapse (j : Int) (pace : Bool) (s : State) : State :=
  let short := s.paceIsShort pace
  let s := s.risk j pace
  if s.alive ∧ (1050 < j ∨ short = true) ∧ s.power.deadlineLapse = false then
    (s.modPower fun p => { p with deadlineLapse := true }).event .deadlineLapse (if 1050 < j then 1 else 2) (tempParam j) 0
  else s

/-- DEADLINE_LAPSE (R26). -/
def execDeadlineLapse (j : Int) (pace : Bool) (s : State) : Host.Outcome State Fault Refusal := (s.lapse j pace).done

/-- DEADLINE_RISK_CLEARED: 1 s at or below 101 °C with pace not short. -/
def State.riskCleared (j : Int) (s : State) : State :=
  if !s.alive ∨ 1010 < j ∨ s.power.deadlineRisk = false then s
  else ((s.noteJunction j).modPower fun p => { p with deadlineRisk := false, deadlineLapse := false, paceShort := false }).event
    .deadlineRiskCleared 0 0 0

/-- DEADLINE_RISK_CLEARED (R26). -/
def execDeadlineRiskCleared (j : Int) (s : State) : Host.Outcome State Fault Refusal := (s.riskCleared j).done

/-- TEMPERATURE_HISTORY_INTERVAL (R336): 15 min of powered time have passed since the last ones, with this mean junction. -/
def State.historyInterval (mean : Int) (s : State) : State :=
  if s.mode = .off then s
  else
    let s := s.waitUntil (s.elapsed + (s.admin.recentAt + secs 900 - s.powered))
    s.modAdmin fun a => { a with
      recent := (mean :: a.recent).take 96
      recentAt := s.powered
      binNs := s.binsNow
      binAt := s.powered
      tMinLife := min a.tMinLife mean
      tMaxLife := max a.tMaxLife mean }

/-- TEMPERATURE_HISTORY_INTERVAL. -/
def execTemperatureHistoryInterval (mean : Int) (s : State) : Host.Outcome State Fault Refusal := (s.historyInterval mean).done

/-! ## Bank classes (Table 3-6) -/

/-- The class of a measured capacitance in µF and an ESR in mΩ. -/
def classify (uf esr : Nat) : BankClass :=
  if uf ≤ 451 ∨ 500 < esr then .failed else if uf ≤ 1284 then .degraded else if uf ≤ 1503 then .worn else .healthy

/-- The event at entry to a class. -/
def BankClass.event : BankClass → Option EventCode
  | .healthy => none
  | .worn => some .bankWorn
  | .degraded => some .bankDegraded
  | .failed => some .bankFailed

/-- A class result: its event when it differs from the class held, and the condition bits of the classes left (R85, R331). -/
def State.setClass (c : BankClass) (a uf esr : Nat) (s : State) : State :=
  let old := s.power.bankClass
  let s := s.modPower fun p => { p with bankClass := c }
  let s := if c = .degraded then s else s.unlatch 0
  let s := if c = .failed ∨ s.power.ch1Failed = true then s else s.unlatch 1
  if c = old then s else match c.event with
    | some ev => s.event ev a uf esr
    | none => s

/-! ## The bank test (R84, R85) -/

/-- The preconditions of a test. -/
def State.testAllowed (s : State) : Bool :=
  let level := decide (s.mode = .readyRead ∨ s.mode = .ready ∨ s.mode = .overcast)
  let full := match s.power.fullSince with
    | some t => decide (t + secs 10 ≤ s.elapsed)
    | none => false
  level && full && s.fw.activation.isNone && s.fw.graft.isNone

/-- The mean of the last 8 bank samples, in whole mV (notes/assumptions/24.md). -/
def PowerState.meanMv (p : PowerState) : Nat := natSum p.bankMv / max 1 p.bankMv.length

/-- BANK_TEST_START: the scheduled test begins, or is tried again 10 min later. -/
def State.testStart (s : State) : State :=
  match s.power.testDue with
  | none => s
  | some t =>
    let s := s.waitUntil t
    if s.testAllowed then
      (s.modReg fun r => { r with ch1 := r.ch1.stop1 }).modPower fun p => { p with test := some (p.meanMv, s.elapsed), testDue := none }
    else s.modPower fun p => { p with testDue := some (s.elapsed + secs 600) }

/-- BANK_TEST_START (R84). -/
def execBankTestStart (s : State) : Host.Outcome State Fault Refusal := s.testStart.done

/-- A test over: its record and event, the class, the next test, and charging again. -/
def State.testEnds (r : TestRecord) (c : BankClass) (s : State) : State :=
  let a := c.code + r.result * 256
  let s := s.modPower fun p => { p with
    test := none
    tests := (r :: p.tests).take 16
    testDue := some (s.elapsed + (if c = .failed then secs 3600 else secs 86400)) }
  let s := (s.event .bankTest a r.uf r.esr).setClass c a r.uf r.esr
  s.resumeCharge.leaveReady

/-- BANK_TEST_COMPLETE: the step across the first 20 µs in mV, and the time of the fall in µs. V1 as a whole mV and the
capacitance as a whole µF are rounded down (DESIGN CHOICE, notes/assumptions/24.md). -/
def State.testComplete (stepMv fallUs : Nat) (s : State) : State :=
  match s.power.test with
  | none => s
  | some (v1, start) =>
    if 200000 < fallUs then s
    else
      let uf := fallUs / 30
      let esr := stepMv * 10
      let c := classify uf esr
      let s := (s.waitUntil (start + fallUs * 1000)).modPower fun p => { p with cMeasuredUf := uf, esrMohm := esr }
      s.testEnds ⟨s.timeNow, 0, c.code, uf, esr, fallUs, v1⟩ c

/-- BANK_TEST_COMPLETE (R85). -/
def execBankTestComplete (stepMv fallUs : Nat) (s : State) : Host.Outcome State Fault Refusal := (s.testComplete stepMv fallUs).done

/-- BANK_TEST_TIMEOUT: a test fault, which makes the class failed. -/
def State.testTimeout (s : State) : State :=
  match s.power.test with
  | none => s
  | some (v1, start) =>
    let s := s.waitUntil (start + ms 200)
    s.testEnds ⟨s.timeNow, 1, 0xFF, 0, 0, 200000, v1⟩ .failed

/-- BANK_TEST_TIMEOUT (R84). -/
def execBankTestTimeout (s : State) : Host.Outcome State Fault Refusal := s.testTimeout.done

/-- BANK_CHARGE_JUDGED (R85): the bank at 44.5 V passes; 4 s of charging time below it make the class failed. -/
def State.chargeJudged (bankMv : Nat) (s : State) : State :=
  match s.power.chargeUs with
  | none => s
  | some n =>
    if !s.reg.ch1.running then s
    else if 44500 ≤ bankMv then s.modPower fun p => { p with chargeUs := none }
    else
      let s := (s.waitUntil (s.elapsed + (4000000 - n) * 1000)).modPower fun p => { p with
        chargeUs := none
        testDue := some (min (p.testDue.getD (s.elapsed + secs 3600)) (s.elapsed + secs 3600)) }
      (s.setClass .failed BankClass.failed.code s.power.cMeasuredUf s.power.esrMohm).leaveReady

/-- BANK_CHARGE_JUDGED. -/
def execBankChargeJudged (bankMv : Nat) (s : State) : Host.Outcome State Fault Refusal := (s.chargeJudged bankMv).done

/-! ## CH0 and CH1 -/

/-- The event of an oscillation (R422). -/
def State.oscillated (ch : Nat) (o : OscEvent) (s : State) : State :=
  match o with
  | .none => s
  | .first => s.event .regulatorOscillation ch 0 0
  | .again => s.event .regulatorOscillation ch 0 0

/-- The target of CH0's set-point, in Q16. -/
def State.paceTarget (s : State) : Int := 65536 * (100 + (s.cfg.inUse.regulator.paceMarginPct : Int)) / 100

/-- CH0_SAMPLE (R408, R409): the pace ratio in Q16. -/
def State.sampleCh0 (pace : Int) (s : State) : State :=
  if !s.alive ∨ s.sampled = false ∨ s.reg.ch0.running = false then s
  else
    let (c, o) := s.reg.ch0.sample0 s.reg.ch0Written pace s.paceTarget
    let oscHold := s.reg.ch0OscHold || o == OscEvent.first
    let held := s.reg.ch0Held || oscHold
    (s.modReg fun r => { r with
      ch0 := c, ch0Held := held, ch0OscHold := oscHold, vcoreMv := if held then 900 else q16ToMv c.output }).oscillated 0 o

/-- CH0_SAMPLE. -/
def execCh0Sample (pace : Int) (s : State) : Host.Outcome State Fault Refusal := (s.sampleCh0 pace).done

/-- A bank sample as the ledger, the charging count and the limit of 47.0 V take it. -/
def State.noteBank (mv : Nat) (s : State) : State :=
  let counts := s.charging
  let s := s.modPower fun p => { p with
    bankMv := (mv :: p.bankMv).take 8
    chargeUs := if counts then p.chargeUs.map (· + 4) else p.chargeUs }
  let s := s.modReg fun r => { r with overcharge := decide (47000 ≤ mv) }
  let s := if 320000 ≤ s.avail then s.modJournal fun j => { j with bankHold := false } else s
  s.modPower fun p => { p with fullSince := if s.fullyCharged then some (p.fullSince.getD s.elapsed) else none }

/-- The second oscillation of CH1: it stops until the next cold start, and the bank counts as failed (R422), so no longer as
degraded (R331). -/
def State.ch1Fails (s : State) : State :=
  let was := s.bankClass
  let s := (s.modReg fun r => { r with ch1Stopped := true, ch1 := r.ch1.stop1 }).modPower fun p => { p with ch1Failed := true }
  let s := s.unlatch 0
  let s := if was = .failed then s else s.event .bankFailed BankClass.failed.code s.power.cMeasuredUf s.power.esrMohm
  s.leaveReady

/-- The mode of the rate estimator (R423). -/
def State.rateModeNow (s : State) : RateMode :=
  if s.charging then .charging else if s.power.test.isSome ∨ s.power.inputSwitch = false then .discharging else .standstill

/-- The hardware's mode as the rate estimator follows it (R424). -/
def State.noteRate (s : State) : State := s.modReg (RegState.noteRate s.elapsed s.rateModeNow)

/-- One CH1 sample of a running charger (R410, R411, R422). -/
def State.chargeSample (mv : Nat) (s : State) : State :=
  let (c, o) := s.reg.ch1.sample1 (mvToQ16 mv)
  let s := (s.modReg fun r => { r with ch1 := c }).oscillated 1 o
  if o = .again then s.ch1Fails else s

/-- CH1_SAMPLE (R410, R411): the bank voltage in mV. -/
def State.sampleCh1 (mv : Nat) (s : State) : State :=
  if !s.alive ∨ s.sampled = false then s
  else
    let s := s.noteBank mv
    (if s.reg.ch1.running then s.chargeSample mv else s).noteRate

/-- CH1_SAMPLE. -/
def execCh1Sample (mv : Nat) (s : State) : Host.Outcome State Fault Refusal := (s.sampleCh1 mv).done

/-! ## Windbreak loops -/

/-- CH2's measurement: the ledger credit in mJ, Q16. -/
def State.creditQ16 (s : State) : Int := sat32 (((s.avail : Int) - needUj s.staged) * 65536 / 1000)

/-- CH4's measurement: the free level in % of W, Q16. -/
def State.freeQ16 (s : State) : Int := if s.media.inService = 0 then 0 else (s.free * 6553600 / s.media.inService : Nat)

/-- The four loops after one sample, with what each of them reports. -/
def State.loopsSampled (junction pace : Int) (s : State) : RegState × List (Nat × OscEvent) :=
  let r := s.reg.settleBuckets s.elapsed
  let c := s.cfg.inUse
  let (c2, o2) := r.ch2.sample loop2 s.creditQ16 ((c.regulator.energyKneeMj : Int) * 65536) c.regulator.gainScale2
  let (c3, o3) := r.ch3.sample loop3 (junction * 65536 / 10) ((c.thermalSetpointC : Int) * 65536) c.regulator.gainScale3
  let (c4, o4) := r.ch4.sample loop4 s.freeQ16 ((c.media.fgFreePct : Int) * 65536) c.regulator.gainScale4
  let (c5, o5) := r.ch5.sample5 r.ch0Written r.ch0.ramp.value pace c.regulator.gainScale5
  ({ r with ch2 := c2, ch3 := c3, ch4 := c4, ch5 := c5 }, [(2, o2), (3, o3), (4, o4), (5, o5)])

/-- WINDBREAK_LOOP_SAMPLE (R413 to R416): the junction in 0.1 °C, and the mean pace ratio of the period in Q16. -/
def State.sampleLoops (junction pace : Int) (s : State) : State :=
  if !s.alive ∨ s.sampled = false ∨ s.reg.ch2.running = false then s
  else
    let s := s.noteJunction junction
    let r := s.loopsSampled junction pace
    (r.2.foldl (fun s o => s.oscillated o.1 o.2) (s.modReg fun _ => r.1)).stirSegments

/-- WINDBREAK_LOOP_SAMPLE. -/
def execWindbreakLoopSample (junction pace : Int) (s : State) : Host.Outcome State Fault Refusal := (s.sampleLoops junction pace).done

/-- RATE_ESTIMATOR_SAMPLE (R423, R424): the mean of the bank samples of a millisecond, in mV. -/
def State.sampleRate (mv : Nat) (s : State) : State :=
  if !s.sampled then s else s.noteRate.modReg (RegState.estimate s.power.cMeasuredUf mv)

/-- RATE_ESTIMATOR_SAMPLE. -/
def execRateEstimatorSample (mv : Nat) (s : State) : Host.Outcome State Fault Refusal := (s.sampleRate mv).done

end Sys2Proof.Machine
end

