-- ==== Sys2Proof/Machine/Admin.lean ====
section
/-!
DEFINITION. Administration and security opcodes (R321 to R328, R340 to R343, R461 to R464): their checks at admission, and
their results, which are formed and take effect at the selection of the frame that carries them (R323).
-/
namespace Sys2Proof.Machine

/-! ## Asking -/

/-- The operation that a body asks for. -/
def ReqBody.adminOp (opcode : Nat) (p : ReqBody) : AdminOp := ⟨opcode, p.param16, p.versionCond, p.a, p.b, p.data, false⟩

/-- The message that will carry an administrative result is queued. -/
def State.sayAdmin (a : Ask) (op : AdminOp) (s : State) : State :=
  let late := a.token.isSome
  s.say a.sid a.rx a.admitAt
    { kind := if late then 0x12 else 0x11, gen := a.gen, tenant := a.tenant, session := a.sid, msgId := a.msgId, alive := a.alive
      opcode := a.opcode, aliveGap := a.gap && !late, body := .admin op a.admitAt (a.token.getD 0), ends := true, reqTotal := a.bodyTotal }

/-- A request whose work goes on: on LY3 its first answer is HELD (R321). The request as its result will need it. -/
def State.startWork (a : Ask) (s : State) : Ask × State :=
  let s := s.hold a .admin false
  (if a.gen = 3 then { a with token := some s.ses.lastToken } else a, s)

/-- A request whose result is ready to be selected. -/
def State.askAdmin (a : Ask) (op : AdminOp) (s : State) : State :=
  let (a, s) := s.startWork a
  s.sayAdmin a op

/-- The checks of row 8 of Table 9-7 that every administrative request meets first: its tenant, and its key (R211, R321). -/
def adminBad (a : Ask) (p : ReqBody) : Option Refused :=
  firstOf [refuseIf (decide (a.tenant ≠ 0)) 0x41 6, refuseIf (decide (p.keyLen ≠ 0)) 0x13 1, refuseIf (!p.whole) 0x13 2]

/-- The largest LENGTH of a generation (R321). -/
def lengthMost (gen : Nat) : Nat := if gen = 2 then 65536 else 1416

/-- A result: its status, its reason, its body, and the state after its effect. -/
structure Formed where
  status : Nat
  reason : Nat
  body : AnswerBody
  state : State

/-- A refusal or failure that changes nothing. -/
def refused (r : Refused) (version : Nat) (s : State) : Formed := ⟨r.1, r.2, { version := version }, s⟩

/-- OK with RESULT32, and VERSION where the opcode gives one. -/
def formedOk (result version : Nat) (s : State) : Formed := ⟨0, 0, { result := result, version := version }, s⟩

/-! ## What each opcode finds and does -/

/-- Bytes OFFSET to OFFSET + n − 1 of some data (R322). -/
def window (off len : Nat) (b : Bytes) : Bytes := slice off len b

/-- What GET_LOG reads: the bytes and the SNAPSHOT_ID, or the refusal with its VERSION (R326). -/
def State.readLog (sid page id : Nat) (s : State) : Except (Refused × Nat) (Bytes × Nat) :=
  match s.logPage page with
  | none => .error ((0x13, 2), 0)
  | some live =>
    if id = 0 then (if page = 0x05 then .error ((0x13, 2), 0) else .ok (live, 0))
    else match s.snapshotOf sid page with
      | some x => if x.id = id then .ok (x.bytes, id) else .error ((0x11, 0), x.id)
      | none => .error ((0x11, 0), 0)

/-- A 32-bit two's complement result. -/
def result32 (v : Int) : Nat := (v % 4294967296).toNat

/-- Conditions of Table 3-7; the lowest code. -/
def State.sleepRefused (s : State) : Option Nat :=
  let ly3 := s.ses.sessions.any fun e => e.gen = 3 && e.phase.isOpen
  let level := decide (s.mode = .readyRead ∨ s.mode = .ready ∨ s.mode = .overcast)
  let trial := match s.fw.commit.confirm with
    | .trial _ => true
    | .none | .confirmed => false
  let update := s.fw.download.isSome || s.fw.graft.isSome || s.fw.activation.isSome || s.fw.fallbackDue.isSome || trial
  if ly3 then some 1
  else if !level then some 2
  else if update then some 3
  else if !s.fullyCharged ∨ s.bankClass = .failed then some 4
  else if !s.ses.held.isEmpty ∨ !s.ses.waiting.isEmpty then some 5
  else none

/-- The open session that CLOSE_SESSION names. -/
def State.closable (id : Nat) (s : State) : Bool :=
  match s.ses.find id with
  | some e => e.phase.isOpen
  | none => false

/-- What row 8 of Table 9-7 finds wrong with a request of Table 13-1 at its admission (R321, R322, R343). What depends on the
requests before it is judged at its selection (R323, R340). -/
def State.opLimits (gen : Nat) (op : AdminOp) (s : State) : Option Refused :=
  match op.opcode with
  | 0x80 => refuseIf (decide (lengthMost gen < op.b)) 0x12 1
  | 0x81 => firstOf [refuseIf (decide (lengthMost gen < op.b)) 0x12 1,
      refuseIf ((s.logPage op.param16).isNone || decide (op.param16 = 0x05 ∧ op.versionCond = 0)) 0x13 2]
  | 0x82 => refuseIf (s.logPage op.param16).isNone 0x13 2
  | 0x84 | 0x85 => refuseIf (feature s.fused.part op.param16 op.a).isNone 0x13 2
  | 0x88 => refuseIf (decide (1 < op.a)) 0x13 2
  | 0x8A => refuseIf (!s.closable op.param16) 0x13 2
  | _ => none

/-- Row 9 for an opcode of Table 13-1 at its admission (R86, R87). -/
def State.opState (op : AdminOp) (s : State) : Option Refused :=
  firstOf [s.readRefused, if op.opcode = 0x89 then s.sleepRefused.map fun r => (0x31, r) else none]

/-- What an opcode of Table 13-1 finds wrong with its request at its selection. -/
def State.opRefused (sid gen : Nat) (op : AdminOp) (s : State) : Option (Refused × Nat) :=
  let plain (o : Option Refused) : Option (Refused × Nat) := o.map fun r => (r, 0)
  match op.opcode with
  | 0x80 => plain (refuseIf (decide (lengthMost gen < op.b)) 0x12 1)
  | 0x81 =>
    if lengthMost gen < op.b then some ((0x12, 1), 0)
    else match s.readLog sid op.param16 op.versionCond with
      | .error e => some e
      | .ok _ => none
  | 0x82 => plain (refuseIf (s.logPage op.param16).isNone 0x13 2)
  | 0x84 => plain (refuseIf (feature s.fused.part op.param16 op.a).isNone 0x13 2)
  | 0x85 => match feature s.fused.part op.param16 op.a with
    | none => some ((0x13, 2), 0)
    | some f => plain (refuseIf (f.set op.b s.cfg.inUse).isNone 0x12 1)
  | 0x88 => plain (refuseIf (decide (1 < op.a)) 0x13 2)
  | 0x89 => plain (s.sleepRefused.map fun r => (0x31, r))
  | 0x8A => plain (refuseIf (!s.closable op.param16) 0x13 2)
  | _ => none

/-- IDENTIFY at its selection. -/
def State.formIdentify (op : AdminOp) (s : State) : Formed := ⟨0, 0, { result := 192, data := window op.a op.b s.identifyData }, s⟩

/-- GET_LOG at its selection. -/
def State.formGetLog (sid : Nat) (op : AdminOp) (s : State) : Formed :=
  match s.readLog sid op.param16 op.versionCond with
  | .error (r, v) => refused r v s
  | .ok (b, id) => ⟨0, 0, { version := id, result := b.length, data := window op.a op.b b }, s⟩

/-- LOG_SNAPSHOT at its selection: the page is frozen and reset in one step (R323, R327, R328). -/
def State.formSnapshot (sid : Nat) (op : AdminOp) (s : State) : Formed :=
  match s.logPage op.param16 with
  | none => refused (0x13, 2) 0 s
  | some b =>
    let (id, s) := s.takeSnapshot sid op.param16 b
    formedOk b.length id (s.snapshotResets op.param16)

/-- GET_FEATURE at its selection. -/
def State.formGetFeature (op : AdminOp) (s : State) : Formed :=
  match feature s.fused.part op.param16 op.a with
  | none => refused (0x13, 2) 0 s
  | some f => formedOk (result32 (f.get s.cfg.inUse)) (f.get s.cfg.image % 18446744073709551616).toNat s

/-- SET_FEATURE at its selection. -/
def State.formSetFeature (op : AdminOp) (s : State) : Formed :=
  match feature s.fused.part op.param16 op.a with
  | none => refused (0x13, 2) 0 s
  | some f => match f.set op.b s.cfg.inUse with
    | none => refused (0x12, 1) 0 s
    | some (v, c) => formedOk (result32 v) 0 ((s.modCfg fun x => { x with inUse := c }).featureApplied s.cfg.inUse op.param16 op.a)

/-- DEEP_SLEEP at its selection: entry is under way (R87). -/
def State.formSleep (s : State) : Formed :=
  match s.sleepRefused with
  | some r => refused (0x31, r) 0 s
  | none => formedOk 0 0 (s.abortTest.modPower fun p => { p with sleep := .entering s.mode })

/-- CLEAR_FAULTS at its selection: bits 4 to 15 are clearable (Table 13-5). -/
def State.formClear (op : AdminOp) (s : State) : Formed :=
  let s := s.modLog fun l => { l with latched := l.latched &&& ~~~ (BitVec.ofNat 32 op.a &&& 0x0000FFF0) }
  formedOk s.log.latched.toNat 0 s

/-! ## Security opcodes (Table 18-5) -/

/-- The loop has been intact for at least 1 s. -/
def State.loopSettled (s : State) : Bool :=
  match s.sec.intactSince with
  | some t => decide (t + secs 1 ≤ s.elapsed)
  | none => false

/-- RESULT32 of SEC_STATUS. -/
def State.secStatus (s : State) : Nat :=
  let factory := decide (s.mode = .rescue) || s.start.scanReleased || (match s.sec.installed.getD 0 none, s.sec.site with
    | none, none => true
    | _, _ => false)
  bitsOf [decide (s.servingMode = .sealed), s.sec.lockFlag, s.sec.site.isSome, factory, s.start.scanReleased,
    decide (s.sec.badSamples = 0)] + 256 * s.sec.action

/-- The credential that SEC_SET_CREDENTIAL carries, under the requesting session's key (R464). -/
def openCredential (kH2d : Bytes) (tenant msgId : Nat) (data : Bytes) : Option Bytes :=
  if data.length ≠ 60 then none
  else match gcmOpen (credentialKey kH2d) (data.take 12) (beBytes 1 tenant ++ beBytes 4 msgId) (slice 12 32 data) (slice 44 16 data) with
    | none => none
    | some c => if c = zeros 32 then none else some c

/-- What a security opcode finds wrong with its request now. -/
def State.secRefused (kH2d : Bytes) (msgId : Nat) (op : AdminOp) (s : State) : Option (Refused × Nat) :=
  let plain (o : Option Refused) : Option (Refused × Nat) := o.map fun r => (r, 0)
  match op.opcode with
  | 0xA1 => plain (refuseIf (decide (s.servingMode = .sealed) && (!s.loopSettled || s.start.scanReleased)) 0x42 1)
  | 0xA2 => plain (firstOf [refuseIf (decide (7 < op.param16)) 0x13 2,
      refuseIf (openCredential kH2d op.param16 msgId op.data).isNone 0x51 3])
  | 0xA3 => plain (refuseIf (decide (7 < op.param16)) 0x13 2)
  | 0xA4 => plain (refuseIf (decide (op.param16 = 0 ∨ 7 < op.param16)) 0x13 2)
  | _ => none

/-- The pin cache filled again after a lock: each pin whose key is present holds its newest version. -/
def State.refillPins (s : State) : State :=
  s.modStore fun x => { x with pins := x.pins.map fun p => { p with loaded := (newest x.keys p.tenant p.key).map Version.num } }

/-- Sealed ended (R461): the lock flag, the data keys, and the state of Table 4-5. -/
def State.unlockDrive (s : State) : State :=
  let s := (s.modSec fun k => { k with
    lockFlag := false, lockDrain := false, erased := false, dkOpen := k.dk.map Option.isSome }).event .unlocked 0 0 0
  let s := (s.enter .readyRead).refillPins
  match s.levelAt17 with
  | some m => s.enterTop m
  | none => (s.modStart fun x => { x with awaitingReady := true }).beginSeries .readyRead

/-- SEC_UNLOCK at its selection: RESULT32 is the state code after it. -/
def State.formUnlock (s : State) : Formed :=
  let s := if s.servingMode = .sealed then s.unlockDrive else s
  formedOk s.mode.code 0 s

/-- A tenant's credential in use has changed: it is logged, and its pending handshakes are discarded (R453). -/
def State.credentialChanged (t : Nat) (s : State) : State :=
  let v := ((s.credential t).map Prod.snd).getD 0
  let s := s.event .credentialChanged t v 0
  let gone := s.ses.sessions.filter fun e => e.tenant = t && (match e.phase with
    | .pending _ => true
    | .open | .closing .. | .dropping .. => false)
  gone.foldl (fun s e => s.removeSess e.id) s

/-- SEC_SET_CREDENTIAL at its selection. -/
def State.formSetCredential (kH2d : Bytes) (msgId : Nat) (op : AdminOp) (s : State) : Formed :=
  match openCredential kH2d op.param16 msgId op.data with
  | none => refused (0x51, 3) 0 s
  | some c =>
    let t := op.param16
    let n := s.sec.installs.getD t 0 + 1
    let v := 0x80000000 + n
    let s := s.modSec fun k => { k with installed := k.installed.set t (some (c, v)), installs := k.installs.set t n }
    formedOk v 0 (s.credentialChanged t)

/-- SEC_RESET_CREDENTIAL at its selection. -/
def State.formResetCredential (op : AdminOp) (s : State) : Formed :=
  let t := op.param16
  let s := if (s.sec.installed.getD t none).isSome then
    (s.modSec fun k => { k with installed := k.installed.set t none }).credentialChanged t else s
  formedOk (((s.credential t).map Prod.snd).getD 0) 0 s

/-- Extents of a tenant. -/
def Change.ofTenant (t : Nat) : Change → Bool
  | .put u _ _ => u = t
  | .segment u _ _ _ => u = t
  | .delete u _ => u = t
  | .rangeDelete u _ _ _ _ _ => u = t

/-- Step 2 of Table 18-4 for a tenant: its sessions closed with cause 0x04 and its requests ended without answer. -/
def State.eraseTenantSessions (t : Nat) (s : State) : State :=
  let gone := s.ses.sessions.filter fun e => e.tenant = t
  let quiet (p : PortState) : PortState := { p with epQ := p.epQ.filter fun e => match e.load with
    | .ly m => decide (m.tenant ≠ t)
    | .raw _ | .dawn .. => true }
  let s := (s.modPort .A quiet).modPort .B quiet
  let s := gone.foldl (fun s e =>
    if e.phase.isOpen then
      (s.event .sessionClosed (4 * 2 ^ 24 + t * 2 ^ 16 + e.id) 0 0).say e.id ⟨e.port, e.tag, e.peer, s.timeNs, s.elapsed⟩ s.timeNs
        { kind := 0x05, gen := e.gen, tenant := t, session := e.id, reason := 4 }
    else s) s
  gone.foldl (fun s e => (s.release e.assemblyBytes).removeSess e.id) s

/-- Steps 3 to 5 of Table 18-4 for a tenant: its extents, pins and index entries go, it gets a new DK_t, and a checkpoint is
written. -/
def State.eraseTenantData (t : Nat) (s : State) : State :=
  let gone := (s.store.staging.filter fun x => x.change.ofTenant t).map Extent.id
  let s := s.dropOps fun p => match p with
    | .drain id => gone.contains id
    | _ => false
  let s := s.modStore fun x => { x with
    keys := x.keys.filter fun r => r.tenant ≠ t
    flash := x.flash.filter fun r => r.tenant ≠ t
    staging := x.staging.filter fun e => !e.change.ofTenant t
    pins := x.pins.filter fun p => p.tenant ≠ t
    flashPins := x.flashPins.filter fun p => p.tenant ≠ t }
  let s := s.modMedia fun m => { m with placed := m.placed.filter fun p => p.tenant ≠ t }
  let (k, s) := s.random 64
  (s.modSec fun x => { x with dk := x.dk.set t (some k) }).writeEntry .checkpoint

/-- SEC_ERASE_TENANT at its selection. -/
def State.formErase (op : AdminOp) (s : State) : Formed :=
  formedOk 0 0 ((s.eraseTenantSessions op.param16).eraseTenantData op.param16)

/-- A security opcode at its selection. -/
def State.formSecurity (kH2d : Bytes) (msgId : Nat) (op : AdminOp) (s : State) : Formed :=
  match s.secRefused kH2d msgId op with
  | some (r, v) => refused r v s
  | none => match op.opcode with
    | 0xA0 => formedOk s.secStatus ((s.sec.site.map Prod.snd).getD 0) s
    | 0xA1 => s.formUnlock
    | 0xA2 => s.formSetCredential kH2d msgId op
    | 0xA3 => s.formResetCredential op
    | 0xA4 => s.formErase op
    | _ => formedOk 0 0 s

/-- An opcode of Table 13-1 at its selection. RESTART and CLOSE_SESSION act after it. -/
def State.formPlain (sid gen : Nat) (op : AdminOp) (s : State) : Formed :=
  match s.opRefused sid gen op with
  | some (r, v) => refused r v s
  | none => match op.opcode with
    | 0x80 => s.formIdentify op
    | 0x81 => s.formGetLog sid op
    | 0x82 => s.formSnapshot sid op
    | 0x84 => s.formGetFeature op
    | 0x85 => s.formSetFeature op
    | 0x89 => s.formSleep
    | 0x8C => s.formClear op
    | _ => formedOk 0 0 s

/-! ## What follows a selection -/

/-- The cold option of RESTART (Table 4-1, R341): an orderly stop, both PHYs held in reset for 10 ms, and the cold path. -/
def State.restartCold (s : State) : State :=
  let env := s.start.nextEnv
  let s := s.orderlyStop
  ((s.waitUntil (s.elapsed + ms 10)).beginCold .restartCold env).runStart

/-- What an opcode brings about once its OK has been selected; `was` are the credentials installed before it. -/
def State.afterPlain (was : List (Option (Bytes × Nat))) (op : AdminOp) (s : State) : State :=
  match op.opcode with
  | 0x88 => if op.a = 0 then (s.beginWarm .restartWarm s.start.nextEnv).runStart else s.restartCold
  | 0x8A => s.dropSession op.param16 4
  | 0xA2 => s.dropSessions (fun e => e.tenant = op.param16) 6
  | 0xA3 => if (was.getD op.param16 none).isSome then s.dropSessions (fun e => e.tenant = op.param16) 6 else s
  | _ => s

/-! ## The rows -/

/-- An administrative row: its message admitted, checked, and its result made ready. -/
def State.plainRow (opcode sid msgId : Nat) (s : State) : State :=
  match s.takeRequest sid msgId false [opcode] with
  | (none, s) => s
  | (some x, s) =>
    let p := parseBody false x.body
    let op := p.adminOp opcode
    match firstOf [adminBad x.ask p, s.opLimits x.ask.gen op, s.opState op] with
    | some (st, r) => s.finish x.ask st r {}
    | none => s.askAdmin x.ask op

/-- IDENTIFY (R325). -/
def execIdentify (sid msgId : Nat) (s : State) : Host.Outcome State Fault Refusal := (s.plainRow 0x80 sid msgId).done
/-- GET_LOG (R326). -/
def execGetLog (sid msgId : Nat) (s : State) : Host.Outcome State Fault Refusal := (s.plainRow 0x81 sid msgId).done
/-- LOG_SNAPSHOT (R327). -/
def execLogSnapshot (sid msgId : Nat) (s : State) : Host.Outcome State Fault Refusal := (s.plainRow 0x82 sid msgId).done
/-- GET_FEATURE (R340). -/
def execGetFeature (sid msgId : Nat) (s : State) : Host.Outcome State Fault Refusal := (s.plainRow 0x84 sid msgId).done
/-- SET_FEATURE (R340). -/
def execSetFeature (sid msgId : Nat) (s : State) : Host.Outcome State Fault Refusal := (s.plainRow 0x85 sid msgId).done
/-- RESTART (R341), with what the start it begins will find. -/
def execRestart (sid msgId : Nat) (env : StartEnv) (s : State) : Host.Outcome State Fault Refusal :=
  ((s.modStart fun x => { x with nextEnv := env }).plainRow 0x88 sid msgId).done
/-- DEEP_SLEEP (R342). -/
def execDeepSleep (sid msgId : Nat) (s : State) : Host.Outcome State Fault Refusal := (s.plainRow 0x89 sid msgId).done
/-- CLOSE_SESSION (R343). -/
def execCloseSession (sid msgId : Nat) (s : State) : Host.Outcome State Fault Refusal := (s.plainRow 0x8A sid msgId).done
/-- CLEAR_FAULTS (R331). -/
def execClearFaults (sid msgId : Nat) (s : State) : Host.Outcome State Fault Refusal := (s.plainRow 0x8C sid msgId).done

/-- A security row. -/
def State.securityRow (opcode sid msgId : Nat) (s : State) : State :=
  match s.ses.find sid with
  | none => s
  | some e => match s.takeRequest sid msgId false [opcode] with
    | (none, s) => s
    | (some x, s) =>
      let p := parseBody false x.body
      let op := p.adminOp opcode
      match firstOf [adminBad x.ask p, (s.secRefused e.kH2d msgId op).map Prod.fst, s.readRefused] with
      | some (st, r) => s.finish x.ask st r {}
      | none => s.askAdmin x.ask op

/-- SEC_STATUS (R463). -/
def execSecStatus (sid msgId : Nat) (s : State) : Host.Outcome State Fault Refusal := (s.securityRow 0xA0 sid msgId).done
/-- SEC_UNLOCK (R461). -/
def execSecUnlock (sid msgId : Nat) (s : State) : Host.Outcome State Fault Refusal := (s.securityRow 0xA1 sid msgId).done
/-- SEC_SET_CREDENTIAL (R464). -/
def execSecSetCredential (sid msgId : Nat) (s : State) : Host.Outcome State Fault Refusal := (s.securityRow 0xA2 sid msgId).done
/-- SEC_RESET_CREDENTIAL (R453). -/
def execSecResetCredential (sid msgId : Nat) (s : State) : Host.Outcome State Fault Refusal := (s.securityRow 0xA3 sid msgId).done
/-- SEC_ERASE_TENANT (R459). -/
def execSecEraseTenant (sid msgId : Nat) (s : State) : Host.Outcome State Fault Refusal := (s.securityRow 0xA4 sid msgId).done

/-! ## Deep Sleep entry (R87) -/

/-- Steps 4 to 6 of the entry, once every request admitted has ended. -/
def State.sleepNow (m : Mode) (s : State) : State :=
  let s := s.drainNow.writeEntry .checkpoint
  let s := s.abortJobs.stopWatch
  let s := (s.modReg RegState.stopLoops).modNet fun n => { n with gateOpen := false }
  let s := (s.event .deepSleep 1 0 0).modStart fun x => { x with series := none, limit := .closed }
  (s.setMode .deepSleep).modPower fun p => { p with sleep := .asleep m }

/-- DEEP_SLEEP_ENTRY_COMPLETE: the drive is asleep; with WAKE high it wakes at once (R47). -/
def State.sleepComplete (wakeHigh : Bool) (s : State) : State :=
  match s.power.sleep with
  | .entering m =>
    if 0 < s.ses.inFlight ∨ !s.mode.serving then s
    else
      let s := s.sleepNow m
      if wakeHigh then s.wakeUp 1 else s
  | .awake => s
  | .asleep _ => s

/-- DEEP_SLEEP_ENTRY_COMPLETE. -/
def execDeepSleepEntryComplete (wakeHigh : Bool) (s : State) : Host.Outcome State Fault Refusal := (s.sleepComplete wakeHigh).done

end Sys2Proof.Machine
end

