-- ==== Sys2Proof/Machine/Firmware.lean ====
section
/-!
DEFINITION. Firmware (chapter 19): the download opcodes and their refusals, verification with its scan jobs, Graft,
activation, the confirmation window and fallback.
-/
namespace Sys2Proof.Machine

/-! ## Refusals by state and sequence (Table 19-5) -/

/-- A Graft, an activation or a fallback is in progress. -/
def FwState.updating (f : FwState) : Bool := f.graft.isSome || f.activation.isSome || f.fallbackDue.isSome

/-- The confirmation window is open. -/
def FwState.onTrial (f : FwState) : Bool :=
  match f.commit.confirm with
  | .trial _ => true
  | .none | .confirmed => false

/-- The first row of Table 19-5 that applies to an opcode of a session. -/
def State.fwRefused (sid op : Nat) (s : State) : Option Refused :=
  let served := decide (s.mode = .readyRead ∨ s.mode = .ready ∨ s.mode = .overcast ∨ s.mode = .brace ∨ s.mode = .rescue)
  let owned := match s.fw.download with
    | some d => decide (d.session ≠ sid)
    | none => false
  let eligible := match s.fw.verified with
    | some p => s.fw.commit.running.eligible p
    | none => false
  firstOf [
    refuseIf (!served && decide (op ≠ 0x96)) 0x31 2,
    refuseIf (decide (s.power.sleep ≠ .awake)) 0x31 0x14,
    refuseIf (decide (s.mode = .brace) && decide (op = 0x93 ∨ op = 0x94)) 0x31 2,
    refuseIf s.fw.updating 0x31 3,
    refuseIf (s.fw.onTrial && decide (op = 0x90 ∨ op = 0x92 ∨ op = 0x93 ∨ op = 0x94)) 0x31 3,
    refuseIf (owned && decide (op = 0x90 ∨ op = 0x91 ∨ op = 0x92)) 0x31 3,
    refuseIf (s.fw.download.isNone && decide (op = 0x91 ∨ op = 0x92)) 0x13 2,
    refuseIf (s.fw.verified.isNone && decide (op = 0x93 ∨ op = 0x94)) 0x13 2,
    refuseIf (decide (op = 0x94) && (!s.fullyCharged || decide (s.bankClass = .failed))) 0x31 4,
    refuseIf (decide (op = 0x93) && !eligible) 0x11 0]

/-! ## Download -/

/-- A refusal of Table 19-6: logged, and the download ends with its package. -/
def State.refusePackage (code : Nat) (s : State) : State :=
  (s.modFw fun f => { f with download := none }).event .fwRefused code 0 0

/-- A package received earlier and not yet made running is discarded. -/
def FwState.discard (f : FwState) : FwState :=
  { f with download := none, verified := none, banks := f.banks.map fun b => if b.state = .verified then { b with state := .empty } else b }

/-- The rules for a chunk (R479): whether it is accepted. -/
def Download.accepts (d : Download) (off len : Nat) : Bool :=
  decide (1 ≤ len ∧ off % 4096 = 0 ∧ off + len ≤ d.length ∧ (len % 4096 = 0 ∨ off + len = d.length)) &&
  (d.headerOk || decide (off + len ≤ 65536))

/-- A chunk stored: each unit is written once. -/
def Download.store (d : Download) (off : Nat) (data : Bytes) : Download :=
  let units := (List.range ((data.length + 4095) / 4096)).map fun k => (off + 4096 * k, slice (4096 * k) 4096 data)
  { d with units := units.foldl (fun us u => if us.any fun x => x.1 = u.1 then us else us ++ [u]) d.units }

/-- FW_BEGIN at its selection. -/
def State.formBegin (sid : Nat) (op : AdminOp) (s : State) : Formed :=
  formedOk 0 0 (s.modFw fun f => { f.discard with download := some { session := sid, length := op.b, lastAt := s.elapsed } })

/-- FW_DATA at its selection: the units programmed, and the header checked once offsets 0 to 511 are there (R480). -/
def State.formData (op : AdminOp) (s : State) : Formed :=
  match s.fw.download with
  | none => refused (0x13, 2) 0 s
  | some d =>
    if !d.accepts op.a op.data.length then refused (0x13, 2) 0 s
    else if op.fails then refused (refusalStatus 0x0C) 0 (s.refusePackage 0x0C)
    else
      let d := d.store op.a op.data
      let s := s.modFw fun f => { f with download := some d }
      if d.headerOk ∨ !d.units.any fun u => u.1 = 0 then formedOk 0 0 s
      else match (parsePackage ((d.units.find? fun u => u.1 = 0).map Prod.snd |>.getD [])).headerCode s.fused d.length with
        | some code => refused (refusalStatus code) 0 (s.refusePackage code)
        | none => formedOk 0 0 (s.modFw fun f => { f with download := some { d with headerOk := true } })

/-! ## Verification (R481) -/

/-- The bank of a part that the running set does not use. -/
def Package.spareBank (running : Nat) (part : Nat) (banks : List Bank) : Nat :=
  if banks.any fun b => b.part = part && b.bank = 0 && b.manifest = running && decide (b.state ≠ .empty) then 1 else 0

/-- The banks programmed from a verified package with what R476 has them store, and their IMAGE_CRC. -/
def FwState.install (u : Fused) (p : Package) (image : Bytes) (f : FwState) : FwState :=
  let slot := (p.slotFor u image).getD []
  let put (banks : List Bank) (e : PartEntry) : List Bank :=
    let k := Package.spareBank f.commit.running.manifest e.part banks
    banks.map fun b => if b.part = e.part ∧ b.bank = k then
      ⟨e.part, k, .verified, e.version, p.manifest, crc32c (e.image image), some ⟨p.head, slot, e.image image⟩⟩ else b
  { f with banks := p.parts.foldl put f.banks, verified := some p, download := none }

/-- FW_VERIFY at its selection: the banks hold the package, or a program of theirs failed. -/
def State.formVerify (s : State) : Formed :=
  match s.fw.download with
  | none => refused (0x13, 2) 0 s
  | some d =>
    if d.bankFails then refused (refusalStatus 0x0C) 0 (s.refusePackage 0x0C)
    else formedOk 0 d.package.manifest (s.modFw fun f => f.install s.fused d.package d.image)

/-- The request of a verification under way, while it is in flight. -/
def State.verifyFlight (s : State) : Option (Sess × Flight × Download) :=
  match s.fw.download with
  | none => none
  | some d => match d.verifying with
    | none => none
    | some id => match s.ses.find d.session with
      | none => none
      | some e => (e.flight id).map fun f => (e, f, d)

/-- A verification ends with a refusal code. -/
def State.verifyFails (code : Nat) (e : Sess) (f : Flight) (s : State) : State :=
  let (st, r) := refusalStatus code
  (s.abortJobs.refusePackage code).finish (f.ask e) st r {}

/-- Every hash matches: the tags are checked, the commit record names no previous set, and the result is made ready. -/
def State.hashesPass (e : Sess) (f : Flight) (d : Download) (s : State) : State :=
  if !d.package.tagsOk s.fused d.image then s.verifyFails 0x0B e f
  else
    let c := s.fw.commit
    let s := s.writeCommit c.running c.confirm none c.failed
    let s := s.modFw fun x => { x with download := some { d with verifying := none } }
    s.sayAdmin (f.ask e) ⟨0x92, 0, 0, 0, 0, [], false⟩

/-- The job at the front ends: at the end of an image its digest is compared (R439). -/
def State.jobEnds (j : ScanJob) (s : State) : State :=
  let s := s.modWatch fun w => { w with jobs := w.jobs.drop 1 }
  match s.verifyFlight with
  | none => s.abortJobs
  | some (e, f, d) =>
    let image := d.image
    let entry := d.package.parts.find? fun p => p.offset ≤ j.start && decide (j.start < p.offset + p.length)
    let ok := match j.expectedSha, entry with
      | some h, some p => decide (sha256 (p.image image) = h)
      | _, _ => true
    if !ok then s.verifyFails 0x0A e f else if s.watch.jobs.isEmpty then s.hashesPass e f d else s

/-- SCAN_JOB_COMPLETE: the running job ends, or a job that the serving processor ran for itself: its start, and whether its
values matched. -/
def State.scanComplete (own : Option (Nat × Bool)) (s : State) : State :=
  match own with
  | some (start, ok) => if ok ∨ !s.alive then s else s.event .checkMismatch 2 start 0
  | none => match s.watch.jobs with
    | [] => s
    | j :: _ => s.jobEnds j

/-- SCAN_JOB_COMPLETE. -/
def execScanJobComplete (own : Option (Nat × Bool)) (s : State) : Host.Outcome State Fault Refusal := (s.scanComplete own).done

/-! ## Activation, confirmation, abort at their selection -/

/-- FW_CONFIRM at its selection (R491). -/
def State.formConfirm (s : State) : Formed :=
  let c := s.fw.commit
  if s.fw.onTrial then formedOk 0 0 ((s.writeCommit c.running .confirmed c.previous c.failed).event .fwConfirmed 0 c.running.manifest 0)
  else formedOk 0 0 s

/-- FW_ABORT at its selection: the download ends, and an open window ends in a fallback (R478, R492). -/
def State.formAbort (s : State) : Formed :=
  let s := if s.fw.download.isSome then s.abortJobs.refusePackage 0x0D else s
  formedOk 0 0 (if s.fw.onTrial then s.beginFallback 5 else s)

/-- A firmware opcode at its selection. -/
def State.formFirmware (sid : Nat) (op : AdminOp) (s : State) : Formed :=
  match (if op.opcode = 0x92 then none else s.fwRefused sid op.opcode) with
  | some r => refused r 0 s
  | none => match op.opcode with
    | 0x90 => s.formBegin sid op
    | 0x91 => s.formData op
    | 0x92 => s.formVerify
    | 0x95 => s.formConfirm
    | 0x96 => s.formAbort
    | _ => formedOk 0 0 s

/-- FW_ACTIVATE once its OK is selected: the selection is reference point A (R487). -/
def State.afterActivate (s : State) : State := s.abortTest.modFw fun f => { f with activation := some ⟨none, s.elapsed⟩ }

/-! ## The rows of the opcodes -/

/-- A firmware opcode of the owning session keeps its download alive (R478). -/
def State.touchDownload (sid : Nat) (s : State) : State :=
  s.modFw fun f => { f with download := f.download.map fun d => if d.session = sid then { d with lastAt := s.elapsed } else d }

/-- What an opcode's own parameters are refused for, once Table 19-5 is passed. -/
def State.fwLimits (op : AdminOp) (s : State) : Option Refused :=
  match op.opcode, s.fw.download with
  | 0x91, some d => refuseIf (!d.accepts op.a op.data.length) 0x13 2
  | 0x92, some d => refuseIf (!d.whole || !d.headerOk) 0x13 2
  | 0x95, _ => match s.fw.commit.confirm with
    | .trial t => refuseIf (decide (t ≤ s.powered)) 0x31 3
    | .none | .confirmed => none
  | _, _ => none

/-- The limits that stand before any state (row 8 of Table 9-7). -/
def fwTooLarge (op : AdminOp) : Option Refused :=
  firstOf [refuseIf (decide (op.opcode = 0x90 ∧ 67108864 < op.b)) 0x12 1, refuseIf (decide (op.opcode = 0x91 ∧ 65536 < op.data.length)) 0x12 1]

/-- A firmware request admitted and checked, up to what it then does. -/
def State.firmwareRow (opcode sid msgId : Nat) (fails : Bool) (run : Ask → AdminOp → State → State) (s : State) : State :=
  match s.takeRequest sid msgId false [opcode] with
  | (none, s) => s
  | (some x, s) =>
    let p := parseBody false x.body
    let op := { p.adminOp opcode with fails := fails }
    let s := s.touchDownload sid
    match firstOf [adminBad x.ask p, fwTooLarge op, s.readRefused, s.fwRefused sid opcode, s.fwLimits op] with
    | some (st, r) => s.finish x.ask st r {}
    | none => run x.ask op s

/-- FW_BEGIN: a length below 4,096 is refused with code 0x05. -/
def State.runBegin (a : Ask) (op : AdminOp) (s : State) : State :=
  if op.b < 4096 then
    let (st, r) := refusalStatus 0x05
    (s.refusePackage 0x05).finish a st r {}
  else s.askAdmin a op

/-- FW_VERIFY: codes 0x07 to 0x09 at once, then the scan jobs. -/
def State.runVerify (a : Ask) (op : AdminOp) (s : State) : State :=
  match s.fw.download with
  | none => s.finish a 0x13 2 {}
  | some d => match d.package.contentCode s.fused s.fw.commit.running.manifest d.image with
    | some code =>
      let (st, r) := refusalStatus code
      (s.refusePackage code).finish a st r {}
    | none =>
      let (_, s) := s.startWork a
      let d := { d with verifying := some a.msgId, bankFails := op.fails }
      (s.abortJobs.modFw fun f => { f with download := some d }).submitVerify

/-- FW_GRAFT: the Graft begins. -/
def State.runGraft (a : Ask) (_ : AdminOp) (s : State) : State :=
  let (_, s) := s.startWork a
  s.abortTest.modFw fun f => { f with graft := some ⟨a.sid, a.msgId, s.elapsed, none⟩ }

/-- FW_BEGIN (R478). -/
def execFwBegin (sid msgId : Nat) (s : State) : Host.Outcome State Fault Refusal := (s.firmwareRow 0x90 sid msgId false State.runBegin).done
/-- FW_DATA (R479), with whether the program of the chunk fails after its retries. -/
def execFwData (sid msgId : Nat) (fails : Bool) (s : State) : Host.Outcome State Fault Refusal :=
  (s.firmwareRow 0x91 sid msgId fails State.askAdmin).done
/-- FW_VERIFY (R481), with whether a program of the banks will fail after its retries. -/
def execFwVerify (sid msgId : Nat) (fails : Bool) (s : State) : Host.Outcome State Fault Refusal :=
  (s.firmwareRow 0x92 sid msgId fails State.runVerify).done
/-- FW_GRAFT (R483). -/
def execFwGraft (sid msgId : Nat) (s : State) : Host.Outcome State Fault Refusal := (s.firmwareRow 0x93 sid msgId false State.runGraft).done
/-- FW_ACTIVATE (R487). -/
def execFwActivate (sid msgId : Nat) (s : State) : Host.Outcome State Fault Refusal := (s.firmwareRow 0x94 sid msgId false State.askAdmin).done
/-- FW_CONFIRM (R491). -/
def execFwConfirm (sid msgId : Nat) (s : State) : Host.Outcome State Fault Refusal := (s.firmwareRow 0x95 sid msgId false State.askAdmin).done
/-- FW_ABORT (R478, R492). -/
def execFwAbort (sid msgId : Nat) (s : State) : Host.Outcome State Fault Refusal := (s.firmwareRow 0x96 sid msgId false State.askAdmin).done

/-- FW_DOWNLOAD_TIMEOUT (R478). -/
def State.downloadTimeout (s : State) : State :=
  match s.fw.download with
  | none => s
  | some d => (s.waitUntil (d.lastAt + secs 600)).abortJobs.refusePackage 0x0D

/-- FW_DOWNLOAD_TIMEOUT. -/
def execFwDownloadTimeout (s : State) : Host.Outcome State Fault Refusal := s.downloadTimeout.done

/-! ## Graft (Table 19-7) -/

/-- A Graft that its tag failure ends (R485). -/
def State.graftFails (e : Sess) (f : Flight) (s : State) : State :=
  let m := (s.fw.verified.map Package.manifest).getD 0
  let s := (s.modFw fun x => { x with graft := none, verified := none }).markFailed m [1]
  (s.event .fwRefused 0x0B 0 0).finish (f.ask e) 0x51 3 {}

/-- The roles of the management processors swap (R28). -/
def FwState.swapRoles (f : FwState) : FwState := { f with serving := f.serving.other }

/-- Steps 3 to 5: the handover, the commit record, the event and the completion. -/
def State.graftDone (e : Sess) (f : Flight) (p : Package) (ns : Nat) (s : State) : State :=
  let s := (s.modFw fun x => { x.swapRoles with graft := none }).commitTrial p 1
  let s := (s.event .fwGraft ns p.manifest 0).modFlight e.id f.msgId fun f => { f with committed := true }
  s.finish (f.ask e) 0 0 { result := ns }

/-- A fallback by Graft (R492): where the load fails, it goes on by the activation path. -/
def State.graftBack (cause ns : Nat) (loaded : Bool) (s : State) : State :=
  let s := s.modFw fun x => { x with graft := none }
  match s.fw.commit.previous with
  | none => s
  | some p =>
    if loaded then (((s.modFw FwState.swapRoles).commitFallback p).event .fwGraft ns p.manifest 0).event .fwFallback cause p.manifest 0
    else s.modFw fun x => { x with activation := some ⟨some cause, s.elapsed⟩ }

/-- GRAFT_HANDOVER: whether part 0x01 loaded and passed, and the handover time in ns. A scan job in progress keeps the serving
processor from its quiescent point. A request that was cancelled or ended before leaves the Graft without effect. -/
def State.handover (loaded : Bool) (ns : Nat) (s : State) : State :=
  match s.fw.graft with
  | none => s
  | some g => if !s.watch.jobs.isEmpty then s else match g.fallback with
    | some cause => s.graftBack cause ns loaded
    | none =>
      let flight := (s.ses.find g.session).bind fun e => (e.flight g.msgId).map fun f => (e, f)
      match flight, s.fw.verified with
      | some (e, f), some p => if loaded then s.graftDone e f p ns else s.graftFails e f
      | _, _ => s.modFw fun x => { x with graft := none }

/-- GRAFT_HANDOVER (R485). -/
def execGraftHandover (loaded : Bool) (ns : Nat) (s : State) : Host.Outcome State Fault Refusal := (s.handover loaded ns).done

/-! ## Activation (Table 19-8, R494) -/

/-- FW_ACTIVATE in Rescue: the new set runs confirmed, and the drive takes the cold path from step 8. -/
def State.rescueActivates (env : StartEnv) (s : State) : State :=
  match s.fw.verified with
  | none => s.modFw fun f => { f with activation := none }
  | some p =>
    let s := (s.modFw fun f => { f with verified := none, activation := none, lastChange := 2 }).writeCommit p .confirmed none none
    let s := (s.abortJobs.haltWatch.modStart fun x => { x with series := none }).loseSessions.modNet fun n => { n with gateOpen := false }
    ((s.setMode .coldStart).beginRun .cold .activation 8 env).runStart

/-- ACTIVATION: steps 1 to 3 of Table 19-8, then the start from its commit record on. -/
def State.activate (env : StartEnv) (s : State) : State :=
  if s.fw.activation.isNone then s
  else if s.mode = .rescue then s.rescueActivates env
  else if !s.mode.serving ∧ s.mode ≠ .brace then s
  else ((s.quiesce.writeEntry .checkpoint).beginRun .activation .activation 4 env).runStart

/-- ACTIVATION. -/
def execActivation (env : StartEnv) (s : State) : Host.Outcome State Fault Refusal := (s.activate env).done

/-! ## The confirmation window (R490 to R492) -/

/-- A FW_CONFIRM admitted before the end of the window is in flight. -/
def State.confirming (s : State) : Bool := s.ses.sessions.any fun e => e.flights.any fun f => f.opcode = 0x95

/-- CONFIRM_WINDOW_EXPIRED: the set on trial has failed with cause 0x01. -/
def State.windowEnds (s : State) : State :=
  match s.fw.commit.confirm with
  | .none => s
  | .confirmed => s
  | .trial t =>
    if s.mode = .off ∨ s.fw.updating = true ∨ s.confirming = true then s
    else (s.waitUntil (s.elapsed + (t - s.powered))).beginFallback 1

/-- CONFIRM_WINDOW_EXPIRED. -/
def execConfirmWindowExpired (s : State) : Host.Outcome State Fault Refusal := s.windowEnds.done

end Sys2Proof.Machine
end

