-- ==== Sys2Proof/Machine/Egress.lean ====
section
/-!
DEFINITION. EGRESS_SELECT (R188 to R200): the arbiter grants the port, the selected item is committed (R189, R235), and what
its last frame ends. Then the Ethernet frames as they stand on the wire (R155, R159, R160, R270).
-/
namespace Sys2Proof.Machine

/-! ## Administrative results at their selection (R323) -/

/-- An administrative, firmware or security opcode at its selection. -/
def State.formOp (x : Sess) (msgId : Nat) (op : AdminOp) (s : State) : Formed :=
  if isFirmwareOp op.opcode then s.formFirmware x.id op
  else if 0xA0 ≤ op.opcode then s.formSecurity x.kH2d msgId op
  else s.formPlain x.id x.gen op

/-- An entry as it leaves: an administrative body is formed, with the effect of its opcode, and takes its SEQ. The operation
comes back where it was done with OK. -/
def State.formEntry (e : EpEntry) (s : State) : EpEntry × Option AdminOp × State :=
  match e.load with
  | .raw _ | .dawn .. => (e, none, s)
  | .ly m => match m.body, s.ses.find m.session with
    | .admin op admitAt token, some x =>
      let f := s.formOp x m.msgId op
      let m := { m with
        status := f.status, reason := f.reason, body := .answer { f.body with admitAt := admitAt, token := token }
        seq := x.driveSeq, priorLate := x.priorLate, risk := s.power.deadlineRisk }
      let n := frameCount (bodyLimit m.gen e.dst) m.bodyBytes.length
      let s := f.state.modSess m.session fun x => { x with driveSeq := x.driveSeq + n, priorLate := false }
      let s := if f.status = 0x50 ∨ f.status = 0x7F then s.errorAnswer ⟨m.tenant, m.opcode, m.msgId, f.status, f.reason⟩ 0 else s
      ({ e with load := .ly m }, if f.status = 0 then some op else none, s)
    | _, _ => (e, none, s)

/-- The port's queue with every administrative body as it would leave now, for the arbiter's judgement of its length. -/
def State.preview (q : Port) (s : State) : State :=
  s.modPort q fun p => { p with epQ := p.epQ.map fun e => (s.formEntry e).1 }

/-- What an operation brings about once its OK is selected. -/
def State.afterOp (was : List (Option (Bytes × Nat))) (op : AdminOp) (s : State) : State :=
  if op.opcode = 0x94 then s.afterActivate
  else if isFirmwareOp op.opcode then s
  else s.afterPlain was op

/-! ## Late answers (R202, R203, R266) -/

/-- The port deadline in ns; none at 10 Mb/s. -/
def portDeadline (deadlineUs speed : Nat) : Option Nat :=
  if speed = 1000 then some (deadlineUs * 1000) else if speed = 100 then some (max deadlineUs 40 * 1000) else none

/-- For how long a class's gate has been open at an instant of the drive's time; none when it never closes. -/
def openSince (g : GateListCfg) (r : GateRun) (now cls : Nat) : Option Nat :=
  let segs := g.segments
  let begun := r.entryEnd - (segs.getD r.entry (0, 0)).2
  (openFor cls ((segs.take r.entry).reverse ++ segs.reverse)).map (now - begun + ·)

/-- The cause that the drive finds for a late answer: 1 deadline lapse, 2 pause received, 3 gate list, 4 answers queued. -/
def State.lateCause (q : Port) (e : EpEntry) (s : State) : Nat :=
  let p := s.portOf q
  let wait := s.elapsed - e.queuedAt
  if s.power.deadlineLapse then 1
  else if (match p.heldLast with | some t => decide (e.queuedAt ≤ t) | none => false) then 2
  else if s.listInUse q && p.gate.running && (match openSince (s.cfg.inUse.gates.get q) p.gate s.timeNs e.cls with
    | some t => decide (t ≤ wait)
    | none => false) then 3
  else 4

/-- A first answer measured at its selection, from the last bit of its request to its own first bit (R202,
notes/assumptions/42.md); `sid` is its session. -/
def State.measure (q : Port) (e : EpEntry) (sid : Nat) (s : State) : State :=
  let ns := s.timeNs - s.time.stampAt e.rxEnd
  match portDeadline s.cfg.inUse.protocol.ly3DeadlineUs (s.portOf q).speed with
  | none => s
  | some d =>
    if ns ≤ d then s
    else
      let cause := s.lateCause q e
      let s := s.bump q .ly3Late
      let s := s.modAdmin fun a =>
        if a.ly3LateMaxNs < ns then { a with ly3LateMaxNs := ns, ly3LatePort := q.index, ly3LateCause := cause } else a
      let s := s.modSess sid fun x => { x with priorLate := true }
      if s.dueAgain (secs 60) (s.portOf q).lateAt then
        (s.modPort q fun p => { p with lateAt := some s.elapsed }).event .ly3Late (q.index + 256 * cause) (min ns max32) 0
      else s

/-! ## Selection (R189, R235) -/

/-- A session whose drive direction has used its last SEQ is closed (Table 9-9). -/
def State.seqSpent (sid : Nat) (s : State) : State :=
  match s.ses.find sid with
  | some x => if 2 ^ 64 - 1 ≤ x.driveSeq ∧ sid ≠ 0 then s.dropSession sid 5 else s
  | none => s

/-- A message frame selected: the first one commits its request and is measured, the last one ends it. -/
def State.messageSelected (q : Port) (e : EpEntry) (m : LyMsg) (last : Bool) (s : State) : State :=
  let s := s.when (decide (e.next = 0) && m.first) (State.measure q e m.session)
  let s := s.when (decide (e.next = 0) && m.ends) (State.modFlight m.session m.msgId fun f => { f with committed := true })
  (s.when last fun s => (s.cacheAnswer m).messageOver m).seqSpent m.session

/-- The frame that an entry sends now is put on the wire, and what its selection brings about. -/
def State.selectEntry (q : Port) (k : Nat) (s : State) : State :=
  match (s.portOf q).epQ[k]? with
  | none => s
  | some e =>
    let was := s.sec.installed
    let s := s.modPort q fun p => { p with epQ := p.epQ.eraseIdx k }
    let (e, op, s) := s.formEntry e
    let e := match e.load with
      | .dawn level index => { e with load := .raw (s.dawnPayload q level index) }
      | .raw _ | .ly _ => e
    let last := decide (e.left ≤ 1)
    let s := s.modPort q fun p => { p with
      onWire := some (.ep e), wireEnd := s.elapsed + wireNs p.speed e.length, fragFrom := 0
      epQ := if last then p.epQ else p.epQ.take k ++ { e with next := e.next + 1, queued := e.queued.tail } :: p.epQ.drop k }
    let s := s.refill q
    let s := match e.load with
      | .ly m => s.messageSelected q e m last
      | .raw _ | .dawn .. => s
    let s := s.settleCloses
    match op with
    | some op => s.afterOp was op
    | none => s

/-- What the arbiter took is put on the wire. -/
def State.select (q : Port) (x : Pick) (s : State) : State :=
  let p := s.portOf q
  let put (w : OnWire) (length : Nat) (p : PortState) : PortState :=
    { p with onWire := some w, wireEnd := s.elapsed + wireNs p.speed length, fragFrom := 0 }
  match x with
  | .pause => match p.pauseQ with
    | [] => s
    | n :: rest => s.modPort q fun p => put (.pause n) 64 { p with pauseQ := rest }
  | .gptp => match p.gptpQ with
    | [] => s
    | f :: rest => (s.modPort q fun p => put (.gptp f) (OnWire.length (.gptp f)) { p with gptpQ := rest }).gptpSelected q f
  | .ep k => s.selectEntry q k
  | .fwd k => match p.fwdQ[k]? with
    | none => s
    | some f => s.modPort q fun p => put (.fwd f) f.length { p with fwdQ := p.fwdQ.eraseIdx k }
  | .resume => match p.preempted with
    | none => s
    | some (w, n) => s.modPort q fun p => { put w (w.length - n) p with preempted := none, fragFrom := n }

/-! ## The end of a frame -/

/-- The last bit of the frame on the wire has left: it is counted (Table 7-6) and shown as activity (R43). Of a frame that was
cut, the fragment with its mCRC and gap has left, and its remainder waits (R200). -/
def State.frameSent (q : Port) (s : State) : State :=
  let p := s.portOf q
  match p.onWire with
  | none => s
  | some w =>
    let s := (s.waitUntil p.wireEnd).modPort q fun p => { p with onWire := none, cut := none }
    match p.cut with
    | some n => s.modPort q fun p => { p with preempted := some (w, n) }
    | none =>
      let s := s.bump q .txFrames
      match w with
      | .pause _ => s.bump q .txPause
      | .ep _ => (s.count .epTxFrames 1).activity
      | .gptp _ | .fwd _ => s

/-- In a warm start, a completion formed is kept with its session (R97, R257). -/
def State.holdBack (q : Port) (s : State) : State := if s.mode = .warmStart then s.keepCompletions q else s

/-- The port has fallen idle: its frame has left, and the next one is taken. -/
def State.idlePort (q : Port) (s : State) : State :=
  let s := (s.frameSent q).holdBack q
  match (s.preview q).pick q with
  | none => s
  | some x => s.select q x

/-- R200: after `sent` bytes, the preemptable frame on the wire gives way to an express frame, to its gate or to a hold. Its
fragment ends with an mCRC of 4 bytes and the gap of 12, and the port falls idle after them. -/
def State.fragmentPoint (q : Port) (sent : Nat) (s : State) : State :=
  let p := s.portOf q
  match p.onWire with
  | none => s
  | some w =>
    let next := (s.preview q).pickExpress q
    if !p.mayPreempt sent || !(p.mustStop || next.isSome) then s
    else
      let at_ := p.wireEnd - (w.length - sent + 12) * 8 * bitNs p.speed
      (s.waitUntil at_).modPort q fun p => { p with cut := some sent, wireEnd := at_ + 16 * 8 * bitNs p.speed }

/-- EGRESS_SELECT: a port with link falls idle, or reaches a point at which its preemptable frame may be cut; `sent` counts
the bytes of that frame that have left. -/
def State.egress (q : Port) (sent : Option Nat) (s : State) : State :=
  if !(s.portOf q).up then s
  else match sent with
    | none => s.idlePort q
    | some n => s.fragmentPoint q n

/-- EGRESS_SELECT. -/
def execEgressSelect (q : Port) (sent : Option Nat) (s : State) : Host.Outcome State Fault Refusal := (s.egress q sent).done

/-! ## Frames on the wire -/

/-- Header, payload, padding to 64 bytes and FCS of a frame that the drive originates. -/
def ethFrame (dst src : Mac) (tag : Option TxTag) (ethertype : Nat) (payload : Bytes) : Bytes :=
  let head := beBytes 6 dst.toNat ++ beBytes 6 src.toNat ++
    (match tag with | some t => beBytes 2 0x8100 ++ beBytes 2 (t.pcp * 8192 + t.vid) | none => []) ++ beBytes 2 ethertype
  let b := head ++ payload
  let b := b ++ zeros (60 - b.length)
  b ++ fcsOf b

/-- The UDP datagram of an LY2 frame with its IP header (R270); the checksum is always computed. -/
def udpPacket (p : Peer) (srcPort : Nat) (data : Bytes) : Bytes :=
  match p.ip with
  | none => data
  | some (v6, peer, port, mine) =>
    let len := 8 + data.length
    let pseudo := if v6 then pseudo6 mine peer 17 len else pseudo4 mine peer 17 len
    let udp (c : Nat) := beBytes 2 srcPort ++ beBytes 2 port ++ beBytes 2 len ++ beBytes 2 c ++ data
    let c := inetChecksum (pseudo ++ udp 0)
    (if v6 then ip6Header mine peer 17 64 len else ip4Header mine peer 17 len) ++ udp (if c = 0 then 0xFFFF else c)

/-- The payload that an endpoint entry sends now. -/
def EpEntry.payload (ly2Port : Nat) (e : EpEntry) : Bytes :=
  match e.load with
  | .raw b => b
  | .dawn .. => []
  | .ly m => udpPacket e.dst ly2Port (m.encodeFrame (bodyLimit m.gen e.dst) e.next)

/-- The frame on a port's wire, destination to FCS. Pause and 802.1AS frames have the port's own address as their source (R160). -/
def State.wireBytes (q : Port) (s : State) : Option Bytes :=
  match (s.portOf q).onWire with
  | none => none
  | some (.gptp f) => some (ethFrame 0x0180C200000E (s.fused.macPort q) none 0x88F7 f.encode)
  | some (.pause n) => some (ethFrame 0x0180C2000001 (s.fused.macPort q) none 0x8808 (beBytes 2 1 ++ beBytes 2 n))
  | some (.ep e) => some (ethFrame e.dst.mac s.macInUse e.tag e.ethertype (e.payload s.cfg.inUse.protocol.ly2UdpPort))
  | some (.fwd f) => some f.bytes

end Sys2Proof.Machine
end

