-- ==== Sys2Proof/Machine/Reception.lean ====
section
/-!
DEFINITION. A received frame from its port to its message: the receive checks, forwarding and learning (chapter 7), the
IP checks (Table 11-1), the reception steps (Table 9-3), and messages of several frames (R227 to R229, R281).
-/
namespace Sys2Proof.Machine

/-! ## A frame (R155) -/

/-- A received frame, destination address to FCS. -/
structure Frame where
  dst : Nat
  src : Nat
  tagged : Bool
  tag : RxTag
  /-- EtherType after the tag -/
  ethertype : Nat
  /-- bytes between the EtherType and the FCS -/
  payload : Bytes
  length : Nat
  fcsOk : Bool
  deriving DecidableEq, Repr

/-- A frame as its bytes spell it. -/
def parseFrame (b : Bytes) : Frame :=
  let tagged := decide (fieldAt 12 2 b = 0x8100)
  let tci := fieldAt 14 2 b
  let vid := tci % 4096
  let off := if tagged then 18 else 14
  { dst := fieldAt 0 6 b, src := fieldAt 6 6 b, tagged := tagged
    tag := if !tagged then .untagged else if vid = 0 then .priority (tci / 8192) else .vlan vid (tci / 8192)
    ethertype := fieldAt (off - 2) 2 b, payload := slice off (b.length - off - 4) b, length := b.length
    fcsOk := decide (b.drop (b.length - 4) = fcsOf (b.take (b.length - 4))) }

/-- The group bit of an address. -/
def isGroup (mac : Nat) : Bool := bit mac 40

/-- The bridge settings in use: the configured ones from step 15, the defaults of R100 before. -/
def State.bridgeCfg (s : State) : BridgeCfg := if s.net.configured then s.cfg.inUse.bridge else {}

/-- The port settings in use (R175). -/
def State.portCfg (q : Port) (s : State) : PortCfg := if s.net.configured then s.cfg.inUse.port.get q else {}

/-- The 33-33 addresses of R162. -/
def State.isOwn33 (dst : Nat) (s : State) : Bool :=
  dst = 0x333300000001 || (decide (dst / 2 ^ 24 = 0x3333FF) && s.ip6s.any fun a => a % 2 ^ 24 = dst % 2 ^ 24)

/-! ## Learning and forwarding (R170 to R173) -/

/-- The port an address was learned on. -/
def NetState.learned (n : NetState) (mac : Nat) : Option Port := (n.learn.find? fun e => e.mac.toNat = mac).map LearnEntry.port

/-- A source address learned (R171). -/
def State.learn (q : Port) (mac : Nat) (s : State) : State :=
  if s.bridgeCfg.learn ≠ 1 then s
  else
    let put (s : State) : State := s.modNet fun n =>
      { n with learn := ⟨BitVec.ofNat 48 mac, q, s.elapsed⟩ :: n.learn.filter fun e => e.mac.toNat ≠ mac }
    match s.net.learned mac with
    | some p => put (if p = q then s else s.count .brStationMove 1)
    | none => if 1024 ≤ s.net.learn.length then s.count .brLearnFull 1 else put s

/-- A frame put in the egress queue of the other port (R159, R173). Without link there, or while the bridge does not forward, it
is lost and counted nowhere (notes/assumptions/10.md). -/
def State.forward (q : Port) (f : Frame) (bytes : Bytes) (s : State) : State :=
  let o := q.other
  let p := s.portOf o
  let m := (s.portCfg o).maxFrame
  if !p.up ∨ !s.net.forwarding then s
  else if (if f.tagged then m else m - 4) < f.length then s.bump o .txOversize
  else if !fwdRoom p.fwdQ f.tag.pcp f.length then s.bump o .txDiscard
  else s.modPort o fun p => { p with fwdQ := p.fwdQ ++ [⟨f.tag.pcp, bit (s.portCfg o).expressTc f.tag.pcp, f.length, s.elapsed, bytes⟩] }

/-! ## Messages of several frames (R225 to R229, R281) -/

/-- R226 step 5. -/
def Sess.fresh (e : Sess) (seq : Nat) : Bool :=
  decide (e.top < seq) || (decide (e.top - seq < 64) && !e.seen.getLsbD (e.top - seq))

/-- R226 step 8; the lost frames it finds. -/
def Sess.record (e : Sess) (seq : Nat) : Sess × Nat :=
  if e.top < seq then
    let d := seq - e.top
    ({ e with lost := min (2 ^ 64 - 1) (e.lost + (d - 1)), seen := if 64 ≤ d then 1 else (e.seen <<< d) ||| 1, top := seq }, d - 1)
  else ({ e with seen := e.seen ||| BitVec.ofNat 64 (2 ^ (e.top - seq)) }, 0)

/-- R227, R237 row 3: INTEGRITY 0x03, without an image on LY1. A segmented write under way is cut (R309). -/
def State.endIncomplete (e : Sess) (a : Assembly) (s : State) : State :=
  if a.admitted then s.cutWrite e a 0x51 3 0 0 else (s.endMessage e.id true a).failBare (a.ask e) 0x51 3

/-- The ALIVE of a new request or cancel judged (R229): the gap, and the state after it. -/
def State.judgeAlive (e : Sess) (alive : Nat) (s : State) : Bool × State :=
  let gap := decide (alive ≠ (e.lastAlive + 1) % 65536)
  let s := if gap then s.count .lyAliveGaps ((alive + 2 * 65536 - e.lastAlive - 1) % 65536) else s
  (gap, s.modSess e.id fun e => { e with lastAlive := alive })

/-- A message that lists no opcode of its generation, judged at rows 3 to 8 (R242, R288, R322). -/
def State.refuseUnlisted (e : Sess) (a : Assembly) (s : State) : State :=
  match s.judgeRequest e a with
  | (none, s) => s
  | (some x, s) => if e.gen ≠ 1 ∧ isAdminOp a.opcode ∧ e.tenant ≠ 0 then s.fail x.ask 0x41 6 {} else s.fail x.ask 0x13 2 {}

/-- A frame put in its message in the order of its index (R227). A message that turns out inconsistent ends; a message
too large for its generation ends with TOO_LARGE (R228). -/
def State.putFrame (sid : Nat) (h : Header) (rx : Rx) (occ : Nat) (body : Bytes) (s : State) : State :=
  match s.ses.find sid with
  | none => s.release occ
  | some e =>
    match e.joining h.kind h.msgId with
    | none => s.release occ
    | some a =>
      let fr : MsgFrame := ⟨h.frameIndex, h.final, body, occ, rx⟩
      let frames := insertByKey MsgFrame.index fr a.frames
      let b := { a with frames := frames, lastAt := s.elapsed }
      let s := s.modSess sid fun e => { e with assembling := e.assembling.map fun x => if x.serial = a.serial then b else x }
      let sum := natSum (frames.map fun f => f.body.length)
      let same := decide (h.opcode = a.opcode ∧ h.alive = a.alive ∧ h.bodyTotal = a.bodyTotal)
      let once := !a.frames.any fun f => f.index = h.frameIndex || (f.final && (h.final || f.index < h.frameIndex)) ||
        (h.final && h.frameIndex < f.index)
      if !same ∨ !once ∨ a.bodyTotal < sum ∨ (b.complete ∧ sum ≠ a.bodyTotal) then s.endIncomplete e b
      else if h.frameIndex = 0 ∧ h.kind = 0x10 ∧ bodyMost e.gen < h.bodyTotal then (s.endMessage sid false b).fail (b.ask e) 0x12 1 {}
      else if b.complete ∧ h.kind = 0x10 ∧ !(listedOpcodes e.gen).contains h.opcode then (s.takeMessage sid b).refuseUnlisted e b
      else s

/-- The first frame of a new message. -/
def State.newMessage (e : Sess) (h : Header) (rx : Rx) (occ : Nat) (body : Bytes) (s : State) : State :=
  let (gap, s) := s.judgeAlive e h.alive
  let a : Assembly :=
    { serial := e.nextSerial, kind := h.kind, msgId := h.msgId, opcode := h.opcode, alive := h.alive, bodyTotal := h.bodyTotal, frames := []
      firstAt := s.elapsed, lastAt := s.elapsed, aliveGap := gap }
  (s.modSess e.id fun e => { e with assembling := e.assembling ++ [a], nextSerial := e.nextSerial + 1 }).putFrame e.id h rx occ body

/-- A frame other than the first of a message that has ended within the last 2 s: it is discarded (R225, R227, R228). The first
frame opens a new message (notes/assumptions/43.md). -/
def State.endedFrame (e : Sess) (h : Header) (s : State) : Bool :=
  decide (h.frameIndex ≠ 0) && e.ended.any fun x => x.msgId = h.msgId && s.within (secs 2) x.at_

/-- On LY1 and LY3, a frame of another message ends those that are incomplete (R227). -/
def State.endOthers (e : Sess) (kind msgId : Nat) (s : State) : State :=
  if e.gen = 2 then s
  else (e.assembling.filter fun a => !a.complete && !(a.msgId = msgId && a.kind = kind)).foldl (fun s a => s.endIncomplete e a) s

/-- LY1 and LY3: frames come in order, and a frame of another message ends one that is incomplete (R227). A message with the
MSG_ID of one that is complete and waits for its row is another message (R265, R294). -/
def State.joinOrdered (e : Sess) (h : Header) (rx : Rx) (occ : Nat) (body : Bytes) (s : State) : State :=
  let open_ := (e.joining h.kind h.msgId).isSome
  let s := s.endOthers e h.kind h.msgId
  if open_ then s.putFrame e.id h rx occ body
  else if s.endedFrame e h then s.release occ
  else s.newMessage ((s.ses.find e.id).getD e) h rx occ body

/-- A cached answer sent again (R281 row 5). -/
def State.resend (e : Sess) (c : CacheEntry) (rx : Rx) (s : State) : State :=
  let s := s.modSess e.id fun e => { e with cache := e.cache.map fun x => if x.msgId = c.msgId then { x with resentAt := some s.elapsed } else x }
  (s.count .ly2AnswersResent 1).say e.id rx s.timeNs
    { kind := 0x11, gen := 2, tenant := e.tenant, session := e.id, msgId := c.msgId, alive := c.alive, opcode := c.opcode
      status := c.status, reason := c.reason, body := .raw c.body }

/-- LY2: Table 11-3. -/
def State.joinDatagram (e : Sess) (h : Header) (rx : Rx) (occ : Nat) (body : Bytes) (s : State) : State :=
  let dup (s : State) : State := (s.release occ).count .ly2DupFrames 1
  if e.ended.any (fun x => x.msgId = h.msgId && x.inconsistent && s.within (secs 2) x.at_) then s.release occ
  else match e.message h.kind h.msgId with
    | some a =>
      if a.complete || a.frames.any (fun f => f.index = h.frameIndex) then dup s
      else s.putFrame e.id h rx occ body
    | none =>
      if h.kind = 0x10 ∧ (e.flight h.msgId).isSome then dup s
      else match (if h.kind = 0x10 then e.cache.find? fun c => c.msgId = h.msgId && s.within (secs 2) c.at_ else none) with
        | some c =>
          if c.opcode = h.opcode ∧ c.bodyTotal = h.bodyTotal then
            if h.frameIndex = 0 ∧ s.dueAgain (ms 10) c.resentAt then (s.release occ).resend e c rx else dup s
          else
            let a : Assembly := { serial := e.nextSerial, kind := h.kind, msgId := h.msgId, opcode := h.opcode, alive := h.alive, bodyTotal := h.bodyTotal
                                  frames := [⟨h.frameIndex, h.final, body, occ, rx⟩], firstAt := s.elapsed, lastAt := s.elapsed, aliveGap := false }
            s.endIncomplete e a
        | none => if s.endedFrame e h then s.release occ else s.newMessage e h rx occ body

/-! ## Table 9-3 -/

/-- Whether a frame comes from the peer that a session is bound to (R214). -/
def samePeer (gen : Nat) (a b : Peer) : Bool :=
  if gen = 2 then (match a.ip, b.ip with
    | some (v, x, p, _), some (w, y, r, _) => decide (v = w ∧ x = y ∧ p = r)
    | _, _ => false)
  else decide (a.mac = b.mac)

/-- An answer at step 6 or 7, on a session and outside any message (R225). -/
def State.sayFrameFault (e : Sess) (h : Header) (rx : Rx) (status reason : Nat) (s : State) : State :=
  let k : Ask := { sid := e.id, gen := e.gen, tenant := e.tenant, msgId := h.msgId, opcode := if h.kind = 0x10 then h.opcode else 0
                   alive := h.alive, gap := false, rx := rx, admitAt := rx.stamp, bodyTotal := h.bodyTotal }
  s.failBare k status reason

/-- A frame that failed step 6 or 7 ends its whole message with that step's status, in one answer (R225): that of the segmented
write that the message carries, or the step's own. -/
def State.frameFault (e : Sess) (h : Header) (rx : Rx) (status reason : Nat) (s : State) : State :=
  match e.joining h.kind h.msgId with
  | some a =>
    if a.admitted then s.cutWrite e a status reason 0 0
    else (s.endMessage e.id false a).sayFrameFault e h rx status reason
  | none => (s.noteEnded e.id h.msgId false).sayFrameFault e h rx status reason

/-- A frame handed to a row of its own. -/
def State.handOn (k : Service) (rx : Rx) (payload : Bytes) (occ : Nat) (s : State) : State :=
  s.modNet fun n => { n with inbox := n.inbox ++ [⟨k, rx, payload, occ⟩] }

/-- Steps 5 to 8 on a frame of a session. The tag of a SESSION_CONFIRM is left to its own row (R219). -/
def State.receiveOn (e : Sess) (h : Header) (rx : Rx) (occ : Nat) (b : Bytes) (s : State) : State :=
  if !e.fresh h.seq then (s.release occ).count .lyReplay 1
  else if !checkOk b then
    ((s.release occ).count .lyCheckFail 1).frameFault e h rx 0x51 1
  else if h.kind = 0x03 ∧ e.phase.isOpen = false then s.handOn .sessionConfirm rx b occ
  else if !tagOk e.kH2d e.saltH2d b then
    let s := ((s.release occ).count .lyAuthFail 1).frameFault e h rx 0x40 1
    let fails := s.elapsed :: e.authFails.filter fun t => s.elapsed < t + secs 1
    let s := s.modSess e.id fun e => { e with authFails := fails }
    if 16 ≤ fails.length then s.dropSession e.id 2 else s
  else
    let (_, lost) := e.record h.seq
    let s := s.modSess e.id fun e => { (e.record h.seq).1 with heardAt := s.elapsed, linkLost := false, tag := rx.tag }
    let s := s.count .lyFramesLost lost
    if h.seq = max64 then (s.release occ).dropSession e.id 5
    else match e.phase with
      | .open =>
        let e := (s.ses.find e.id).getD e
        if h.kind = 0x03 then (s.endOthers e h.kind h.msgId).release occ
        else if h.kind = 0x04 then (s.endOthers e h.kind h.msgId).handOn .sessionClose rx b occ
        else if e.gen = 2 then s.joinDatagram e h rx occ (frameBody b)
        else s.joinOrdered e h rx occ (frameBody b)
      | _ => s.release occ

/-- Table 9-3 on the payload of an accepted frame, of LY2 or of `LY3_ETHERTYPE`; `own` says that the frame was sent to the
endpoint address or the dawn group address. -/
def State.receive (ly2 own : Bool) (rx : Rx) (occ : Nat) (b : Bytes) (s : State) : State :=
  let kind := fieldAt 0 1 b
  let drop (k : DevCounter) (s : State) : State := (s.release occ).count k 1
  if !ly2 ∧ kind = 0xDA then s.release occ
  else if !ly2 ∧ kind = 0xDB then
    if own ∧ fieldAt 1 1 b = 1 ∧ fieldAt 2 2 b = 46 then s.handOn .solicitation rx b occ else s.release occ
  else if !ly2 ∧ kind = 0xDC then
    if s.mode = .deepSleep ∧ own then s.handOn .wake rx b occ else s.release occ
  else if !([0x01, 0x03, 0x04, 0x10, 0x13].contains kind) then drop .lyMalformed s
  else if !frameWellFormed ly2 rx.peer b then drop .lyMalformed s
  else
    let h := parseHeader b
    if kind = 0x01 then
      if checkOk b then s.handOn .sessionOpen rx b occ
      else (drop .lyCheckFail s).sayRefusal rx h.gen h.tenant h.msgId h.alive 0x51 1
    else match s.ses.find h.session with
      | none => drop .lyNoSession s
      | some e =>
        if !e.phase.live ∨ e.tenant ≠ h.tenant ∨ e.gen ≠ h.gen ∨ e.port ≠ rx.port ∨ !samePeer e.gen e.peer rx.peer then
          drop .lyNoSession s
        else if !s.vidOk e.tenant rx.tag then drop .lyVidDenied s
        else s.receiveOn e h rx occ b

/-! ## Table 11-1 -/

/-- An address of the drive may not be a source, nor may these (row 4). -/
def State.badSource4 (a : Nat) (s : State) : Bool :=
  let span := hostSpan s.cfg.inUse.protocol.v4PrefixLen
  a = 0 || decide (a / 2 ^ 24 = 127) || decide (0xE0000000 ≤ a ∧ a ≤ 0xEFFFFFFF) || a = 0xFFFFFFFF || a = s.ip4 ||
  (decide (1 < span) && decide (a / span = s.ip4 / span) && decide (a % span = span - 1))

/-- Rows 1 to 7 for an IPv4 packet, then its service. -/
def State.receiveIp4 (rx : Rx) (occ : Nat) (b : Bytes) (s : State) : State :=
  let q := rx.port
  let drop (k : PortCounter) (s : State) : State := (s.release occ).bump q k
  let total := fieldAt 2 2 b
  let src := fieldAt 12 4 b
  let dst := fieldAt 16 4 b
  let proto := fieldAt 9 1 b
  let body := slice 20 (total - 20) b
  let udpLen := fieldAt 4 2 body
  if b.length < 20 ∨ fieldAt 0 1 b ≠ 0x45 ∨ !inetOk (b.take 20) ∨ total < 28 ∨ b.length < total then drop .ipMalformed s
  else if fieldAt 6 2 b % 16384 ≠ 0 then drop .ipFragment s
  else if s.ip4 = 0 ∨ dst ≠ s.ip4 then drop .ipNotMine s
  else if s.badSource4 src then drop .ipMalformed s
  else if !((proto = 17 && fieldAt 2 2 body = s.cfg.inUse.protocol.ly2UdpPort) || (proto = 1 && fieldAt 0 1 body = 8)) then drop .ipNoService s
  else if proto = 1 then
    if inetOk body then s.handOn .echo4 rx (b.take total) occ else drop .ipChecksum s
  else if udpLen < 8 ∨ body.length < udpLen ∨ (fieldAt 6 2 body ≠ 0 ∧ !inetOk (pseudo4 src dst 17 udpLen ++ body.take udpLen)) then drop .ipChecksum s
  else
    let span := hostSpan s.cfg.inUse.protocol.v4PrefixLen
    if s.ip4 / span ≠ src / span ∧ (s.portOf q).gateway.isNone then drop .ipOffSubnet s
    else s.receive true true { rx with peer := { rx.peer with ip := some (false, src, fieldAt 0 2 body, dst) } } occ (slice 8 (udpLen - 8) body)

/-- Rows 1 to 6 for an IPv6 packet, then its service. -/
def State.receiveIp6 (rx : Rx) (occ : Nat) (b : Bytes) (s : State) : State :=
  let q := rx.port
  let drop (k : PortCounter) (s : State) : State := (s.release occ).bump q k
  let len := fieldAt 4 2 b
  let nh := fieldAt 6 1 b
  let src := fieldAt 8 16 b
  let dst := fieldAt 24 16 b
  let body := slice 40 len b
  let type := fieldAt 0 1 body
  let udpLen := fieldAt 4 2 body
  let mine := s.ip6s.contains dst
  let group := dst = allNodes || s.ip6s.any fun a => dst = 0xFF02 * 2 ^ 112 + 0x1FF * 2 ^ 24 + a % 2 ^ 24
  if b.length < 40 ∨ fieldAt 0 1 b / 16 ≠ 6 ∨ len < 8 ∨ b.length < 40 + len then drop .ipMalformed s
  else if nh = 44 then drop .ipFragment s
  else if !(mine || (nh = 58 && group)) then drop .ipNotMine s
  else if src / 2 ^ 120 = 0xFF ∨ s.ip6s.contains src ∨ (src = 0 ∧ !(nh = 58 && type = 135)) then drop .ipMalformed s
  else if !((nh = 17 && fieldAt 2 2 body = s.cfg.inUse.protocol.ly2UdpPort) || (nh = 58 && (type = 128 || type = 135 || type = 136))) then drop .ipNoService s
  else if nh = 58 then
    if !inetOk (pseudo6 src dst 58 len ++ body) then drop .ipChecksum s
    else s.handOn (if type = 128 then .echo6 else .nd) rx (b.take (40 + len)) occ
  else if udpLen < 8 ∨ body.length < udpLen ∨ fieldAt 6 2 body = 0 ∨ !inetOk (pseudo6 src dst 17 udpLen ++ body.take udpLen) then drop .ipChecksum s
  else s.receive true true { rx with peer := { rx.peer with ip := some (true, src, fieldAt 0 2 body, dst) } } occ (slice 8 (udpLen - 8) body)

/-! ## The endpoint (R162, R99, R282) -/

/-- A frame sent to the endpoint address or the dawn group address. -/
def State.isOwn (f : Frame) (s : State) : Bool := decide (f.dst = s.macInUse.toNat ∨ f.dst = dawnMac.toNat)

/-- The wake frame of this unit (R238), to the endpoint or the dawn group address. -/
def State.wakesUnit (f : Frame) (s : State) : Bool :=
  s.isOwn f && decide (f.ethertype = s.cfg.inUse.protocol.ly3Ethertype) && s.wakeFrameOk f.payload

/-- The gate of R162 step 1: closed, in Deep Sleep but for the wake frame (R88), and in Rescue but for what R282 serves. -/
def State.gatePasses (q : Port) (f : Frame) (s : State) : Bool :=
  if s.mode = .deepSleep then s.wakesUnit f
  else if s.mode = .rescue then
    let nh := fieldAt 6 1 f.payload
    let type := fieldAt 40 1 f.payload
    s.net.gateOpen && q = .A && f.ethertype = 0x86DD &&
      ((nh = 58 && (type = 128 || type = 135 || type = 136)) || (nh = 17 && fieldAt 42 2 f.payload = s.cfg.inUse.protocol.ly2UdpPort))
  else s.net.gateOpen

/-- The tests of R162 on a frame that the bridge hands over, with its time-stamp, and what takes the frame from there. -/
def State.endpoint (q : Port) (f : Frame) (stamp : Nat) (s : State) : State :=
  let s := s.pauseWhilePaused q
  let ly3 := s.cfg.inUse.protocol.ly3Ethertype
  let occ := occupancyOf f.length f.tagged
  if !s.gatePasses q f then s.count .epNotReady 1
  else if !(f.ethertype = ly3 || f.ethertype = 0x0800 || f.ethertype = 0x0806 || f.ethertype = 0x86DD) then s.count .epUnknownProtocol 1
  else if 196608 < s.net.level + occ then s.count .epBufferFull 1
  else
    let s := ((s.count .epRxAccepted 1).storeFrame q occ).activity
    let rx : Rx := { port := q, tag := f.tag, peer := { mac := BitVec.ofNat 48 f.src }, stamp := stamp, at_ := s.elapsed }
    let own := s.isOwn f
    if f.ethertype = ly3 then s.receive false own rx occ f.payload
    else if f.ethertype = 0x0806 then s.handOn .arp rx f.payload occ
    else if f.ethertype = 0x0800 then s.receiveIp4 rx occ f.payload
    else s.receiveIp6 rx occ f.payload

/-- Row 12 of Table 7-3: learning, and Table 7-5. -/
def State.bridgeFrame (q : Port) (f : Frame) (stamp : Nat) (bytes : Bytes) (s : State) : State :=
  let s := s.learn q f.src
  if f.dst = s.macInUse.toNat then s.endpoint q f stamp
  else if f.dst = broadcastMac.toNat ∨ f.dst = dawnMac.toNat ∨ s.isOwn33 f.dst then (s.forward q f bytes).endpoint q f stamp
  else if isGroup f.dst then s.forward q f bytes
  else match s.net.learned f.dst with
    | some p => if p = q then s.count .brFiltered 1 else s.forward q f bytes
    | none => (s.count .brFlood 1).forward q f bytes

/-- A frame takes its time on the wire after the one before it, so that two frames of one port never end together. -/
def State.onWire (q : Port) (length : Nat) (s : State) : State :=
  let s := s.waitUntil ((s.portOf q).rxEnd + wireNs (s.portOf q).speed length)
  s.modPort q fun p => { p with rxEnd := s.elapsed }

/-! ## Fragments (R158) -/

/-- The mCRC of the bytes of a frame sent so far: their FCS with its last two bytes inverted (PRESUMED, notes/assumptions/42.md). -/
def mcrcOf (b : Bytes) : Bytes := (fcsOf b).take 2 ++ ((fcsOf b).drop 2).map fun x => ~~~x

/-- What a packet of the line makes of the frame it belongs to. -/
inductive Joined where
  /-- the frame is whole: its bytes, the elapsed time at its message timestamp point, and whether a symbol error came in it -/
  | frame (bytes : Bytes) (begun : Nat) (bad : Bool)
  /-- fragments are still to come -/
  | part (p : RxPart)
  /-- row 1 of Table 7-3 -/
  | error
  deriving DecidableEq, Repr

/-- The bytes of a frame so far: a fragment that ends in their mCRC is not the last. -/
def joinBytes (frame next begun : Nat) (bad : Bool) (bytes : Bytes) : Joined :=
  let body := bytes.take (bytes.length - 4)
  if bytes.drop (bytes.length - 4) = mcrcOf body then .part ⟨frame, next % 4, body, begun, bad⟩ else .frame bytes begun bad

/-- A packet joined to the frame being reassembled (R158): a fragment is out of order where its count is not the one awaited,
and of an unknown frame where no fragment of that number came before it. -/
def joinPacket (part : Option RxPart) (pkt : MPacket) (begun : Nat) (bad : Bool) (bytes : Bytes) : Joined :=
  match pkt, part with
  | .whole, _ => .frame bytes begun bad
  | .first n, _ => joinBytes n 0 begun bad bytes
  | .continuation n k, some p =>
    if n = p.frame ∧ k = p.next then joinBytes n (k + 1) p.begun (bad || p.bad) (p.bytes ++ bytes) else .error
  | .continuation .., none => .error

/-- Rows 2 to 12 of Table 7-3 on a whole or reassembled frame. -/
def State.judgeFrame (q : Port) (bad : Bool) (begun : Nat) (bytes : Bytes) (s : State) : State :=
  let f := parseFrame bytes
  let m := (s.portCfg q).maxFrame
  let rx : Rx := { port := q, tag := f.tag, peer := { mac := BitVec.ofNat 48 f.src }, stamp := s.time.stampAt begun, at_ := s.elapsed }
  if bad then s.bump q .rxSymbolErr
  else if f.length < 64 then s.bump q .rxRunt
  else if (if f.tagged then m else m - 4) < f.length then s.bump q .rxOversize
  else if !f.fcsOk then s.bump q .rxFcsErr
  else if isGroup f.src ∨ f.src = 0 then s.bump q .rxBadSource
  else if f.src = s.macInUse.toNat ∨ f.src = s.fused.macPortA.toNat ∨ f.src = s.fused.macPortB.toNat then
    let s := s.bump q .rxOwnSource
    if s.dueAgain (secs 60) (s.portOf q).ownSourceAt then
      (s.modPort q fun p => { p with ownSourceAt := some s.elapsed }).event .ownSource q.index 0 0
    else s
  else if f.tagged ∧ f.tag.vid 1 = 0xFFF then s.bump q .rxVlanErr
  else
    let s := s.bump q .rxFramesOk
    if f.dst = 0x0180C2000001 ∧ f.ethertype = 0x8808 ∧ fieldAt 0 2 f.payload = 1 then
      (s.bump q .rxPause).handOn .pause rx f.payload 0
    else if f.ethertype = 0x88F7 ∧ (f.dst = 0x0180C200000E ∨ f.dst = (s.fused.macPort q).toNat) then
      (s.bump q .gptpRx).handOn .gptp rx f.payload 0
    else if (0x0180C2000000 ≤ f.dst ∧ f.dst ≤ 0x0180C200000F) ∨ f.dst = (s.fused.macPort q).toNat then s.bump q .rxLinkLocal
    else s.bridgeFrame q f rx.stamp bytes

/-- FRAME_RECEIVED (R156, R158): a packet takes its time on the wire, a fragment is joined to its frame where preemption is
active, and the frame is judged by Table 7-3. A frame whose next fragment does not come is dropped at row 1 as the next one
begins. -/
def State.frameReceived (q : Port) (pkt : MPacket) (err : RxError) (bytes : Bytes) (s : State) : State :=
  if !(s.portOf q).up then s
  else
    let s := s.onWire q bytes.length
    let p := s.portOf q
    let begun := s.elapsed - bytes.length * 8 * bitNs p.speed
    let fragment := decide (pkt ≠ .whole)
    let clear (s : State) : State := s.when fragment fun s => s.modPort q fun p => { p with rxPart := none }
    if err = .fragment ∨ (fragment ∧ p.preempt ≠ .active) then (clear s).bump q .rxFragErr
    else
      let s := s.when (p.rxPart.isSome && (match pkt with | .first _ => true | _ => false)) fun s => s.bump q .rxFragErr
      match joinPacket p.rxPart pkt begun (decide (err = .symbol)) bytes with
      | .error => (clear s).bump q .rxFragErr
      | .part x => s.modPort q fun p => { p with rxPart := some x }
      | .frame bytes begun bad => (clear s).judgeFrame q bad begun bytes

/-- FRAME_RECEIVED. -/
def execFrameReceived (q : Port) (line : RxLine) (bytes : Bytes) (s : State) : Host.Outcome State Fault Refusal :=
  (s.frameReceived q line.pkt line.err bytes).done

end Sys2Proof.Machine
end

