-- ==== Sys2Proof/Machine/SessionOps.lean ====
section
/-!
DEFINITION. Session rows: establishment (R215 to R220), closing (R221), timeouts (R215, R223, R227), cancellation (R234) and
the keepalive (R242).
-/
namespace Sys2Proof.Machine

/-! ## SESSION_OPEN -/

/-- Establishments of a tenant within the last 10 ms (R105). -/
def State.recentOpens (t : Nat) (s : State) : Nat :=
  (s.ses.establishedAt.filter fun x => x.1 = t && s.within (ms 10) x.2).length

/-- Rows 4 to 6 of Table 9-7 and the public-key check of R217 for an open. -/
def State.openRefused (h : Header) (rx : Rx) (body : Bytes) (s : State) : Option Refused :=
  let live := s.ses.sessions
  firstOf [
    (s.tenantDenied h.tenant h.gen none).map fun r => (0x41, r),
    refuseIf (!s.vidOk h.tenant rx.tag) 0x41 3,
    refuseIf (decide (s.servingMode = .sealed ∧ h.tenant ≠ 0)) 0x42 1,
    refuseIf (decide (32 ≤ live.length)) 0x22 5,
    refuseIf (decide ((s.tenant h.tenant).sessionsMax ≤ (live.filter fun e => e.tenant = h.tenant).length)) 0x22 4,
    refuseIf (decide (8 ≤ (live.filter fun e => match e.phase with | .pending _ => true | _ => false).length)) 0x31 0x13,
    refuseIf (s.limitRuns && decide (2 ≤ s.recentOpens h.tenant)) 0x31 0x12,
    s.readRefused,
    refuseIf (decide (body.length < 88) || !p256Valid (slice 24 64 body)) 0x40 3]

/-- The next identifier of R215: cyclic over 1 to 0xFFFF, skipping those in use and those closed within 1 s. `fuel` bounds
the search; at most 32 sessions live, so it ends unless 65,503 were closed within a second. -/
def State.nextId : Nat → Nat → State → Nat
  | 0, id, _ => id
  | fuel + 1, id, s =>
    let n := if id < 0xFFFF then id + 1 else 1
    if (s.ses.find n).isNone && !s.ses.closed.any (fun c => c.1 = n && s.within (secs 1) c.2) then n else State.nextId fuel n s

/-- GRANTED_ALIVE_TIMEOUT_MS (R223), as the field holds it. -/
def grantedAlive (gen req : Nat) : Nat :=
  if gen = 3 then (if req = 0 then 1000 else min 10000 (max 10 req))
  else if req = 0 then 60000 else min 600000 (max 1000 req)

/-- GRANTED_WINDOW (Tables 9-4 and 9-5). -/
def grantedWindow (req most : Nat) : Nat := min (if 1 ≤ req ∧ req ≤ 32 then req else 32) most

/-- The body of SESSION_ACCEPT (Table 9-5). -/
def State.acceptBody (window alive version : Nat) (nonce pub : Bytes) (s : State) : Bytes :=
  beBytes 2 window ++ beBytes 2 (min 0xFFFF alive) ++ beBytes 4 s.startCount ++ beBytes 8 s.fused.unitId ++ nonce ++ pub ++
  beBytes 4 version ++ zeros 4

/-- An open accepted (R217, R218): the pending handshake and its SESSION_ACCEPT. -/
def State.accept (rx : Rx) (h : Header) (b : Bytes) (s : State) : State :=
  let body := frameBody b
  let id := s.nextId 0xFFFF s.ses.lastId
  let (tk, version) := (s.credential h.tenant).getD ([], 0)
  let window := grantedWindow (fieldAt 0 2 body) (s.tenant h.tenant).window
  let alive := grantedAlive h.gen (fieldAt 2 2 body)
  let (nonce, s) := s.random 16
  let (bits, s) := s.random 40
  let priv := p256Private bits
  let accept := s.acceptBody window alive version nonce (p256Public priv)
  let m : LyMsg := { kind := 0x02, gen := h.gen, tenant := h.tenant, session := id, msgId := h.msgId, body := .raw accept,
                     risk := s.power.deadlineRisk }
  let z := ecdhX priv (slice 24 64 body)
  let head := (m.encodeFrame (bodyLimit h.gen rx.peer) 0).take (32 + accept.length)
  let (kH2d, kD2h, saltH2d, saltD2h) := sessionKeys z tk (sha256 (b.take (b.length - 20) ++ head))
  let e : Sess :=
    { id := id, tenant := h.tenant, gen := h.gen, port := rx.port, peer := rx.peer, phase := .pending s.elapsed, window := window
      aliveMs := alive, kH2d := kH2d, kD2h := kD2h, saltH2d := saltH2d, saltD2h := saltD2h, top := 0, seen := 1, driveSeq := 0
      heardAt := s.elapsed, tag := rx.tag }
  let s := s.modSes fun x => { x with
    sessions := x.sessions ++ [e], lastId := id
    establishedAt := (h.tenant, s.elapsed) :: x.establishedAt.filter fun y => s.within (ms 10) y.2 }
  s.say id rx s.timeNs m

/-- SESSION_OPEN (R217): the open is decided, or aborted by a tamper alarm (R220). -/
def State.sessionOpen (tampered : Bool) (s : State) : State :=
  match s.takeFrame .sessionOpen with
  | (none, s) => s
  | (some f, s) =>
    let h := parseHeader f.payload
    match s.openRefused h f.rx (frameBody f.payload) with
    | some (st, r) => s.sayRefusal f.rx h.gen h.tenant h.msgId h.alive st r
    | none => if tampered then s.sayRefusal f.rx h.gen h.tenant h.msgId h.alive 0x42 2 else s.accept f.rx h f.payload

/-- SESSION_OPEN. -/
def execSessionOpen (tampered : Bool) (s : State) : Host.Outcome State Fault Refusal := (s.sessionOpen tampered).done

/-! ## SESSION_CONFIRM and the end of a handshake -/

/-- The answer to a confirm on its session (R219). -/
def State.answerConfirm (e : Sess) (h : Header) (rx : Rx) (status reason : Nat) (s : State) : State :=
  s.say e.id rx s.timeNs
    { kind := 0x11, gen := e.gen, tenant := e.tenant, session := e.id, msgId := h.msgId, alive := h.alive, status := status
      reason := reason, body := if e.gen = 1 then .raw [] else .answer { admitAt := rx.stamp } }

/-- SESSION_CONFIRM (R219, R220); while the entry to Deep Sleep is under way it is refused (R87). -/
def State.sessionConfirm (tampered : Bool) (s : State) : State :=
  match s.takeFrame .sessionConfirm with
  | (none, s) => s
  | (some f, s) =>
    let h := parseHeader f.payload
    match s.ses.find h.session with
    | some e => match e.phase with
      | .pending _ =>
        if tampered then (s.removeSess e.id).sayRefusal f.rx e.gen e.tenant h.msgId h.alive 0x42 2
        else if tagOk e.kH2d e.saltH2d f.payload then
          if s.power.sleep ≠ .awake then (s.answerConfirm e h f.rx 0x31 0x14).removeSess e.id
          else (s.modSess e.id fun e => { e with phase := .open, top := 1, seen := 1, heardAt := s.elapsed, tag := f.rx.tag }).answerConfirm e h f.rx 0 0
        else ((s.count .lyAuthFail 1).answerConfirm e h f.rx 0x40 2).removeSess e.id
      | _ => s
    | none => s

/-- SESSION_CONFIRM. -/
def execSessionConfirm (tampered : Bool) (s : State) : Host.Outcome State Fault Refusal := (s.sessionConfirm tampered).done

/-- HANDSHAKE_EXPIRED (Table 9-6): a pending handshake is discarded 100 ms after its SESSION_ACCEPT. -/
def State.handshakeExpired (sid : Nat) (s : State) : State :=
  match s.ses.find sid with
  | none => s
  | some e => match e.phase with
    | .pending since => (s.waitUntil (since + ms 100)).removeSess sid
    | _ => s

/-- HANDSHAKE_EXPIRED. -/
def execHandshakeExpired (sid : Nat) (s : State) : Host.Outcome State Fault Refusal := (s.handshakeExpired sid).done

/-! ## SESSION_CLOSE, ALIVE_TIMEOUT -/

/-- SESSION_CLOSE (R221). -/
def State.sessionClose (s : State) : State :=
  match s.takeFrame .sessionClose with
  | (none, s) => s
  | (some f, s) =>
    let h := parseHeader f.payload
    match s.ses.find h.session with
    | none => s
    | some e =>
      if !e.phase.isOpen then s
      else
        let admitAt := s.admission f.rx.stamp
        let s := (s.modSess e.id fun e => { e with phase := .closing h.msgId h.alive false { f.rx with stamp := admitAt } false }).noteAdmission admitAt
        let s := s.dropAssemblies e.id
        (if bit (fieldAt 3 1 (frameBody f.payload)) 0 then s.cancelAll e.id else s).settleCloses

/-- SESSION_CLOSE. -/
def execSessionClose (s : State) : Host.Outcome State Fault Refusal := s.sessionClose.done

/-- ALIVE_TIMEOUT (R223): cause 0x07 where the peer's link went down and stayed down, else 0x01. The timer stands still
while the ingress gate is closed. -/
def State.aliveTimeout (sid : Nat) (s : State) : State :=
  match s.ses.find sid with
  | none => s
  | some e =>
    if !e.phase.isOpen ∨ !s.net.gateOpen then s
    else (s.waitUntil (e.heardAt + ms e.aliveMs)).dropSession sid (if e.linkLost && !(s.portOf e.port).up then 7 else 1)

/-- ALIVE_TIMEOUT. -/
def execAliveTimeout (sid : Nat) (s : State) : Host.Outcome State Fault Refusal := (s.aliveTimeout sid).done

/-! ## MESSAGE_ASSEMBLY_TIMEOUT (R227) -/

/-- The instant at which an incomplete message ends. -/
def Assembly.due (gen : Nat) (a : Assembly) : Nat := if gen = 2 then a.firstAt + ms 100 else a.lastAt + ms 10

/-- MESSAGE_ASSEMBLY_TIMEOUT: an incomplete message ends with INTEGRITY 0x03, and a segmented write under way is cut. -/
def State.assemblyTimeout (sid kind msgId : Nat) (s : State) : State :=
  match s.ses.find sid with
  | none => s
  | some e => match e.joining kind msgId with
    | none => s
    | some a => if !s.net.gateOpen then s else (s.waitUntil (a.due e.gen)).endIncomplete e a

/-- MESSAGE_ASSEMBLY_TIMEOUT. -/
def execMessageAssemblyTimeout (sid kind msgId : Nat) (s : State) : Host.Outcome State Fault Refusal :=
  (s.assemblyTimeout sid kind msgId).done

/-! ## CANCEL (R234) -/

/-- The answer to a CANCEL: the header alone on LY1, the prefix on LY2 and LY3. -/
def State.answerCancel (a : Ask) (status reason : Nat) (s : State) : State :=
  s.say a.sid a.rx a.admitAt
    { kind := 0x11, gen := a.gen, tenant := a.tenant, session := a.sid, msgId := a.msgId, alive := a.alive, status := status
      reason := reason, aliveGap := a.gap, body := if a.gen = 1 then .raw [] else .answer { admitAt := a.admitAt }, first := decide (a.gen = 3) }

/-- CANCEL: rows 4 and 5 of Table 9-7, then the race with the target's commit point. -/
def State.cancel (sid msgId : Nat) (s : State) : State :=
  match s.ses.find sid with
  | none => s
  | some e => match e.message 0x13 msgId with
    | none => s
    | some c =>
      if !e.phase.answers ∨ !s.net.gateOpen ∨ !c.complete then s
      else
        let s := s.takeMessage sid c
        let a := { c.ask e with admitAt := s.admission c.stamp }
        let s := s.noteAdmission a.admitAt
        match s.tenantDenied e.tenant e.gen none with
        | some r => s.answerCancel a 0x41 r
        | none =>
          if s.servingMode = .sealed ∧ e.tenant ≠ 0 then s.answerCancel a 0x42 1
          else match (fieldAt? 0 4 c.body).bind e.flight with
            | none => s.answerCancel a 0x10 3
            | some f =>
              if f.committed then s.answerCancel a 0x61 0
              else
                let s := s.dropOps fun p => p = .held sid f.msgId
                (s.answerCancel a 0x60 0).cancelFlight e f

/-- CANCEL. -/
def execCancel (sid msgId : Nat) (s : State) : Host.Outcome State Fault Refusal := (s.cancel sid msgId).done

/-! ## KEEPALIVE -/

/-- KEEPALIVE (R242): answered inline, with no effect but the session kept alive. -/
def State.keepalive (sid msgId : Nat) (s : State) : State :=
  match s.takeRequest sid msgId false [0x01] with
  | (none, s) => s
  | (some x, s) =>
    let p := parseBody false x.body
    match firstOf [refuseIf (decide (p.keyLen ≠ 0)) 0x13 1, refuseIf (decide (x.body.length < 20)) 0x13 2, s.readRefused] with
    | some (st, r) => s.fail x.ask st r {}
    | none => s.finish x.ask 0 0 {}

/-- KEEPALIVE. -/
def execKeepalive (sid msgId : Nat) (s : State) : Host.Outcome State Fault Refusal := (s.keepalive sid msgId).done

end Sys2Proof.Machine
end

