-- ==== Sys2Proof/Machine/Dispatch.lean ====
section
/-!
DEFINITION. The meaning of each command: one arm per constructor of Instr.
-/
namespace Sys2Proof.Machine

/-- The effect of a command on everything but the queue. -/
def exec (i : Instr) (s : State) : Host.Outcome State Fault Refusal :=
  match i with
  | .vinValid resetLow env => Sys2Proof.Machine.execVinValid resetLow env s
  | .readyEntry => Sys2Proof.Machine.execReadyEntry s
  | .resetNRecognised => Sys2Proof.Machine.execResetNRecognised s
  | .resetNHeldCold => Sys2Proof.Machine.execResetNHeldCold s
  | .resetNReleased env => Sys2Proof.Machine.execResetNReleased env s
  | .vinBelowWarning vin => Sys2Proof.Machine.execVinBelowWarning vin s
  | .pfwNWarning => Sys2Proof.Machine.execPfwNWarning s
  | .braceExit vin => Sys2Proof.Machine.execBraceExit vin s
  | .supplyUnstableRearm => Sys2Proof.Machine.execSupplyUnstableRearm s
  | .vinBelowCut vin paid => Sys2Proof.Machine.execVinBelowCut vin paid s
  | .inputCollapse vin reverse paid => Sys2Proof.Machine.execInputCollapse vin reverse paid s
  | .overvoltage vin paid => Sys2Proof.Machine.execOvervoltage vin paid s
  | .postDuskHoldEnd resetLow vinValid env => Sys2Proof.Machine.execPostDuskHoldEnd resetLow vinValid env s
  | .referenceClockLost paid => Sys2Proof.Machine.execReferenceClockLost paid s
  | .referenceClockReturn env => Sys2Proof.Machine.execReferenceClockReturn env s
  | .thermalShutdown junction paid => Sys2Proof.Machine.execThermalShutdown junction paid s
  | .junctionCooled env => Sys2Proof.Machine.execJunctionCooled env s
  | .deadlineRisk j pace => Sys2Proof.Machine.execDeadlineRisk j pace s
  | .deadlineLapse j pace => Sys2Proof.Machine.execDeadlineLapse j pace s
  | .deadlineRiskCleared j => Sys2Proof.Machine.execDeadlineRiskCleared j s
  | .wakeInput => Sys2Proof.Machine.execWakeInput s
  | .svcEnIgnored len => Sys2Proof.Machine.execSvcEnIgnored len s
  | .servicePortOpen => Sys2Proof.Machine.execServicePortOpen s
  | .servicePortClose env => Sys2Proof.Machine.execServicePortClose env s
  | .tamperSample r => Sys2Proof.Machine.execTamperSample r s
  | .lockDrainComplete => Sys2Proof.Machine.execLockDrainComplete s
  | .linkUp q speed resolved => Sys2Proof.Machine.execLinkUp q speed resolved s
  | .linkDown q => Sys2Proof.Machine.execLinkDown q s
  | .sgmiiStatusChange q up speed full => Sys2Proof.Machine.execSgmiiStatusChange q up speed full s
  | .preemptVerifyDone q ok => Sys2Proof.Machine.execPreemptVerifyDone q ok s
  | .frameReceived q line bytes => Sys2Proof.Machine.execFrameReceived q line bytes s
  | .pauseFrameReceived => Sys2Proof.Machine.execPauseFrameReceived s
  | .pauseQuantaExpired q => Sys2Proof.Machine.execPauseQuantaExpired q s
  | .pauseRepeat q => Sys2Proof.Machine.execPauseRepeat q s
  | .learnEntryAged mac => Sys2Proof.Machine.execLearnEntryAged mac s
  | .txQueueTimeout q => Sys2Proof.Machine.execTxQueueTimeout q s
  | .epTxExpired q => Sys2Proof.Machine.execEpTxExpired q s
  | .egressSelect q sent => Sys2Proof.Machine.execEgressSelect q sent s
  | .statActExpired => Sys2Proof.Machine.execStatActExpired s
  | .gptpFrameReceived => Sys2Proof.Machine.execGptpFrameReceived s
  | .syncReceiptTimeout => Sys2Proof.Machine.execSyncReceiptTimeout s
  | .syncSend => Sys2Proof.Machine.execSyncSend s
  | .pdelayRequest => Sys2Proof.Machine.execPdelayRequest s
  | .ppsOutEdge => Sys2Proof.Machine.execPpsOutEdge s
  | .ppsInEdge lowNs highNs => Sys2Proof.Machine.execPpsInEdge lowNs highNs s
  | .gateEntryStart q => Sys2Proof.Machine.execGateEntryStart q s
  | .dawnRepeat => Sys2Proof.Machine.execDawnRepeat s
  | .dawnSolicitation => Sys2Proof.Machine.execDawnSolicitation s
  | .startLimitWindowClose => Sys2Proof.Machine.execStartLimitWindowClose s
  | .wakeFrame => Sys2Proof.Machine.execWakeFrame s
  | .arpRequest => Sys2Proof.Machine.execArpRequest s
  | .arpGatewayTimer q => Sys2Proof.Machine.execArpGatewayTimer q s
  | .neighborSolicitation => Sys2Proof.Machine.execNeighborSolicitation s
  | .echoRequest v6 => Sys2Proof.Machine.execEchoRequest v6 s
  | .sessionOpen tampered => Sys2Proof.Machine.execSessionOpen tampered s
  | .sessionConfirm tampered => Sys2Proof.Machine.execSessionConfirm tampered s
  | .sessionClose => Sys2Proof.Machine.execSessionClose s
  | .handshakeExpired sid => Sys2Proof.Machine.execHandshakeExpired sid s
  | .aliveTimeout sid => Sys2Proof.Machine.execAliveTimeout sid s
  | .messageAssemblyTimeout sid kind msgId => Sys2Proof.Machine.execMessageAssemblyTimeout sid kind msgId s
  | .cancel sid msgId => Sys2Proof.Machine.execCancel sid msgId s
  | .keepalive sid msgId => Sys2Proof.Machine.execKeepalive sid msgId s
  | .get sid msgId => Sys2Proof.Machine.execGet sid msgId s
  | .put sid msgId poison => Sys2Proof.Machine.execPut sid msgId poison s
  | .append sid msgId poison => Sys2Proof.Machine.execAppend sid msgId poison s
  | .delete sid msgId => Sys2Proof.Machine.execDelete sid msgId s
  | .rangeRead sid msgId => Sys2Proof.Machine.execRangeRead sid msgId s
  | .rangeDelete sid msgId => Sys2Proof.Machine.execRangeDelete sid msgId s
  | .pin sid msgId => Sys2Proof.Machine.execPin sid msgId s
  | .unpin sid msgId => Sys2Proof.Machine.execUnpin sid msgId s
  | .rangeLockGrant => Sys2Proof.Machine.execRangeLockGrant s
  | .heldCompletion sid msgId o => Sys2Proof.Machine.execHeldCompletion sid msgId o s
  | .segmentStage sid msgId poison => Sys2Proof.Machine.execSegmentStage sid msgId poison s
  | .segmentCut sid msgId => Sys2Proof.Machine.execSegmentCut sid msgId s
  | .nop sid msgId => Sys2Proof.Machine.execNop sid msgId s
  | .readSectors sid msgId o => Sys2Proof.Machine.execReadSectors sid msgId o s
  | .writeSectors sid msgId poison => Sys2Proof.Machine.execWriteSectors sid msgId poison s
  | .trim sid msgId => Sys2Proof.Machine.execTrim sid msgId s
  | .flush sid msgId => Sys2Proof.Machine.execFlush sid msgId s
  | .statusRead sid msgId => Sys2Proof.Machine.execStatusRead sid msgId s
  | .identifyWindow sid msgId => Sys2Proof.Machine.execIdentifyWindow sid msgId s
  | .identify sid msgId => Sys2Proof.Machine.execIdentify sid msgId s
  | .getLog sid msgId => Sys2Proof.Machine.execGetLog sid msgId s
  | .logSnapshot sid msgId => Sys2Proof.Machine.execLogSnapshot sid msgId s
  | .snapshotExpired id => Sys2Proof.Machine.execSnapshotExpired id s
  | .answerCacheExpired sid msgId => Sys2Proof.Machine.execAnswerCacheExpired sid msgId s
  | .getFeature sid msgId => Sys2Proof.Machine.execGetFeature sid msgId s
  | .setFeature sid msgId => Sys2Proof.Machine.execSetFeature sid msgId s
  | .restart sid msgId env => Sys2Proof.Machine.execRestart sid msgId env s
  | .deepSleep sid msgId => Sys2Proof.Machine.execDeepSleep sid msgId s
  | .deepSleepEntryComplete wakeHigh => Sys2Proof.Machine.execDeepSleepEntryComplete wakeHigh s
  | .closeSession sid msgId => Sys2Proof.Machine.execCloseSession sid msgId s
  | .clearFaults sid msgId => Sys2Proof.Machine.execClearFaults sid msgId s
  | .fwBegin sid msgId => Sys2Proof.Machine.execFwBegin sid msgId s
  | .fwData sid msgId fails => Sys2Proof.Machine.execFwData sid msgId fails s
  | .fwVerify sid msgId fails => Sys2Proof.Machine.execFwVerify sid msgId fails s
  | .fwGraft sid msgId => Sys2Proof.Machine.execFwGraft sid msgId s
  | .graftHandover loaded ns => Sys2Proof.Machine.execGraftHandover loaded ns s
  | .fwActivate sid msgId => Sys2Proof.Machine.execFwActivate sid msgId s
  | .activation env => Sys2Proof.Machine.execActivation env s
  | .fwConfirm sid msgId => Sys2Proof.Machine.execFwConfirm sid msgId s
  | .fwAbort sid msgId => Sys2Proof.Machine.execFwAbort sid msgId s
  | .fwDownloadTimeout => Sys2Proof.Machine.execFwDownloadTimeout s
  | .confirmWindowExpired => Sys2Proof.Machine.execConfirmWindowExpired s
  | .secStatus sid msgId => Sys2Proof.Machine.execSecStatus sid msgId s
  | .secUnlock sid msgId => Sys2Proof.Machine.execSecUnlock sid msgId s
  | .secSetCredential sid msgId => Sys2Proof.Machine.execSecSetCredential sid msgId s
  | .secResetCredential sid msgId => Sys2Proof.Machine.execSecResetCredential sid msgId s
  | .secEraseTenant sid msgId => Sys2Proof.Machine.execSecEraseTenant sid msgId s
  | .watchdogCheckIn activity env => Sys2Proof.Machine.execWatchdogCheckIn activity env s
  | .watchdogExpiry env => Sys2Proof.Machine.execWatchdogExpiry env s
  | .scanJobComplete own => Sys2Proof.Machine.execScanJobComplete own s
  | .ch0Sample pace => Sys2Proof.Machine.execCh0Sample pace s
  | .ch1Sample mv => Sys2Proof.Machine.execCh1Sample mv s
  | .windbreakLoopSample junction pace => Sys2Proof.Machine.execWindbreakLoopSample junction pace s
  | .rateEstimatorSample mv => Sys2Proof.Machine.execRateEstimatorSample mv s
  | .bankTestStart => Sys2Proof.Machine.execBankTestStart s
  | .bankTestComplete stepMv fallUs => Sys2Proof.Machine.execBankTestComplete stepMv fallUs s
  | .bankTestTimeout => Sys2Proof.Machine.execBankTestTimeout s
  | .bankChargeJudged bankMv => Sys2Proof.Machine.execBankChargeJudged bankMv s
  | .drainExtentComplete id pages => Sys2Proof.Machine.execDrainExtentComplete id pages s
  | .dieOperationComplete die r => Sys2Proof.Machine.execDieOperationComplete die r s
  | .operationAgePromote op => Sys2Proof.Machine.execOperationAgePromote op s
  | .dieTimeout die ready => Sys2Proof.Machine.execDieTimeout die ready s
  | .programRetryBackoff id => Sys2Proof.Machine.execProgramRetryBackoff id s
  | .scrubDue die block => Sys2Proof.Machine.execScrubDue die block s
  | .bgCollectionIdle => Sys2Proof.Machine.execBgCollectionIdle s
  | .journalFlush => Sys2Proof.Machine.execJournalFlush s
  | .expirySweep => Sys2Proof.Machine.execExpirySweep s
  | .backstopExpiry sid msgId => Sys2Proof.Machine.execBackstopExpiry sid msgId s
  | .statusBlinkToggle fault => Sys2Proof.Machine.execStatusBlinkToggle fault s
  | .ppsOutFallingEdge => Sys2Proof.Machine.execPpsOutFallingEdge s
  | .inputProtectionTrip vin => Sys2Proof.Machine.execInputProtectionTrip vin s
  | .moduleSupplyFails => Sys2Proof.Machine.execModuleSupplyFails s
  | .trstNLow => Sys2Proof.Machine.execTrstNLow s
  | .tckEdge rising tms tdi => Sys2Proof.Machine.execTckEdge rising tms tdi s
  | .creditPerBitTime q cls => Sys2Proof.Machine.execCreditPerBitTime q cls s
  | .announceSend => Sys2Proof.Machine.execAnnounceSend s
  | .announceReceiptTimeout q => Sys2Proof.Machine.execAnnounceReceiptTimeout q s
  | .temperatureHistoryInterval mean => Sys2Proof.Machine.execTemperatureHistoryInterval mean s

end Sys2Proof.Machine
end

