-- ==== Sys2Proof/Safety.lean ====
section
/-!
DEFINITION. The terms in which claims speak of a run: the parts of the state that a command may touch, and the conditions
that every state of a run keeps.
-/
namespace Sys2Proof.Machine

/-- The parts of the state. `outputs` are the two status outputs and the instant at which they last came alive, `start` the
rest of the start state. -/
inductive Area where
  | queue | mode | clock | draws | fused | cfg | log | admin | net | time | ses | store | power | reg | start | outputs
  | media | journal | watch | sec | fw | startCount
  deriving DecidableEq, Repr

/-- A part of the state is the same in two states. -/
def sameIn (a : Area) (s t : State) : Prop :=
  match a with
  | .queue => t.pending = s.pending
  | .mode => t.mode = s.mode
  | .clock => t.elapsed = s.elapsed
  | .draws => t.draws = s.draws
  | .fused => t.fused = s.fused
  | .cfg => t.cfg = s.cfg
  | .log => t.log = s.log
  | .admin => t.admin = s.admin
  | .net => t.net = s.net
  | .time => t.time = s.time
  | .ses => t.ses = s.ses
  | .store => t.store = s.store
  | .power => t.power = s.power
  | .reg => t.reg = s.reg
  | .start =>
    { t.start with statReady := s.start.statReady, statFault := s.start.statFault,
                   releasedAt := s.start.releasedAt } = s.start
  | .outputs => t.start.statReady = s.start.statReady ∧ t.start.statFault = s.start.statFault ∧
      t.start.releasedAt = s.start.releasedAt
  | .media => t.media = s.media
  | .journal => t.journal = s.journal
  | .watch => t.watch = s.watch
  | .sec => t.sec = s.sec
  | .fw => t.fw = s.fw
  | .startCount => t.startCount = s.startCount

/-- Nothing but the listed parts differs between two states. -/
structure Only (l : List Area) (s t : State) : Prop where
  same : ∀ a, l.contains a = false → sameIn a s t

/-- The parts of the state that a command can touch, whatever its operands. -/
def touches : Instr → List Area
  | .vinValid .. =>
    [.mode, .clock, .draws, .cfg, .log, .admin, .net, .time, .ses, .store, .power, .reg, .start, .outputs, .media,
      .journal, .watch, .sec, .fw, .startCount]
  | .readyEntry => [.mode, .log, .net, .power, .start, .outputs, .media]
  | .resetNRecognised =>
    [.mode, .clock, .draws, .cfg, .log, .admin, .net, .time, .ses, .store, .power, .reg, .start, .outputs, .media,
      .journal, .watch, .sec, .fw, .startCount]
  | .resetNHeldCold =>
    [.mode, .clock, .draws, .cfg, .log, .admin, .net, .time, .ses, .store, .power, .reg, .start, .outputs, .media,
      .journal, .watch, .sec, .fw]
  | .resetNReleased .. =>
    [.mode, .clock, .draws, .cfg, .log, .admin, .net, .time, .ses, .store, .power, .reg, .start, .outputs, .media,
      .journal, .watch, .sec, .fw, .startCount]
  | .vinBelowWarning .. => [.mode, .log, .power, .reg, .outputs]
  | .pfwNWarning => [.mode, .log, .power, .reg, .outputs]
  | .braceExit .. => [.mode, .clock, .log, .power, .reg, .start, .outputs, .media, .fw]
  | .supplyUnstableRearm => [.clock, .power, .outputs]
  | .vinBelowCut .. =>
    [.mode, .log, .admin, .net, .time, .ses, .store, .power, .reg, .start, .outputs, .media, .journal, .watch, .fw]
  | .inputCollapse .. =>
    [.mode, .log, .admin, .net, .time, .ses, .store, .power, .reg, .start, .outputs, .media, .journal, .watch, .fw]
  | .overvoltage .. =>
    [.mode, .log, .admin, .net, .time, .ses, .store, .power, .reg, .start, .outputs, .media, .journal, .watch, .fw]
  | .postDuskHoldEnd .. =>
    [.mode, .clock, .draws, .cfg, .log, .admin, .net, .time, .ses, .store, .power, .reg, .start, .outputs, .media,
      .journal, .watch, .sec, .fw, .startCount]
  | .referenceClockLost .. =>
    [.mode, .log, .admin, .net, .time, .ses, .store, .power, .reg, .start, .outputs, .media, .journal, .watch, .fw]
  | .referenceClockReturn .. =>
    [.mode, .clock, .draws, .cfg, .log, .admin, .net, .time, .ses, .store, .power, .reg, .start, .outputs, .media,
      .journal, .watch, .sec, .fw, .startCount]
  | .thermalShutdown .. =>
    [.mode, .log, .admin, .net, .time, .ses, .store, .power, .reg, .start, .outputs, .media, .journal, .watch, .fw]
  | .junctionCooled .. =>
    [.mode, .clock, .draws, .cfg, .log, .admin, .net, .time, .ses, .store, .power, .reg, .start, .outputs, .media,
      .journal, .watch, .sec, .fw, .startCount]
  | .deadlineRisk .. => [.log, .admin, .power, .outputs]
  | .deadlineLapse .. => [.log, .admin, .power, .outputs]
  | .deadlineRiskCleared .. => [.log, .admin, .power, .outputs]
  | .wakeInput => [.mode, .log, .admin, .net, .ses, .store, .power, .reg, .start, .outputs, .media, .watch]
  | .svcEnIgnored .. => [.draws, .log, .net, .start, .outputs]
  | .servicePortOpen =>
    [.mode, .draws, .log, .admin, .net, .ses, .store, .power, .reg, .start, .outputs, .media, .journal, .watch,
      .sec, .fw]
  | .servicePortClose .. =>
    [.mode, .clock, .draws, .cfg, .log, .admin, .net, .time, .ses, .store, .power, .reg, .start, .outputs, .media,
      .journal, .watch, .sec, .fw, .startCount]
  | .tamperSample .. =>
    [.mode, .draws, .log, .admin, .net, .ses, .store, .power, .reg, .start, .outputs, .media, .journal, .watch,
      .sec, .fw]
  | .lockDrainComplete => [.log, .store, .outputs, .media, .journal, .sec]
  | .linkUp .. => [.log, .admin, .net, .time, .ses, .start, .outputs, .fw]
  | .linkDown .. => [.log, .admin, .net, .time, .ses, .outputs, .fw]
  | .sgmiiStatusChange .. => [.log, .admin, .net, .time, .ses, .start, .outputs, .fw]
  | .preemptVerifyDone .. => [.clock, .log, .net, .outputs]
  | .frameReceived .. => [.clock, .log, .admin, .net, .time, .ses, .store, .outputs, .media, .fw]
  | .pauseFrameReceived => [.net, .outputs]
  | .pauseQuantaExpired .. => [.clock, .net, .outputs]
  | .pauseRepeat .. => [.clock, .net, .outputs]
  | .learnEntryAged .. => [.clock, .net, .outputs]
  | .txQueueTimeout .. => [.clock, .net, .outputs]
  | .epTxExpired .. => [.clock, .log, .admin, .net, .ses, .outputs, .fw]
  | .egressSelect .. =>
    [.mode, .clock, .draws, .cfg, .log, .admin, .net, .time, .ses, .store, .power, .reg, .start, .outputs, .media,
      .journal, .watch, .sec, .fw, .startCount]
  | .statActExpired => [.clock, .net, .outputs]
  | .gptpFrameReceived => [.draws, .log, .net, .time, .outputs]
  | .syncReceiptTimeout => [.clock, .log, .time, .outputs]
  | .syncSend => [.clock, .net, .time, .outputs]
  | .pdelayRequest => [.clock, .net, .time, .outputs]
  | .ppsOutEdge => [.clock, .time, .outputs]
  | .ppsInEdge .. => [.clock, .draws, .log, .net, .time, .outputs]
  | .gateEntryStart .. => [.clock, .net, .outputs]
  | .dawnRepeat => [.clock, .net, .start, .outputs]
  | .dawnSolicitation => [.net, .outputs]
  | .startLimitWindowClose => [.clock, .start, .outputs]
  | .wakeFrame => [.mode, .log, .admin, .net, .ses, .store, .power, .reg, .start, .outputs, .media, .watch]
  | .arpRequest => [.log, .net, .outputs]
  | .arpGatewayTimer .. => [.clock, .net, .outputs]
  | .neighborSolicitation => [.log, .net, .outputs]
  | .echoRequest .. => [.net, .outputs]
  | .sessionOpen .. => [.draws, .net, .ses, .outputs]
  | .sessionConfirm .. => [.log, .admin, .net, .ses, .outputs, .fw]
  | .sessionClose => [.log, .net, .time, .ses, .store, .outputs]
  | .handshakeExpired .. => [.clock, .log, .admin, .ses, .outputs, .fw]
  | .aliveTimeout .. => [.clock, .log, .admin, .net, .ses, .store, .outputs, .fw]
  | .messageAssemblyTimeout .. => [.clock, .log, .net, .ses, .store, .outputs, .media]
  | .cancel .. => [.log, .net, .time, .ses, .store, .outputs, .media]
  | .keepalive .. => [.log, .net, .time, .ses, .outputs]
  | .get .. => [.draws, .log, .net, .time, .ses, .store, .outputs, .media]
  | .put .. => [.log, .net, .time, .ses, .store, .reg, .outputs, .media]
  | .append .. => [.log, .net, .time, .ses, .store, .reg, .outputs, .media]
  | .delete .. => [.log, .net, .time, .ses, .store, .reg, .outputs, .media]
  | .rangeRead .. => [.draws, .log, .net, .time, .ses, .store, .outputs]
  | .rangeDelete .. => [.draws, .log, .net, .time, .ses, .store, .outputs]
  | .pin .. => [.draws, .log, .net, .time, .ses, .store, .outputs, .media, .journal]
  | .unpin .. => [.log, .net, .time, .ses, .store, .outputs, .journal]
  | .rangeLockGrant => [.ses, .store, .outputs]
  | .heldCompletion .. => [.mode, .log, .net, .ses, .store, .power, .reg, .start, .outputs, .media, .journal]
  | .segmentStage .. => [.clock, .log, .net, .ses, .store, .reg, .outputs, .media, .journal]
  | .segmentCut .. => [.clock, .log, .net, .ses, .store, .reg, .outputs, .media]
  | .nop .. => [.draws, .log, .net, .time, .ses, .outputs]
  | .readSectors .. => [.mode, .draws, .log, .net, .time, .ses, .power, .start, .outputs, .media, .journal]
  | .writeSectors .. => [.draws, .log, .net, .time, .ses, .store, .reg, .outputs, .media]
  | .trim .. => [.draws, .log, .net, .time, .ses, .store, .outputs]
  | .flush .. => [.draws, .log, .net, .time, .ses, .outputs]
  | .statusRead .. => [.draws, .log, .net, .time, .ses, .outputs]
  | .identifyWindow .. => [.draws, .log, .net, .time, .ses, .outputs]
  | .identify .. => [.draws, .log, .net, .time, .ses, .outputs]
  | .getLog .. => [.draws, .log, .net, .time, .ses, .outputs]
  | .logSnapshot .. => [.draws, .log, .net, .time, .ses, .outputs]
  | .snapshotExpired .. => [.clock, .admin, .outputs]
  | .answerCacheExpired .. => [.clock, .ses, .outputs]
  | .getFeature .. => [.draws, .log, .net, .time, .ses, .outputs]
  | .setFeature .. => [.draws, .log, .net, .time, .ses, .outputs]
  | .restart .. => [.draws, .log, .net, .time, .ses, .start, .outputs]
  | .deepSleep .. => [.draws, .log, .net, .time, .ses, .outputs]
  | .deepSleepEntryComplete .. =>
    [.mode, .log, .admin, .net, .ses, .store, .power, .reg, .start, .outputs, .media, .journal, .watch]
  | .closeSession .. => [.draws, .log, .net, .time, .ses, .outputs]
  | .clearFaults .. => [.draws, .log, .net, .time, .ses, .outputs]
  | .fwBegin .. => [.draws, .log, .net, .time, .ses, .outputs, .fw]
  | .fwData .. => [.draws, .log, .net, .time, .ses, .outputs, .fw]
  | .fwVerify .. => [.draws, .log, .net, .time, .ses, .outputs, .watch, .fw]
  | .fwGraft .. => [.draws, .log, .net, .time, .ses, .power, .reg, .outputs, .fw]
  | .graftHandover .. => [.log, .net, .ses, .outputs, .fw]
  | .fwActivate .. => [.draws, .log, .net, .time, .ses, .outputs, .fw]
  | .activation .. =>
    [.mode, .clock, .draws, .cfg, .log, .admin, .net, .time, .ses, .store, .power, .reg, .start, .outputs, .media,
      .journal, .watch, .sec, .fw, .startCount]
  | .fwConfirm .. => [.draws, .log, .net, .time, .ses, .outputs, .fw]
  | .fwAbort .. => [.draws, .log, .net, .time, .ses, .outputs, .fw]
  | .fwDownloadTimeout => [.clock, .log, .outputs, .watch, .fw]
  | .confirmWindowExpired => [.clock, .log, .power, .reg, .outputs, .fw]
  | .secStatus .. => [.draws, .log, .net, .time, .ses, .outputs]
  | .secUnlock .. => [.draws, .log, .net, .time, .ses, .outputs]
  | .secSetCredential .. => [.draws, .log, .net, .time, .ses, .outputs]
  | .secResetCredential .. => [.draws, .log, .net, .time, .ses, .outputs]
  | .secEraseTenant .. => [.draws, .log, .net, .time, .ses, .outputs]
  | .watchdogCheckIn .. =>
    [.mode, .clock, .draws, .cfg, .log, .admin, .net, .time, .ses, .store, .power, .reg, .start, .outputs, .media,
      .journal, .watch, .sec, .fw, .startCount]
  | .watchdogExpiry .. =>
    [.mode, .clock, .draws, .cfg, .log, .admin, .net, .time, .ses, .store, .power, .reg, .start, .outputs, .media,
      .journal, .watch, .sec, .fw, .startCount]
  | .scanJobComplete .. => [.log, .net, .ses, .outputs, .watch, .fw]
  | .ch0Sample .. => [.log, .reg, .outputs]
  | .ch1Sample .. => [.mode, .log, .power, .reg, .start, .outputs, .journal]
  | .windbreakLoopSample .. => [.log, .admin, .ses, .power, .reg, .outputs]
  | .rateEstimatorSample .. => [.reg, .outputs]
  | .bankTestStart => [.clock, .power, .reg, .outputs]
  | .bankTestComplete .. => [.mode, .clock, .log, .power, .reg, .start, .outputs]
  | .bankTestTimeout => [.mode, .clock, .log, .power, .reg, .start, .outputs]
  | .bankChargeJudged .. => [.mode, .clock, .log, .power, .start, .outputs]
  | .drainExtentComplete .. => [.mode, .log, .ses, .store, .start, .outputs, .media, .journal]
  | .dieOperationComplete .. => [.mode, .log, .store, .power, .start, .outputs, .media, .journal]
  | .operationAgePromote .. => [.clock, .outputs, .media]
  | .dieTimeout .. => [.mode, .clock, .log, .store, .power, .start, .outputs, .media, .journal]
  | .programRetryBackoff .. => [.clock, .store, .outputs, .media]
  | .scrubDue .. => [.clock, .outputs, .media]
  | .bgCollectionIdle => [.clock, .outputs, .media]
  | .journalFlush => [.clock, .log, .store, .outputs, .media, .journal]
  | .expirySweep => [.clock, .store, .outputs, .journal]
  | .backstopExpiry .. => [.clock, .log, .net, .ses, .store, .outputs, .media]
  | .statusBlinkToggle .. => [.clock, .start, .outputs]
  | .ppsOutFallingEdge => [.clock, .time, .outputs]
  | .inputProtectionTrip .. =>
    [.mode, .net, .time, .ses, .store, .power, .reg, .start, .outputs, .media, .watch, .sec]
  | .moduleSupplyFails => [.mode, .net, .time, .ses, .store, .power, .reg, .start, .outputs, .media, .watch, .sec]
  | .trstNLow => [.start, .outputs]
  | .tckEdge .. => [.draws, .start, .outputs]
  | .creditPerBitTime .. => [.net, .outputs]
  | .announceSend => [.clock, .net, .time, .outputs]
  | .announceReceiptTimeout .. => [.clock, .log, .time, .outputs]
  | .temperatureHistoryInterval .. => [.clock, .admin, .outputs]

/-- Dusk committed with a cause: the state that Table 3-4 gives the drive at its steps 1 to 4. The reports of the commitment
are kept for the Dusk record. -/
structure DuskBegun (c : DuskCause) (s t : State) : Prop where
  mode : t.mode = .dusk
  episode : t.power.brace = none ∧ (t.power.dusk.map DuskEp.cause) = some c ∧ (t.power.dusk.map DuskEp.time) = some s.timeNow
  supply : t.power.inputSwitch = false ∧ t.power.test = none
  ports : t.net.gateOpen = false ∧ t.net.forwarding = false ∧ t.net.port.a = s.net.port.a.dark ∧ t.net.port.b = s.net.port.b.dark
  outputs : t.start.statReady.pattern = .released ∧ t.start.statFault.pattern = .released ∧ t.time.ppsHigh = false
  rails : t.reg.ch0Held = true ∧ t.reg.vcoreMv = 900 ∧ t.reg.ch1.running = false ∧ t.reg.ch2.running = false
  start : t.start.run = none ∧ t.watch.jobs = []
  frame : Only [.mode, .log, .admin, .net, .time, .ses, .store, .power, .reg, .start, .outputs, .media, .journal, .watch, .fw] s t

/-- The logs lie within their sizes, and so do their copies in flash (R332, R333). -/
structure LogState.Fits (l : LogState) : Prop where
  events : l.events.length ≤ 1024
  errors : l.errors.length ≤ 256
  flashEvents : l.flashEvents.length ≤ 1024
  flashErrors : l.flashErrors.length ≤ 256

/-- What no command ever undoes: identity and options stay fused, time goes on, START_COUNT never falls and stays a 32-bit
count, and logs within their sizes stay within them. -/
structure Advances (s t : State) : Prop where
  fused : t.fused = s.fused
  time : s.elapsed ≤ t.elapsed
  starts : s.startCount ≤ max32 → s.startCount ≤ t.startCount ∧ t.startCount ≤ max32
  logs : s.log.Fits → t.log.Fits

/-- The message of the drive that stands last in a port's endpoint queue. -/
def State.lastMessage (q : Port) (s : State) : Option LyMsg :=
  match (s.portOf q).epQ.getLast? with
  | none => none
  | some e => match e.load with
    | .ly m => some m
    | .raw _ | .dawn .. => none

/-- The last message on the port that a request came from answers it: kind, status, reason and body, under the request's
session, MSG_ID and opcode (Table 9-4). -/
abbrev State.tells (a : Ask) (kind status reason : Nat) (body : Body) (t : State) : Prop :=
  (t.lastMessage a.rx.port).map (fun m => (m.kind, m.gen, m.tenant, m.session, m.msgId, m.opcode, m.status, m.reason, m.body)) =
    some (kind, a.gen, a.tenant, a.sid, a.msgId, a.opcode, status, reason, body)

/-- The result of an LY2 or LY3 request stands last on its port: its first answer, or its completion where it was HELD. -/
abbrev State.answers (a : Ask) (status reason : Nat) (b : AnswerBody) (t : State) : Prop :=
  t.tells a (if a.token.isSome then 0x12 else 0x11) status reason (.answer { b with admitAt := a.admitAt, token := a.token.getD 0 })

end Sys2Proof.Machine
end

