-- ==== Sys2Proof/Certificates/Slice0/Obligations.lean ====
section
/-!
DEFINITION. The statements about the drive: what each command does, where it completes, what it leaves alone, and what every
step keeps.
-/
open Sys2Proof Sys2Proof.Machine

/-- With a command waiting, a step is exec of the command at the front on the state whose queue is the rest. With an empty queue
and no start waiting, it answers a state in which 40 ns, one period of the reference clock, have passed, and nothing else
differs but the status outputs, which follow the state. Queue and tick are the model's choices (log entry 2). (98_reader.md,
01_architecture.md) -/
def Obligations.StepRunsTheFrontCommand : Prop :=
  ∀ s : State,
    (∀ c rest, s.pending = c :: rest → step s = exec c { s with pending := rest }) ∧
    (s.pending = [] → s.start.run = none → ∃ t, step s = .next t ∧ t.elapsed = s.elapsed + 40 ∧ Only [.clock, .outputs] s t)

/-- In Ready-Read, Ready, Overcast or Sealed, VIN_BELOW_WARNING with a VIN below the configured threshold, and PFW_N_WARNING,
answer a next state in Brace. The episode holds its cause, the state it was entered from, the instant, the VIN and the
staged bytes, and is counted among the beginnings of the last 60 s; CH1 is stopped; no bank test runs, and one that ran
leaves an aborted record; an entry to Deep Sleep is abandoned. Nothing but drive state, log, supply, regulators and status
outputs changes, and of the regulators CH1 alone. In Cold Start and Warm Start each of the two is noted and nothing but
supply and status outputs changes; a start that stands at its last step, with a cause that holds as the levels of VIN and
PFW_N stand at that step, and is let run on with nothing else to do, enters Brace with that cause (VIN where both hold) from
the level it reached. (R67) -/
def Obligations.BraceBegins : Prop :=
  (∀ (s : State) (c : BraceCause) (vin : Nat) (i : Instr), s.mode.serving = true →
    (c = .vin ∧ i = .vinBelowWarning vin ∧ vin < s.cfg.inUse.power.vinWarnMv) ∨ (c = .pfw ∧ i = .pfwNWarning ∧ vin = s.power.vinMv) →
    ∃ t, exec i s = .next t ∧ t.mode = .brace ∧ t.power.brace = some ⟨c, s.mode, s.elapsed, s.elapsed, vin, s.staged⟩ ∧
      t.power.braceStarts = s.elapsed :: s.power.braceStarts.filter (fun b => s.elapsed < b + secs 60) ∧
      (c = .vin → t.power.vinBelowWarn = true) ∧ (c = .pfw → t.power.pfwLow = true) ∧
      t.power.sleep = .awake ∧ t.reg.ch1.running = false ∧ t.power.test = none ∧
      (s.power.test.isSome = true → t.power.tests.head?.map TestRecord.result = some 2) ∧
      Only [.mode, .log, .power, .reg, .outputs] s t ∧ t.reg = { s.reg with ch1 := t.reg.ch1 }) ∧
  (∀ (s : State) (vin : Nat), s.mode = .coldStart ∨ s.mode = .warmStart →
    (vin < s.cfg.inUse.power.vinWarnMv →
      ∃ t, exec (.vinBelowWarning vin) s = .next t ∧ t.power.vinBelowWarn = true ∧ Only [.power, .outputs] s t) ∧
    ∃ t, exec .pfwNWarning s = .next t ∧ t.power = { s.power with pfwLow := true } ∧ Only [.power, .outputs] s t) ∧
  (∀ (s : State) (r : StartRun), s.pending = [] → s.start.run = some r → s.start.resetLow = none →
    (r.path = .activation ∧ r.step = 8) ∨ (r.path ≠ .activation ∧ r.step = 16) →
    (s.noteLevels r.env).power.vinBelowWarn = true ∨ (s.noteLevels r.env).power.pfwLow = true →
    ∃ t, step s = .next t ∧ t.mode = .brace ∧ t.power.brace.map (fun b => (b.cause, b.entered, b.since)) =
      some (if (s.noteLevels r.env).power.vinBelowWarn = true then .vin else .pfw,
        if s.sec.lockFlag = true then .sealed else .readyRead, t.elapsed))

/-- A Brace episode that begins while the event is armed logs it, and disarms it, exactly when more than 10 episodes, with its
own, began within 60 s; otherwise the arming stays as it is, and the log too but for the record of a bank test that Brace
aborts. SUPPLY_UNSTABLE_REARM of a disarmed event answers
a next state in which it is armed, no earlier than 60 s after the event and with at most 10 episodes in the 60 s before, and
nothing else but the clock and the status outputs has changed. (R71) -/
def Obligations.SupplyUnstable : Prop :=
  (∀ s : State, s.mode.serving = true → ∃ t, exec .pfwNWarning s = .next t ∧
    (s.power.unstableArmed = true ∧ 10 < t.power.braceStarts.length →
      t.power.unstableArmed = false ∧ t.power.unstableAt = s.elapsed ∧
      t.log = LogState.add s.timeNow Mode.brace.code s.time.synced s.startCount none .supplyUnstable t.power.braceStarts.length 0 0
        s.abortTest.log) ∧
    (¬ (s.power.unstableArmed = true ∧ 10 < t.power.braceStarts.length) →
      t.log = s.abortTest.log ∧ t.power.unstableArmed = s.power.unstableArmed) ∧
    (s.power.test = none → s.abortTest.log = s.log)) ∧
  (∀ s : State, s.power.unstableArmed = false →
    ∃ t, exec .supplyUnstableRearm s = .next t ∧ t.power = { s.power with unstableArmed := true } ∧ s.elapsed ≤ t.elapsed ∧
      s.power.unstableAt + secs 60 ≤ t.elapsed ∧ (∀ b, s.power.braceStarts[10]? = some b → b + secs 60 ≤ t.elapsed) ∧
      Only [.clock, .power, .outputs] s t)

/-- In Brace, BRACE_EXIT with VIN at least 0.8 V above the warning answers a next state in the state that Brace was entered
from, or in Ready-Read where that state was Ready and the bank failed with nothing staged; the episode is over and its
event, with cause, lowest VIN, duration and staged bytes, is logged; both causes are cleared. It is at least 5 ms after the
last warning of the episode. Sessions, the store, the ports, the time base, the journal and the configuration are as before.
(R70) -/
def Obligations.BraceEnds : Prop :=
  ∀ (s : State) (b : BraceEp) (vin : Nat), s.mode = .brace → s.power.brace = some b → b.entered.serving = true →
    s.cfg.inUse.power.vinWarnMv + 800 ≤ vin →
    ∃ t, exec (.braceExit vin) s = .next t ∧
      t.mode = (if b.entered = .ready ∧ s.bankClass = .failed ∧ s.store.staging.isEmpty = true then .readyRead else b.entered) ∧
      t.power.brace = none ∧ t.power.vinBelowWarn = false ∧ t.power.pfwLow = false ∧
      t.elapsed = max s.elapsed (b.warnedAt + ms 5) ∧
      (s.power.test = none → t.log = LogState.add (Time.ofNs (s.time.at t.elapsed)) Mode.brace.code s.time.synced s.startCount none
        .braceEpisode (b.cause.reason * 2 ^ 24 + b.minVinMv) ((t.elapsed - b.since) / 1000)
        (b.stagedAtEntry / 1024 * 2 ^ 16 + s.staged / 1024) s.log) ∧
      Only [.mode, .clock, .log, .power, .reg, .start, .outputs, .media, .fw] s t

/-- In every state but Off and Dusk, each of the five causes commits the drive to Dusk: VIN below cut, VIN below 9 V or a
reversed input current, VIN above 34 V, a junction of 115 °C or more, and the loss of the reference clock. The next state is
Dusk with that cause and the time of commitment, with what steps 1 to 4 of Table 3-4 say: gate closed, forwarding stopped,
both PHYs powered down with everything queued on them, status outputs and PPS_OUT released, CH0 held at 0.90 V, CH1 and the
loops stopped, the input switch open, and no start, scan job or bank test under way. Configuration, keys, identity and the
clock are as before. In Dusk a further cause changes neither cause nor course: of a supply cause the measured VIN is noted,
and with Dusk not complete it lowers the lowest VIN of its record; of the loss of the reference clock, that it is absent.
(R26, R30, R65, R72, R73) -/
def Obligations.DuskCommits : Prop :=
  (∀ (s : State) (i : Instr) (c : DuskCause), s.mode ≠ .off → s.mode ≠ .dusk →
    (∃ paid, (∃ vin, i = .vinBelowCut vin paid ∧ c = .belowCut ∧ vin < s.cfg.inUse.power.vinCutMv) ∨
      (∃ vin rev, i = .inputCollapse vin rev paid ∧ c = .collapse ∧ (vin < 9000 ∨ rev = true)) ∨
      (∃ vin, i = .overvoltage vin paid ∧ c = .overvoltage ∧ 34000 < vin) ∨
      (∃ j, i = .thermalShutdown j paid ∧ c = .thermal ∧ 1150 ≤ j) ∨
      (i = .referenceClockLost paid ∧ c = .reference)) →
    ∃ t, exec i s = .next t ∧ DuskBegun c s t) ∧
  (∀ (s : State) (i : Instr) (vin : Nat), s.mode = .dusk →
    (∃ paid, (i = .vinBelowCut vin paid ∧ vin < s.cfg.inUse.power.vinCutMv) ∨
      (∃ rev, i = .inputCollapse vin rev paid ∧ (vin < 9000 ∨ rev = true)) ∨ (i = .overvoltage vin paid ∧ 34000 < vin)) →
    ∃ t, exec i s = .next t ∧ t.power.vinMv = vin ∧ t.power.vinMinMv = min s.power.vinMinMv vin ∧
      t.power.dusk = s.power.dusk.map (fun d => { d with minVinMv := if d.complete = true then d.minVinMv else min d.minVinMv vin }) ∧
      Only [.power, .outputs] s t) ∧
  (∀ (s : State) (paid : Bool) (j : Int), s.mode = .dusk →
    exec (.thermalShutdown j paid) s = .next s.settle ∧
    exec (.referenceClockLost paid) s = .next { s with power := { s.power with referencePresent := false } }.settle)

/-- With Dusk complete and no tamper alarm waiting, POST_DUSK_HOLD_END takes the first case of Table 3-5: after a thermal
shutdown the drive is off; after the loss of the reference clock a cold start begins with that clock back, and without it the
drive is held in reset for the clock, as it is where that clock is absent when RESET_N, or VIN with the bank at 15 V or more,
would end the hold; with RESET_N low it is held in cold reset with VIN valid and off without; with VIN valid and the bank at
15 V or more a warm start after Dusk begins at step 3, and CH0 resumes; otherwise the drive is off, 500 ms later. VIN is
valid where it is recognised so and lies from 0.8 V above the warning up to 34.0 V. Off leaves the configuration, the log,
the journal and the keys; a drive held in reset is in Cold Start with no start running. (R30, R45, R65, R76, R409) -/
def Obligations.PostDuskHoldEnds : Prop :=
  ∀ (s : State) (d : DuskEp) (low seen : Bool) (env : StartEnv), s.mode = .dusk → s.power.dusk = some d → d.complete = true →
    s.sec.alarmPending = false → s.start.run = none →
    ∃ u t : State, exec (.postDuskHoldEnd low seen env) s = .next t ∧
      (let valid := seen = true ∧ s.cfg.inUse.power.vinWarnMv + 800 ≤ env.vinMv ∧ env.vinMv ≤ 34000
       let warm := valid ∧ 15000 ≤ env.bankMv
       if d.cause = .thermal then t = u.settle ∧ u = s.leaveDusk.switchOff ∧ t.mode = .off
       else if d.cause = .reference ∧ s.power.referencePresent = true then
         t = u.runStart.settle ∧ u.mode = .coldStart ∧ u.start.run = some ⟨.cold, .reference, 3, env, false⟩ ∧ u.start.refAt = s.elapsed
       else if d.cause = .reference ∨ (s.power.referencePresent = false ∧ (low = true ∨ warm)) then
         t = u.settle ∧ t.mode = .coldStart ∧ t.start.referenceHeld = true ∧ t.start.resetLow = none ∧ t.start.run = none
       else if low = true then
         (if valid then
            t = u.settle ∧ t.mode = .coldStart ∧ t.start.coldHeld = true ∧ t.start.resetLow = some s.elapsed ∧ t.start.run = none
          else t = u.settle ∧ u = s.leaveDusk.switchOff ∧ t.mode = .off)
       else if warm then
         t = u.runStart.settle ∧ u.mode = .warmStart ∧ u.start.run = some ⟨.warmAfterDusk, .afterDusk, 3, env, false⟩ ∧
           u.start.refAt = s.elapsed ∧ u.reg.ch0 = s.reg.ch0.start0 ∧ Only [.mode, .power, .reg, .start, .outputs] s u
       else t = u.settle ∧ t.mode = .off ∧ t.elapsed = s.elapsed + ms 500 ∧
         Only [.clock, .mode, .net, .time, .ses, .store, .power, .reg, .start, .outputs, .media, .watch, .sec] s u)

/-- MODULE_SUPPLY_FAILS in Dusk, and an INPUT_PROTECTION_TRIP above 40 V and up to 60 V in any state, answer a next state in Off
with the bank discharging and no supply connected. No Dusk record is written by it: the journal, the logs, the keys, the
fuses, the firmware and the configuration are as before, and so are the blocks, the placed extents and the flash copy of
every key up to the closing of open versions. (R77, R391, R510) -/
def Obligations.SupplyGone : Prop :=
  ∀ (s : State) (i : Instr), (i = .moduleSupplyFails ∧ s.mode = .dusk) ∨ (∃ vin, i = .inputProtectionTrip vin ∧ 40000 < vin ∧ vin ≤ 60000) →
    ∃ t, exec i s = .next t ∧ t.mode = .off ∧ t.power.discharging = some s.elapsed ∧ t.power.inputSwitch = false ∧ t.power.dusk = none ∧
      t.store.flash = s.store.flash.map (fun r => { r with versions := r.versions.map closeVersion }) ∧
      t.media = { s.media with waiting := [], busy := [] } ∧ t.net = {} ∧ t.ses = {} ∧
      Only [.mode, .net, .time, .ses, .store, .power, .reg, .start, .outputs, .media, .watch, .sec] s t

/-- VIN_VALID in Off with a valid VIN and RESET_N high, REFERENCE_CLOCK_RETURN while the drive is held for the clock,
JUNCTION_COOLED at 95 °C or less after a thermal shutdown, and RESET_N_RELEASED after a cold hold, each begin a cold start:
at its beginning the drive is in Cold Start at step 3 of the cold path with its source, at an unchanged instant, with a bank
that 30 s or more of Off have brought below 5 V, with no session, no counter and an empty queue at each port; the supply-unstable event is armed; the log is what flash holds of it,
with the latched faults of 0x0000FFF0 and the bank's; and the answer is the state in which that start has run as far as it
can. No tamper alarm is waiting. (R26, R30, R44, R60, R71, R90, R331, R333) -/
def Obligations.ColdStartBegins : Prop :=
  ∀ (s : State) (env : StartEnv) (i : Instr) (src : StartSource), s.sec.alarmPending = false →
    (i = .vinValid false env ∧ src = .vin ∧ s.mode = .off ∧ s.power.thermalLatch = false ∧
        (DriveConfig.defaults s.fused.part).power.vinWarnMv + 800 ≤ env.vinMv ∧ env.vinMv ≤ 34000) ∨
      (i = .referenceClockReturn env ∧ src = .reference ∧ s.start.referenceHeld = true) ∨
      (i = .junctionCooled env ∧ src = .thermal ∧ s.mode = .off ∧ s.power.thermalLatch = true ∧ env.junction ≤ 950) ∨
      (i = .resetNReleased env ∧ src = .resetCold ∧ s.start.resetLow.isSome = true ∧ s.start.coldHeld = true) →
    ∃ u, exec i s = .next u.runStart.settle ∧ u.mode = .coldStart ∧ u.start.run =
        some ⟨.cold, src, 3, if src = .vin ∨ src = .thermal then s.bankFound env else env, false⟩ ∧
      (∀ off, s.power.discharging = some off → off + secs 30 ≤ s.elapsed → src = .vin ∨ src = .thermal → ∀ mv ∈ u.power.bankMv, mv < 5000) ∧
      u.start.refAt = s.elapsed ∧ u.start.resetLow = (if src = .resetCold then none else s.start.resetLow) ∧
      u.net = {} ∧ u.ses = {} ∧ u.time = {} ∧ u.power.unstableArmed = true ∧ u.power.brace = none ∧ u.power.dusk = none ∧
      u.log.events = s.log.flashEvents ∧ u.log.errors = s.log.flashErrors ∧
      u.log.latched &&& 0x0000FFF0 = s.log.latched &&& 0x0000FFF0 ∧ u.store.flash = s.store.reload.flash ∧
      Only [.mode, .draws, .cfg, .log, .admin, .net, .time, .ses, .store, .power, .reg, .start, .outputs, .media, .journal, .watch,
        .sec, .fw] s u

/-- RESET_N_RECOGNISED in Ready-Read, Ready, Overcast, Sealed, Brace, Deep Sleep or Rescue answers a next state in Warm Start
with the ingress gate closed, nothing left in the staging buffer, no scan job running, the watchdog stopped and its former
state remembered, no Brace episode and no dawn series under way, and the falling edge noted, 10 µs before its recognition
where it was not known yet. In Cold Start and Warm Start that edge alone is noted. In Off and in a Dusk under way RESET_N has
no effect; with Dusk complete it ends the hold. Configuration, time base, keys, fuses and identity are as before. (R29, R44,
R45, R92) -/
def Obligations.ResetRecognised : Prop :=
  ∀ s : State,
    (s.mode ≠ .off → s.mode ≠ .dusk → s.mode ≠ .coldStart → s.mode ≠ .warmStart →
      ∃ t, exec .resetNRecognised s = .next t ∧ t.mode = .warmStart ∧ t.net.gateOpen = false ∧ t.store.staging = [] ∧ t.watch.jobs = [] ∧
        t.watch.running = false ∧ t.watch.wasRunning = s.watch.running ∧ t.power.brace = none ∧ t.start.series = none ∧
        t.start.resetLow = some (s.start.resetLow.getD (s.elapsed - 10000)) ∧ t.power.test = none ∧
        Only [.mode, .log, .net, .ses, .store, .power, .reg, .start, .outputs, .media, .journal, .watch, .fw] s t) ∧
    (s.mode = .coldStart ∨ s.mode = .warmStart → ∃ t, exec .resetNRecognised s = .next t ∧
      t.start.resetLow = some (s.start.resetLow.getD (s.elapsed - 10000)) ∧ Only [.start, .outputs] s t) ∧
    (s.mode = .off ∨ (s.mode = .dusk ∧ ∀ d, s.power.dusk = some d → d.complete = false) → exec .resetNRecognised s = .next s.settle) ∧
    (∀ d, s.mode = .dusk → s.power.dusk = some d → d.complete = true →
      exec .resetNRecognised s = exec (.postDuskHoldEnd true (s.vinValid s.power.vinMv) s.ownEnv) s)

/-- While RESET_N is low and no cold hold is on, in a drive that is neither off nor in Dusk, RESET_N_HELD_COLD answers a next
state in Cold Start, held until RESET_N rises, at the instant 500 ms after the falling edge or later, with both ports as at
reset. RESET_N_RELEASED without a cold hold and less than 500 ms after the falling edge, in Warm Start with no start under
way and no alarm waiting, begins a warm start at step 4 with source resetWarm and keeps RESET_N no longer noted as low; 500
ms or more after the falling edge it begins a cold start at step 3 with source resetCold. The answer is that start as far as
it can run. (R44, R92) -/
def Obligations.ResetHeldAndReleased : Prop :=
  (∀ (s : State) (e : Nat), s.start.resetLow = some e → s.start.coldHeld = false → s.mode ≠ .off → s.mode ≠ .dusk →
    ∃ t, exec .resetNHeldCold s = .next t ∧ t.mode = .coldStart ∧ t.start.coldHeld = true ∧ t.start.resetLow = some e ∧
      t.elapsed = max s.elapsed (e + ms 500) ∧ t.net = {} ∧ t.start.run = none ∧
      Only [.mode, .clock, .draws, .cfg, .log, .admin, .net, .time, .ses, .store, .power, .reg, .start, .outputs, .media, .journal,
        .watch, .sec, .fw] s t) ∧
  (∀ (s : State) (e : Nat) (env : StartEnv), s.start.resetLow = some e → s.start.coldHeld = false → s.mode = .warmStart →
    s.elapsed < e + ms 500 → s.start.run = none → s.sec.alarmPending = false →
    ∃ u : State, exec (.resetNReleased env) s = .next u.runStart.settle ∧ u.mode = .warmStart ∧
      u.start.run = some ⟨.warm, .resetWarm, 4, env, false⟩ ∧
      u.start.resetLow = none ∧ u.start.refAt = s.elapsed ∧ u.net.gateOpen = false ∧
      Only [.mode, .log, .net, .ses, .store, .power, .reg, .start, .outputs, .media, .journal, .watch, .fw] s u) ∧
  (∀ (s : State) (e : Nat) (env : StartEnv), s.start.resetLow = some e → s.mode ≠ .off → s.mode ≠ .dusk → e + ms 500 ≤ s.elapsed →
    s.sec.alarmPending = false →
    ∃ u : State, exec (.resetNReleased env) s = .next u.runStart.settle ∧ u.mode = .coldStart ∧
      u.start.run = some ⟨.cold, .resetCold, 3, env, false⟩ ∧ u.start.resetLow = none ∧ u.start.coldHeld = false ∧
      u.start.refAt = s.elapsed)

/-- A start of a cold, warm or escalated path, or of a warm start after Dusk, that stands at step 16 and is let run on with
nothing else to do: the drive enters Sealed where the lock is in force and Ready-Read otherwise, or is at once in Brace,
entered from that level, where a cause of Brace holds as VIN and PFW_N then stand; the ingress gate is open; START_COUNT has risen by one; the
newest start record names kind, source and the new START_COUNT; no start is under way any more; the serving limit is over:
the start took at least its serving time from its reference point. Configuration, keys, fuses and time base are as before.
That the run goes on in a step without a command is the model's choice (log entry 2). (R67, R93, R98, R337) -/
def Obligations.StartServes : Prop :=
  ∀ (s : State) (r : StartRun), s.pending = [] → s.start.run = some r → r.step = 16 → r.path ≠ .activation → s.start.resetLow = none →
    ∃ t, step s = .next t ∧ t.start.run = none ∧ t.net.gateOpen = true ∧ t.startCount = inc32 s.startCount ∧
      (if (s.noteLevels r.env).power.vinBelowWarn = true ∨ (s.noteLevels r.env).power.pfwLow = true then
        t.mode = .brace ∧ t.power.brace.map BraceEp.entered = some (if s.sec.lockFlag = true then .sealed else .readyRead)
      else t.mode = (if s.sec.lockFlag = true then .sealed else .readyRead)) ∧
      (t.admin.startRecords.head?.map fun x => (x.kind, x.source, x.startCount)) =
        some ((s.kindOf r).code, r.source.code, inc32 s.startCount) ∧
      s.start.refAt + ms r.env.servingMs ≤ t.elapsed ∧
      Only [.mode, .clock, .log, .admin, .net, .ses, .store, .power, .reg, .start, .outputs, .media, .journal, .watch, .fw, .startCount] s t

/-- In Ready-Read with step 17 still to come, READY_ENTRY enters Ready where the spare pool is above the Overcast level, the
bank has not failed and the energy at the measured voltage covers the staging limit, and Overcast where the spare pool is
at or below that level, whatever the bank: step 17 is done, the dawn series of that level begins 100 ms from now, and the
first bank test is due. Where neither holds, nothing changes but the status outputs. (R82, R84, R85, R98, R101) -/
def Obligations.ReadyEntry : Prop :=
  (∀ (s : State) (m : Mode), s.mode = .readyRead → s.start.awaitingReady = true →
    ((m = .ready ∧ overcastLevel < s.media.spare ∧ s.bankClass ≠ .failed ∧ needUj s.stagingLimit ≤ s.avail) ∨
      (m = .overcast ∧ s.media.spare ≤ overcastLevel)) →
    ∃ t, exec .readyEntry s = .next t ∧ t.mode = m ∧ t.start.awaitingReady = false ∧
      t.start.series = some ⟨m, 1, s.elapsed + ms 100⟩ ∧ t.start.level = m ∧ t.power.testDue.isSome = true ∧
      t.media = { s.media with overcast := s.media.overcast || decide (m = .overcast) } ∧
      Only [.mode, .log, .net, .power, .start, .outputs, .media] s t) ∧
  (∀ s : State, s.mode = .readyRead → s.start.awaitingReady = true → overcastLevel < s.media.spare →
    (s.bankClass = .failed ∨ s.avail < needUj s.stagingLimit) → exec .readyEntry s = .next s.settle)

/-- In Deep Sleep, WAKE_INPUT and a wake frame of the right format, unit and check wake the drive: it returns to the state it
slept from; the sleep is over, the ingress gate is open, and the newest start
record is of kind wake. START_COUNT, keys, journal and configuration are as before. DEEP_SLEEP_ENTRY_COMPLETE of an entry
under way, with no request in flight and WAKE low, puts the drive to sleep: the staging buffer is drained, a checkpoint is
the newest entry, no loop, watchdog, job or series runs, and the gate is closed. (R47, R87, R89, R238) -/
def Obligations.DeepSleep : Prop :=
  (∀ (s : State) (m : Mode) (i : Instr), s.mode = .deepSleep → s.power.sleep = .asleep m → m.serving = true →
    (i = .wakeInput ∨ (i = .wakeFrame ∧ ∃ f rest, s.takeFrame .wake = (some f, rest) ∧ s.wakeFrameOk f.payload = true)) →
    ∃ t, exec i s = .next t ∧
      t.mode = m ∧ t.power.sleep = .awake ∧ t.net.gateOpen = true ∧ t.startCount = s.startCount ∧
      (t.admin.startRecords.head?.map fun x => (x.kind, x.source)) = some (StartKind.wake.code, StartSource.wake.code) ∧
      Only [.mode, .log, .admin, .net, .ses, .store, .power, .reg, .start, .outputs, .media, .watch] s t) ∧
  (∀ (s : State) (m : Mode), s.power.sleep = .entering m → s.ses.inFlight = 0 → s.mode.serving = true →
    ∃ t, exec (.deepSleepEntryComplete false) s = .next t ∧ t.mode = .deepSleep ∧ t.power.sleep = .asleep m ∧ t.store.staging = [] ∧
      t.store.keys = s.store.keys ∧ t.journal.newest = .checkpoint ∧ t.journal.unrecorded = none ∧ t.net.gateOpen = false ∧
      t.watch.running = false ∧ t.watch.jobs = [] ∧ t.start.series = none ∧
      Only [.mode, .log, .admin, .net, .ses, .store, .power, .reg, .start, .outputs, .media, .journal, .watch] s t)

/-- Every frame of a drive message with its fields inside their widths is read back from its bytes with the same kind,
generation, length, tenant, final flag, session, SEQ, ALIVE, frame index, MSG_ID, opcode and body total; its MSG_CHECK
matches; its body is the part of the message that the frame carries; and a keyed frame verifies under its key and salt. Of
the authentication code only its length of 16 bytes is assumed, and only for the body and the tag. (R207, R208, R209, R226,
R230) -/
def Obligations.MessageFramesRoundTrip : Prop :=
  ∀ (m : LyMsg) (limit k : Nat), m.kind < 256 → m.gen < 16 → m.tenant < 8 → m.session < 65536 → m.seq + k < 2 ^ 64 → m.alive < 65536 →
    k < 65536 → m.msgId < 2 ^ 32 → m.opcode < 256 → m.bodyBytes.length < 2 ^ 32 → limit ≤ 65483 →
    let b := m.encodeFrame limit k
    let part := slice (k * limit) limit m.bodyBytes
    parseHeader b =
        { kind := m.kind, gen := m.gen, hdrFormat := 1, length := 52 + part.length, tenant := m.tenant
          final := decide (k + 1 = frameCount limit m.bodyBytes.length), session := m.session, seq := m.seq + k, alive := m.alive
          frameIndex := k, msgId := m.msgId, opcode := m.opcode, bodyTotal := m.bodyBytes.length } ∧
      checkOk b = true ∧
      (m.key = none → frameBody b = part ∧ b.length = 52 + part.length) ∧
      (∀ key salt, m.key = some (key, salt) → (msgTag key salt (m.seq + k) (b.take (32 + part.length))).length = 16 →
        frameBody b = part ∧ b.length = 52 + part.length ∧ tagOk key salt b = true)

/-- For every identity f, instant e and count n: in every state whose fused values are f, whose clock has reached e, whose
START_COUNT is at least n and a 32-bit count, and whose event log and error history, with their copies in flash, lie within
1,024 and 256 entries, each step that answers a next state answers one of which all this is true again. No command ever
writes a fuse, turns time back, lowers START_COUNT or overfills a log. (R18, R332, R333, R337) -/
def Obligations.StepKeepsIdentityTimeStartsAndLogs : Prop :=
  ∀ (f : Fused) (e n : Nat) (s t : State),
    (s.fused = f ∧ e ≤ s.elapsed ∧ n ≤ s.startCount ∧ s.startCount ≤ max32 ∧ s.log.Fits) → step s = .next t →
    (t.fused = f ∧ e ≤ t.elapsed ∧ n ≤ t.startCount ∧ t.startCount ≤ max32 ∧ t.log.Fits)

/-- At reset the drive is off with no command waiting: no session, no start under way, no key in the store, nothing staged, both
status outputs released, the gate closed, no link; START_COUNT 0 and logs that are empty, so that the invariant of every
step holds. Values at reset that the manual does not give are named in the log (entry 1). (R42, R93, R332, R333) -/
def Obligations.ResetState : Prop :=
  State.reset.mode = .off ∧ State.reset.pending = [] ∧ State.reset.ses.sessions = [] ∧ State.reset.start.run = none ∧
    State.reset.store.keys = [] ∧ State.reset.store.staging = [] ∧ State.reset.net.gateOpen = false ∧
    State.reset.net.port.a.up = false ∧ State.reset.net.port.b.up = false ∧
    State.reset.pins.statReady = false ∧ State.reset.pins.statFault = false ∧ State.reset.pins.statAct = false ∧
    State.reset.pins.v3p3aux = false ∧ State.reset.startCount = 0 ∧ State.reset.startCount ≤ max32 ∧ State.reset.log.Fits

/-- The watchdog start option and the unit-binding option are fused: whatever command is executed on whatever state - no row of
the command table, no configuration field, no firmware image and no service-port operation - a next state has the options it
had, and so has every step. (R5) -/
def Obligations.FusedOptionsStay : Prop :=
  ∀ s t : State,
    (∀ c : Instr, exec c s = .next t → t.fused.wdgHwStart = s.fused.wdgHwStart ∧ t.fused.unitBound = s.fused.unitBound) ∧
    (step s = .next t → t.fused.wdgHwStart = s.fused.wdgHwStart ∧ t.fused.unitBound = s.fused.unitBound)

/-- Once set, the lock flag stays set whatever command is executed: through every start, Dusk and loss of supply, and through
every step. Only two commands may leave it cleared: an EGRESS_SELECT that could take a SEC_UNLOCK waiting on that port, and
SERVICE_PORT_CLOSE under close action 0. SERVICE_PORT_CLOSE of a released chain under action 0 clears it before the cold
start it begins, and the selection of a SEC_UNLOCK answer of an open session in Sealed, with nothing refusing it, clears it.
A start that stands at its last step and finds it set enters Sealed, or Brace entered from Sealed. (R462) -/
def Obligations.LockFlagStays : Prop :=
  (∀ s t : State, s.sec.lockFlag = true →
    (∀ c : Instr, exec c s = .next t →
      (∀ q sent, c = .egressSelect q sent → ∀ e ∈ (s.portOf q).epQ, ∀ m op at_ token, e.load = .ly m → m.body = .admin op at_ token → op.opcode ≠ 0xA1) →
      (∀ env, c = .servicePortClose env → s.cfg.inUse.security.svcCloseAction ≠ 0) → t.sec.lockFlag = true) ∧
    (∀ r, s.pending = [] → s.start.run = some r → s.start.resetLow = none →
      (r.path = .activation ∧ r.step = 8) ∨ (r.path ≠ .activation ∧ r.step = 16) → step s = .next t →
      t.sec.lockFlag = true ∧ (t.mode = .sealed ∨ (t.mode = .brace ∧ t.power.brace.map BraceEp.entered = some .sealed)))) ∧
  (∀ (s : State) (env : StartEnv), s.start.scanReleased = true → s.cfg.inUse.security.svcCloseAction = 0 → s.sec.alarmPending = false →
    ∃ u : State, exec (.servicePortClose env) s = .next u.runStart.settle ∧ u.sec.lockFlag = false ∧
      u.start.run = some ⟨.cold, .servicePort, 3, env, false⟩) ∧
  (∀ (s : State) (q : Port) (k admitAt token : Nat) (e : EpEntry) (m : LyMsg) (op : AdminOp) (x : Sess),
    (s.portOf q).up = true → ((s.frameSent q).preview q).pick q = some (.ep k) → (s.portOf q).epQ[k]? = some e → e.load = .ly m →
    m.body = .admin op admitAt token → s.ses.find m.session = some x → x.phase = .open → x.driveSeq < 2 ^ 63 →
    op.opcode = 0xA1 → s.mode = .sealed →
    ((s.frameSent q).modPort q fun p => { p with epQ := p.epQ.eraseIdx k }).secRefused x.kH2d m.msgId op = none →
    ∃ u : State, exec (.egressSelect q none) s = .next u ∧ u.sec.lockFlag = false)

/-- Every command answers a next state on every state and for all its operands, with the one exception of an
INPUT_PROTECTION_TRIP with more than 60 V at the input, which stops with the fault damaged, as the manual says of it only
that the module can be damaged. At 40 V or less the protection does not act, and the drive is as it was. No data, no mode
and no other operand stops a run. (R510) -/
def Obligations.EveryCommandAnswers : Prop :=
  ∀ s : State,
    (∀ c : Instr, (∀ vin, c = .inputProtectionTrip vin → vin ≤ 60000) → ∃ t, exec c s = .next t) ∧
    (∀ vin, 60000 < vin → exec (.inputProtectionTrip vin) s = .fault .damaged) ∧
    (∀ vin, vin ≤ 40000 → exec (.inputProtectionTrip vin) s = .next s.settle)

/-- For each of the 140 commands the parts of the state that it can touch are listed (touches); every other part, whatever state
and operands, is in a next state what it was: the queue, the fused values, the configuration, the logs, the time base,
sessions, store, supply, regulators, starts, outputs, media, journal, watchdog, security block and firmware, each where the
command is not listed with it. (R18, R22, R93, 98_reader.md) -/
def Obligations.EveryCommandKeepsToItsParts : Prop :=
  ∀ (c : Instr) (s t : State), exec c s = .next t → Only (touches c) s t

/-- In a drive that is neither off nor in Dusk: DEADLINE_RISK with a junction of 103 °C or more or with pace short enters
deadline risk, counts it once and logs its event, and enters nothing twice; DEADLINE_LAPSE above 105 °C or with pace short
enters the lapse as well, and logs its event; DEADLINE_RISK_CLEARED at 101 °C or less with the risk in force clears risk and
lapse and logs its event. Pace is short where it is below the one required with CH0 at 0.90 V; with CH0 below that, a low pace
enters nothing. Each notes the junction and its extremes, and nothing but supply figures, life figures, log and status
outputs changes. (R26, R336) -/
def Obligations.DeadlineRisk : Prop :=
  ∀ (s : State) (j : Int) (pace : Bool), s.mode ≠ .off → s.mode ≠ .dusk →
    (1030 ≤ j ∨ (pace = true ∧ s.reg.vcoreMv = 900) →
      ∃ t, exec (.deadlineRisk j pace) s = .next t ∧ t.power.deadlineRisk = true ∧ t.power.junction = j ∧
        t.power.junctionMax = max s.power.junctionMax j ∧ t.power.paceShort = (pace && decide (s.reg.vcoreMv = 900)) ∧
        t.admin.deadlineRiskCount = (if s.power.deadlineRisk = true then s.admin.deadlineRiskCount else inc32 s.admin.deadlineRiskCount) ∧
        (s.power.deadlineRisk = true → t.log = s.log) ∧
        (s.power.deadlineRisk = false → s.mode ≠ .rescue → t.log = LogState.add s.timeNow s.mode.code s.time.synced s.startCount none
          .deadlineRisk (if 1030 ≤ j then 1 else 2) (j % 4294967296).toNat 0 s.log) ∧
        t.power.deadlineLapse = s.power.deadlineLapse ∧ Only [.log, .admin, .power, .outputs] s t) ∧
    (j < 1030 → s.reg.vcoreMv ≠ 900 →
      ∃ t, exec (.deadlineRisk j pace) s = .next t ∧ t.power.deadlineRisk = s.power.deadlineRisk ∧ t.power.paceShort = false ∧
        t.power.junction = j ∧ t.log = s.log ∧ Only [.log, .admin, .power, .outputs] s t) ∧
    (1050 < j ∨ (pace = true ∧ s.reg.vcoreMv = 900) →
      ∃ t, exec (.deadlineLapse j pace) s = .next t ∧ t.power.deadlineRisk = true ∧ t.power.deadlineLapse = true ∧
        t.power.junction = j ∧
        (s.power.deadlineRisk = true → s.power.deadlineLapse = false → s.mode ≠ .rescue →
          t.log = LogState.add s.timeNow s.mode.code s.time.synced s.startCount none .deadlineLapse (if 1050 < j then 1 else 2)
            (j % 4294967296).toNat 0 s.log) ∧
        Only [.log, .admin, .power, .outputs] s t) ∧
    (j ≤ 1010 → s.power.deadlineRisk = true →
      ∃ t, exec (.deadlineRiskCleared j) s = .next t ∧ t.power = { s.power with
          deadlineRisk := false, deadlineLapse := false, paceShort := false, junction := j, junctionMax := max s.power.junctionMax j } ∧
        (s.mode ≠ .rescue →
          t.log = LogState.add s.timeNow s.mode.code s.time.synced s.startCount none .deadlineRiskCleared 0 0 0 s.log) ∧
        Only [.log, .admin, .power, .outputs] s t)

/-- With the reference clock present, in a drive that is neither off nor in Dusk, with the channel running: CH0_SAMPLE takes CH0
to what its law computes from the pace, and the core voltage to its output, or to 0.90 V once it is held; CH1_SAMPLE takes
CH1 to what its law computes from the bank voltage, puts that voltage in front of the last eight, sets the hardware limit at
47.0 V or more, and tells the rate estimator the mode that follows; after a second oscillation CH1 stands stopped and the
bank counts as failed. RATE_ESTIMATOR_SAMPLE, unless the drive is off, changes the estimator alone, by the mode and the
sample. Without the reference clock none of these samples changes anything. Nothing else changes but the log, the drive
state, what waits for Ready, the hold of the journal and the status outputs. (R23, R408, R409, R410, R411, R412, R422, R423,
R424) -/
def Obligations.RegulatorSamples : Prop :=
  (∀ (s : State) (pace : Int), s.power.referencePresent = true → s.mode ≠ .off → s.mode ≠ .dusk → s.reg.ch0.running = true →
    ∃ t, exec (.ch0Sample pace) s = .next t ∧
      (let r := s.reg.ch0.sample0 s.reg.ch0Written pace s.paceTarget
       let held := s.reg.ch0Held || (s.reg.ch0OscHold || r.2 == OscEvent.first)
       t.reg = { s.reg with
         ch0 := r.1, ch0OscHold := s.reg.ch0OscHold || r.2 == OscEvent.first, ch0Held := held,
         vcoreMv := if held = true then 900 else q16ToMv r.1.output }) ∧
      Only [.log, .reg, .outputs] s t) ∧
  (∀ (s : State) (mv : Nat), s.power.referencePresent = true → s.mode ≠ .off → s.mode ≠ .dusk → s.reg.ch1.running = true →
    ∃ t, exec (.ch1Sample mv) s = .next t ∧ t.power.bankMv = (mv :: s.power.bankMv).take 8 ∧
      t.reg.overcharge = decide (47000 ≤ mv) ∧
      (let r := s.reg.ch1.sample1 (mvToQ16 mv)
       t.reg = RegState.noteRate s.elapsed t.rateModeNow
         { s.reg with ch1 := if r.2 = .again then r.1.stop1 else r.1, overcharge := decide (47000 ≤ mv),
                      ch1Stopped := s.reg.ch1Stopped || decide (r.2 = .again) } ∧
       t.power.ch1Failed = (s.power.ch1Failed || decide (r.2 = .again))) ∧
      Only [.mode, .log, .power, .reg, .start, .outputs, .journal] s t) ∧
  (∀ (s : State) (mv : Nat), s.power.referencePresent = true → s.mode ≠ .off →
    ∃ t, exec (.rateEstimatorSample mv) s = .next t ∧
      t.reg = RegState.estimate s.power.cMeasuredUf mv (RegState.noteRate s.elapsed s.rateModeNow s.reg) ∧
      Only [.reg, .outputs] s t) ∧
  (∀ (s : State) (pace : Int) (mv : Nat), s.power.referencePresent = false →
    exec (.ch0Sample pace) s = .next s.settle ∧ exec (.ch1Sample mv) s = .next s.settle ∧
    exec (.rateEstimatorSample mv) s = .next s.settle)

/-- With the reference clock present and the loops running in a drive that is neither off nor in Dusk, WINDBREAK_LOOP_SAMPLE
brings both buckets up to now and takes each of CH2 to CH5 to what its law computes: CH2 from the ledger credit in mJ, CH3
from the junction, CH4 from the free level, CH5 from core voltage and pace. The junction and its extremes are noted; every
segment that waits for windbreak is to be judged again, and nothing else of the sessions changes; the store and the other
channels are as they were. Without the reference clock nothing changes. (R23, R308, R413, R414, R415, R416) -/
def Obligations.WindbreakLoops : Prop :=
  (∀ (s : State) (j pace : Int), s.power.referencePresent = false → exec (.windbreakLoopSample j pace) s = .next s.settle) ∧
  ∀ (s : State) (j pace : Int), s.power.referencePresent = true → s.mode ≠ .off → s.mode ≠ .dusk → s.reg.ch2.running = true →
    ∃ t, exec (.windbreakLoopSample j pace) s = .next t ∧
      (let r := s.reg.settleBuckets s.elapsed
       let c := s.cfg.inUse
       t.reg = { r with
         ch2 := (r.ch2.sample loop2 (sat32 (((s.avail : Int) - needUj s.staged) * 65536 / 1000))
           ((c.regulator.energyKneeMj : Int) * 65536) c.regulator.gainScale2).1
         ch3 := (r.ch3.sample loop3 (j * 65536 / 10) ((c.thermalSetpointC : Int) * 65536) c.regulator.gainScale3).1
         ch4 := (r.ch4.sample loop4 s.freeQ16 ((c.media.fgFreePct : Int) * 65536) c.regulator.gainScale4).1
         ch5 := (r.ch5.sample5 r.ch0Written r.ch0.ramp.value pace c.regulator.gainScale5).1 }) ∧
      t.power = { s.power with junction := j, junctionMax := max s.power.junctionMax j } ∧
      t.ses = { s.ses with sessions := s.ses.sessions.map fun e => { e with
        assembling := e.assembling.map fun a => { a with refused := a.refused.map fun w => { w with stirred := true } } } } ∧
      Only [.log, .admin, .power, .reg, .ses, .outputs] s t

/-- A scheduled test whose conditions hold starts: CH1 stops and the mean of the last samples is kept as V1; where they do not
hold it is tried again 10 min later. A test that falls within 200 ms ends with C = fall/30 µF and an ESR of 10 mΩ per mV,
its class by Table 3-6, the record in front of page 0x0A and the next test an hour or a day later; one that does not ends
after 200 ms as a test fault with the class failed. A bank below 44.5 V after 4 s of charging fails as well, and at 44.5 V
it passes. (R84, R85) -/
def Obligations.BankTests : Prop :=
  ∀ s : State,
    (∀ d, s.power.testDue = some d → ∃ t, exec .bankTestStart s = .next t ∧ t.elapsed = max s.elapsed d ∧
      (if (s.waitUntil d).testAllowed = true then
        t.power = { s.power with test := some (s.power.meanMv, t.elapsed), testDue := none } ∧ t.reg = { s.reg with ch1 := s.reg.ch1.stop1 }
      else t.power = { s.power with testDue := some (t.elapsed + secs 600) } ∧ t.reg = s.reg) ∧
      Only [.clock, .power, .reg, .outputs] s t) ∧
    (∀ v1 start step fall, s.power.test = some (v1, start) → fall ≤ 200000 →
      ∃ t, exec (.bankTestComplete step fall) s = .next t ∧ t.power.cMeasuredUf = fall / 30 ∧ t.power.esrMohm = step * 10 ∧
        t.power.bankClass = classify (fall / 30) (step * 10) ∧ t.power.test = none ∧
        (t.power.tests.head?.map fun r => (r.result, r.cls, r.uf, r.esr, r.fallUs, r.v1)) =
          some (0, (classify (fall / 30) (step * 10)).code, fall / 30, step * 10, fall, v1) ∧
        t.power.testDue = some (t.elapsed + (if classify (fall / 30) (step * 10) = .failed then secs 3600 else secs 86400)) ∧
        Only [.mode, .clock, .log, .power, .reg, .start, .outputs] s t) ∧
    (∀ v1 start, s.power.test = some (v1, start) →
      ∃ t, exec .bankTestTimeout s = .next t ∧ t.power.bankClass = .failed ∧ t.power.test = none ∧
        t.elapsed = max s.elapsed (start + ms 200) ∧ (t.power.tests.head?.map TestRecord.result) = some 1 ∧
        t.power.cMeasuredUf = s.power.cMeasuredUf ∧ Only [.mode, .clock, .log, .power, .reg, .start, .outputs] s t) ∧
    (∀ n mv, s.power.chargeUs = some n → s.reg.ch1.running = true →
      ∃ t, exec (.bankChargeJudged mv) s = .next t ∧ t.power.chargeUs = none ∧
        (44500 ≤ mv → t.power.bankClass = s.power.bankClass) ∧ (mv < 44500 → t.power.bankClass = .failed) ∧
        Only [.mode, .clock, .log, .power, .start, .outputs] s t)

/-- In every state but Off: an intact reading (3.0 kΩ or less, and no fault) clears the count of bad samples and keeps since
when the loop is intact; a bad one (a fault, or 5.0 kΩ or more) that is not the third in a row is counted and nothing else.
A fault is a short to ground, an output that does not follow, more than 0.8 V between the pulses, or more than 3.6 V in
them. The third raises the alarm: in Ready-Read, Ready and Overcast, with no key operation running, action 0 only logs it, action 1 locks the drive
(Sealed, with the lock in force and its drain begun), and action 2 erases it (Sealed, erased, with new keys and an empty
store). (R54, R456, R457, R458, R459, R460) -/
def Obligations.TamperSamples : Prop :=
  let faulty (r : TamperReading) : Prop := r.grounded = true ∨ r.follows = false ∨ 800 < r.idleOutMv ∨ 800 < r.idleRetMv ∨
    3600 < r.pulseOutMv ∨ 3600 < r.pulseRetMv
  ∀ s : State, s.mode ≠ .off →
    (∀ r : TamperReading, ¬ faulty r → r.ohms ≤ 3000 → ∃ t, exec (.tamperSample r) s = .next t ∧
      t.sec = { s.sec with badSamples := 0, intactSince := some (s.sec.intactSince.getD s.elapsed) } ∧ Only [.sec, .outputs] s t) ∧
    (∀ r : TamperReading, faulty r ∨ 5000 ≤ r.ohms → s.sec.badSamples ≠ 2 →
      ∃ t, exec (.tamperSample r) s = .next t ∧
        t.sec = { s.sec with badSamples := min 3 (s.sec.badSamples + 1), intactSince := none } ∧ Only [.sec, .outputs] s t) ∧
    (∀ r : TamperReading, faulty r ∨ 5000 ≤ r.ohms → s.sec.badSamples = 2 → s.fw.download = none →
      s.mode = .readyRead ∨ s.mode = .ready ∨ s.mode = .overcast →
      ∃ t, exec (.tamperSample r) s = .next t ∧ t.sec.badSamples = 3 ∧
        (s.sec.action = 0 → t.mode = s.mode ∧ t.sec.lockFlag = s.sec.lockFlag ∧ Only [.log, .power, .sec, .outputs] s t) ∧
        (s.sec.action = 1 → t.mode = .sealed ∧ t.sec.lockFlag = true ∧ t.sec.lockDrain = true ∧ t.start.awaitingReady = false) ∧
        (s.sec.action = 2 → t.mode = .sealed ∧ t.sec.erased = true ∧ t.sec.lockFlag = true ∧ t.sec.site = none ∧
          t.store.keys = [] ∧ t.store.flash = [] ∧ t.store.staging = [] ∧ t.store.pins = [] ∧ t.ses.sessions = []))

/-- SERVICE_PORT_OPEN in a serving state, Brace or Rescue, with SVC_EN judged since step 3, erases the drive and then releases
the scan chain with the TAP in its reset state, the watchdog stopped: the drive is in Sealed, or returns from Brace to
Sealed, with an empty store, no session and the lock in force. SERVICE_PORT_CLOSE takes the chain back with the TAP reset,
and without the restart action does nothing more but to start the watchdog again if it ran. SVC_EN_IGNORED of 1 ms to 79 ms
is counted, and it is logged with its length where the drive is not in Rescue; the level that was high at step 3 already is
not counted; before step 3 SVC_EN has no effect. (R56, R465, R466, R467) -/
def Obligations.ServicePort : Prop :=
  (∀ s : State, s.mode.serving = true ∨ s.mode = .brace ∨ s.mode = .rescue → s.start.svcJudged = true → s.start.scanReleased = false →
    ∃ t, exec .servicePortOpen s = .next t ∧ t.start.scanReleased = true ∧ t.start.tap = {} ∧ t.watch.running = false ∧
      (s.mode ≠ .brace → t.mode = .sealed) ∧ t.sec.lockFlag = true ∧ t.sec.erased = true ∧
      t.store.keys = [] ∧ t.store.flash = [] ∧ t.store.staging = [] ∧ t.ses.sessions = []) ∧
  (∀ (s : State) (env : StartEnv), s.start.scanReleased = true → s.cfg.inUse.security.svcCloseAction ≠ 0 →
    ∃ t, exec (.servicePortClose env) s = .next t ∧ t.start.scanReleased = false ∧ t.start.tap = {} ∧
      t.watch = (if s.watch.wasRunning = true then { s.watch with running := true, periodAt := s.elapsed, checked := [] } else s.watch) ∧
      Only [.start, .outputs, .watch] s t) ∧
  (∀ (s : State) (len : Nat), s.start.svcHeld = true →
    ∃ t, exec (.svcEnIgnored len) s = .next t ∧ t.start.svcHeld = false ∧ Only [.start, .outputs] s t) ∧
  (∀ (s : State) (len : Nat), s.start.svcHeld = false → s.start.svcJudged = false →
    exec (.svcEnIgnored len) s = .next s.settle ∧ exec .servicePortOpen s = .next s.settle) ∧
  (∀ (s : State) (len : Nat), s.start.svcHeld = false → s.start.svcJudged = true → 0 < len → len < 80 →
    ∃ t, exec (.svcEnIgnored len) s = .next t ∧ t.net = { s.net with counters := s.net.counters.addDev .svcEnIgnored 1 } ∧
      (s.mode ≠ .rescue → t.log = LogState.add s.timeNow s.mode.code s.time.synced s.startCount none .svcEnIgnored len 0 0 s.log) ∧
      Only [.log, .net, .outputs] s t)

/-- TRST_N_LOW resets the TAP and nothing else. A TCK edge before the release changes nothing but the status outputs. After it,
a rising edge moves the TAP controller by TMS as IEEE 1149.1 has it and shifts TDI in behind the register being shifted, and
a falling edge keeps the controller where it is; in the reset state it selects IDCODE, and TDO is high-impedance but in the
two shift states; in Update-DR of EXTEST and of SAMPLE/PRELOAD it takes the shifted bits into the boundary cells, which stay
as they are at every other edge. (R57) -/
def Obligations.TestAccessPort : Prop :=
  ∀ s : State,
    (∃ t, exec .trstNLow s = .next t ∧ t.start.tap = {} ∧ t.start.scanReleased = s.start.scanReleased ∧ Only [.start, .outputs] s t) ∧
    (∀ rising tms tdi, s.start.scanReleased = false → ∃ t, exec (.tckEdge rising tms tdi) s = .next t ∧ Only [.outputs] s t) ∧
    (∀ tms tdi, s.start.scanReleased = true → ∃ t, exec (.tckEdge true tms tdi) s = .next t ∧
      t.start.tap.state = s.start.tap.state.next tms ∧ t.start.tap.instr = s.start.tap.instr ∧ t.start.tap.tdo = s.start.tap.tdo ∧
      t.start.tap.cells = s.start.tap.cells ∧
      (s.start.tap.state = .shiftDr → t.start.tap.dr = s.start.tap.dr.drop 1 ++ [tdi] ∧ t.start.tap.ir = s.start.tap.ir) ∧
      (s.start.tap.state = .shiftIr → t.start.tap.ir = s.start.tap.ir.drop 1 ++ [tdi] ∧ t.start.tap.dr = s.start.tap.dr) ∧
      Only [.draws, .start, .outputs] s t) ∧
    (∀ tms tdi, s.start.scanReleased = true → ∃ t, exec (.tckEdge false tms tdi) s = .next t ∧
      t.start.tap.state = s.start.tap.state ∧ t.start.tap.dr = s.start.tap.dr ∧ t.start.tap.ir = s.start.tap.ir ∧
      t.start.tap.instr = (match s.start.tap.state with
        | .reset => .idcode | .updateIr => tapInstr (natOfBits s.start.tap.ir) | _ => s.start.tap.instr) ∧
      t.start.tap.tdo = (match s.start.tap.state with
        | .shiftDr => s.start.tap.dr.head? | .shiftIr => s.start.tap.ir.head? | _ => none) ∧
      t.start.tap.cells = (if s.start.tap.state = .updateDr ∧ (s.start.tap.instr = .extest ∨ s.start.tap.instr = .sample) then
        s.start.tap.dr else s.start.tap.cells) ∧
      Only [.start, .outputs] s t)

/-- With the watchdog running: an activity checks in every slot that the configuration assigns to it, or, while the boot ROM
runs, the watchdog service every slot; an activity with no slot does nothing. First check-ins within the open part of the
period are noted, and the eighth one begins the next period. A check-in before the window opens or a second one of the same
slot, and WATCHDOG_EXPIRY, each expire the watchdog: RESET_COUNT rises, saturating at 0xFFFF, the slots that had not checked
in (with the violating one) are recorded. In a serving state, with fewer than three expiries within 60 s and no alarm
waiting, the warm start that follows begins at step 4 with source watchdog. (R91, R147, R443, R444, R446) -/
def Obligations.Watchdog : Prop :=
  ∀ s : State, s.watch.running = true →
    (∀ activity n, n ∈ s.slotsOf activity ↔ n < 8 ∧
      (if s.bootRom = true then activity = 0 else s.cfg.inUse.watchdog.tasks.getD n 0 = activity)) ∧
    (∀ activity env, (∀ n ∈ s.slotsOf activity, s.watch.checked.contains n = false) →
      s.watch.checked.length + (s.slotsOf activity).length ≤ 8 → s.fused.openNs ≤ s.elapsed - s.watch.periodAt →
      s.elapsed - s.watch.periodAt < s.fused.periodNs + 40 →
      ∃ t, exec (.watchdogCheckIn activity env) s = .next t ∧
        t.watch = (if s.slotsOf activity = [] then s.watch
                   else if s.watch.checked.length + (s.slotsOf activity).length < 8 then
                     { s.watch with checked := (s.slotsOf activity).reverse ++ s.watch.checked }
                   else { s.watch with checked := [], periodAt := s.elapsed + 40 }) ∧
        Only [.watch, .outputs] s t) ∧
    (∀ activity slot rest env, s.slotsOf activity = slot :: rest → s.mode.serving = true → s.sec.alarmPending = false →
      (s.watch.warmAt.filter fun x => s.elapsed < x + secs 60).length < 2 →
      s.elapsed - s.watch.periodAt < s.fused.openNs ∨ s.watch.checked.contains slot = true →
      ∃ u : State, exec (.watchdogCheckIn activity env) s = .next u.runStart.settle ∧ u.mode = .warmStart ∧
        u.start.run = some ⟨.warm, .watchdog, 4, env, false⟩ ∧ u.watch.resetCount = min 0xFFFF (s.watch.resetCount + 1) ∧
        u.watch.lastMissed = slotMap ((List.range 8).filter fun n => !s.watch.checked.contains n || decide (n = slot)) ∧
        u.elapsed = s.elapsed) ∧
    (∀ env, s.mode.serving = true → s.sec.alarmPending = false →
      (s.watch.warmAt.filter fun x => max s.elapsed (s.watch.periodAt + s.fused.periodNs) < x + secs 60).length < 2 →
      ∃ u : State, exec (.watchdogExpiry env) s = .next u.runStart.settle ∧ u.mode = .warmStart ∧
        u.start.run = some ⟨.warm, .watchdog, 4, env, false⟩ ∧ u.watch.resetCount = min 0xFFFF (s.watch.resetCount + 1) ∧
        u.watch.lastMissed = slotMap ((List.range 8).filter fun n => !s.watch.checked.contains n) ∧
        u.elapsed = max s.elapsed (s.watch.periodAt + s.fused.periodNs))

/-- LOCK_DRAIN_COMPLETE with the drain of a lock under way leaves the staging buffer empty with every extent on flash, every
data key out of the security block, the pin cache unloaded with its pins kept, and the drain over. BACKSTOP_EXPIRY of a
request in flight, outside Warm Start and Dusk, ends it at 10 s after its admission or later: INTERNAL answers it as first
answer or as completion, and sessions that were closing move on. Of a request that is no segmented write, its range lock and
waiting range are gone and its unsent message is withdrawn; a segmented write is cut: its version ends with the segments
staged, and its message is gone. In Warm Start and Dusk the command changes nothing. (R309, R457, R498, R509) -/
def Obligations.LockDrainAndBackstop : Prop :=
  (∀ s : State, s.sec.lockDrain = true →
    ∃ t, exec .lockDrainComplete s = .next t ∧ t.sec = { s.sec with lockDrain := false, dkOpen := List.replicate 8 false } ∧
      t.store.staging = [] ∧ t.store.keys = s.store.keys ∧
      t.store.pins = s.store.pins.map (fun p => { p with loaded := none }) ∧
      Only [.log, .store, .outputs, .media, .journal, .sec] s t) ∧
  (∀ (s : State) (sid msgId : Nat), s.mode = .warmStart ∨ s.mode = .dusk → exec (.backstopExpiry sid msgId) s = .next s.settle) ∧
  (∀ (s : State) (sid msgId : Nat) (e : Sess) (f : Flight) (a : Assembly) (k : Bytes) (v : Version) (base : Option (Nat × Nat)),
    s.mode ≠ .warmStart → s.mode ≠ .dusk → s.ses.find sid = some e → e.flight msgId = some f → f.work = .segmented k v base →
    (e.assembling.find? fun a => a.admitted && a.msgId = f.msgId) = some a →
    ∃ u : State, exec (.backstopExpiry sid msgId) s = .next u.settleCloses.settle ∧ u.elapsed = max s.elapsed (f.admittedAt + secs 10) ∧
      u.store.keys = modVersion s.store.keys e.tenant k v.num (fun y => if y.admitAt = v.admitAt then
        { v with isOpen := false, total := v.value.length, superseded := y.superseded } else y) ∧
      (∀ x, u.ses.find sid = some x → ∀ y ∈ x.assembling, y.serial ≠ a.serial) ∧
      Only [.clock, .log, .net, .ses, .store, .outputs, .media] s u) ∧
  (∀ (s : State) (sid msgId : Nat) (e : Sess) (f : Flight), s.mode ≠ .warmStart → s.mode ≠ .dusk → s.ses.find sid = some e →
    e.flight msgId = some f → (∀ k v base, f.work ≠ .segmented k v base) →
    ∃ u : State, exec (.backstopExpiry sid msgId) s = .next u.settleCloses.settle ∧ u.elapsed = max s.elapsed (f.admittedAt + secs 10) ∧
      u.ses.held = s.ses.held.filter (fun l => !(l.session = sid && l.msgId = msgId)) ∧
      u.ses.waiting = s.ses.waiting.filter (fun l => !(l.session = sid && l.msgId = msgId)) ∧
      (e.gen ≠ 1 → u.answers (f.ask e) 0x7F 0 { pinned := f.pinned }) ∧
      (e.gen = 1 → (u.lastMessage f.rx.port).map (fun m => (m.kind, m.session, m.msgId, m.status, m.ends)) = some (0x11, sid, msgId, 0x7F, true)) ∧
      Only [.clock, .log, .net, .ses, .store, .outputs, .media] s u)

/-- LINK_UP, SGMII_STATUS_CHANGE, LINK_DOWN and PREEMPT_VERIFY_DONE complete. A port in PHY mode that is down and out of reset
comes up at a speed its mode allows, with pause in effect by R152 (resolved where the port autonegotiates and offered it,
else by NET_PAUSE_ENABLE), both credits at 0 and verification begun now where it is configured; the admission-limit window
that waited for a link opens. An SGMII port does the same on a full-duplex report of an allowed speed, and notes every
report; on a half-duplex or mismatched report it stays down. A port that goes down loses every queued frame but what closing
sessions then add, its learning entries and the pauses in force. On a verifying port, success within three attempts of
10 ms from the link-up makes preemption active; else it fails, no earlier than the end of the third, and the failure is
logged. (R151, R152, R153, R154, R195, R199, R105) -/
def Obligations.LinksChange : Prop :=
  ∀ (s : State) (q : Port),
    (∀ speed resolved, s.start.straps.sgmii q = false → (s.portOf q).phyReset = false → s.speedAllowed q speed = true →
      s.mode ≠ .off → s.mode ≠ .dusk → (s.portOf q).up = false →
      ∃ t, exec (.linkUp q speed resolved) s = .next t ∧ (t.portOf q).up = true ∧ (t.portOf q).speed = speed ∧
        (t.portOf q).pauseNegotiated =
          (resolved && decide ((s.cfg.inUse.port.get q).speed = 0) && decide (s.cfg.inUse.bridge.pauseEnable = 1)) ∧
        (t.portOf q).pauseInEffect =
          (decide (s.cfg.inUse.bridge.pauseEnable = 1) && (decide ((s.cfg.inUse.port.get q).speed ≠ 0) || resolved)) ∧
        (t.portOf q).preempt = (if (s.cfg.inUse.port.get q).preempt = 1 then .verifying else .off) ∧ (t.portOf q).verifyFrom = s.elapsed ∧
        (t.portOf q).shaper5.cs = 0 ∧ (t.portOf q).shaper6.cs = 0 ∧
        (s.start.limit = .awaitingLink → t.start.limit = (if s.cfg.inUse.kv.startLimitMs = 0 then .closed else .until_ (s.elapsed + ms s.cfg.inUse.kv.startLimitMs))) ∧
        Only [.log, .net, .ses, .start, .outputs] s t) ∧
    (∀ speed, s.start.straps.sgmii q = true → (s.portOf q).phyReset = false → s.speedAllowed q speed = true →
      s.mode ≠ .off → s.mode ≠ .dusk → (s.portOf q).up = false →
      ∃ t, exec (.sgmiiStatusChange q true speed true) s = .next t ∧ (t.portOf q).up = true ∧ (t.portOf q).speed = speed ∧
        (t.portOf q).sgmii = some (true, speed, true) ∧
        (t.portOf q).pauseInEffect = decide (s.cfg.inUse.bridge.pauseEnable = 1) ∧ Only [.log, .net, .ses, .start, .outputs] s t) ∧
    (∀ up speed full, s.start.straps.sgmii q = true → (s.portOf q).phyReset = false → s.mode ≠ .off → s.mode ≠ .dusk →
      up = false ∨ full = false ∨ s.speedAllowed q speed = false →
      ∃ t, exec (.sgmiiStatusChange q up speed full) s = .next t ∧ (t.portOf q).up = false ∧
        (t.portOf q).sgmii = some (up, speed, full) ∧ Only [.log, .admin, .net, .time, .ses, .outputs, .fw] s t) ∧
    ((s.portOf q).up = true →
      ∃ t, exec (.linkDown q) s = .next t ∧ (t.portOf q).up = false ∧ (t.portOf q).fwdQ = [] ∧ (t.portOf q).gptpQ = [] ∧
        (t.portOf q).pauseQ = [] ∧ (t.portOf q).pauseForce = none ∧ (t.portOf q).heldUntil = none ∧ (t.portOf q).onWire = none ∧
        t.net.learn = s.net.learn.filter (fun e => e.port ≠ q) ∧ t.time.port.get q = {} ∧
        Only [.log, .admin, .net, .time, .ses, .outputs, .fw] s t) ∧
    (∀ ok, (s.portOf q).preempt = .verifying →
      let end_ := (s.portOf q).verifyFrom + 3 * ms 10
      let good : Bool := ok && decide (s.elapsed ≤ end_)
      ∃ t, exec (.preemptVerifyDone q ok) s = .next t ∧
        t.net = { s.net with port := s.net.port.modify q fun p => { p with preempt := if good = true then .active else .failed } } ∧
        (good = true → t.log = s.log ∧ t.elapsed = s.elapsed) ∧
        (good = false → t.elapsed = max s.elapsed end_ ∧ (s.mode ≠ .rescue →
          t.log = LogState.add t.timeNow s.mode.code s.time.synced s.startCount none .preemptVerifyFailed q.index 0 0 s.log)) ∧
        Only [.clock, .log, .net, .outputs] s t)

/-- PAUSE_FRAME_RECEIVED, PAUSE_QUANTA_EXPIRED and PAUSE_REPEAT complete. Where pause is in effect on the port it came from, a
pause frame of the ingress holds the port for its quanta of 512 bit
times from its last bit, and one of quanta 0 lets it transmit again at once; where pause is not in effect the frame has no
effect on the port. PAUSE_QUANTA_EXPIRED lets the port transmit again at the end of the time. PAUSE_REPEAT, at half the
pause time after the last one, queues a pause with quanta 0xFFFF again. Nothing else of the drive changes. (R166, R167) -/
def Obligations.PauseRows : Prop :=
  ∀ s : State,
    (∀ f, s.net.inbox.find? (fun x => x.service = .pause) = some f → f.occupancy = 0 → s.net.paused = false →
      ∃ t, exec .pauseFrameReceived s = .next t ∧
        t.net = { s.net with
          inbox := s.net.inbox.erase f
          port := s.net.port.modify f.rx.port fun p =>
            if p.pauseInEffect = false then p
            else if fieldAt 2 2 f.payload = 0 then { p with heldUntil := none, heldLast := some s.elapsed }
            else { p with heldUntil := some (f.rx.at_ + fieldAt 2 2 f.payload * 512 * bitNs p.speed) } } ∧
        Only [.net, .outputs] s t) ∧
    (∀ q at_, (s.portOf q).heldUntil = some at_ →
      ∃ t, exec (.pauseQuantaExpired q) s = .next t ∧ t.elapsed = max s.elapsed at_ ∧
        t.net = { s.net with port := s.net.port.modify q fun p => { p with heldUntil := none, heldLast := some t.elapsed } } ∧
        Only [.clock, .net, .outputs] s t) ∧
    (∀ q at_, (s.portOf q).pauseForce = some at_ →
      ∃ t, exec (.pauseRepeat q) s = .next t ∧ t.elapsed = max s.elapsed at_ ∧
        t.net = { s.net with port := s.net.port.modify q fun p =>
          { p with pauseQ := p.pauseQ ++ [0xFFFF], pauseForce := some (t.elapsed + halfPauseNs p.speed) } } ∧
        Only [.clock, .net, .outputs] s t)

/-- LEARN_ENTRY_AGED takes an entry of the table out of it, 300 s after its last refresh or later. TX_QUEUE_TIMEOUT discards the
oldest forwarded frame of a port 100 ms after it was queued or later, and counts it under TX_DISCARD. EP_TX_EXPIRED discards
the oldest endpoint entry of a port 100 ms after its next frame entered the queue or later, and counts each of its frames
left under EP_TX_EXPIRED; an answer discarded this way is cached where answers are and ends its request, sessions that were
closing move on, and frames that waited for room enter the queue. STAT_ACT_EXPIRED ends the activity time.
STATUS_BLINK_TOGGLE inverts the output whose blink time has run out, and in Overcast both outputs together. (R172, R173,
R190, R256, R43, R41, R531) -/
def Obligations.QueueTimers : Prop :=
  ∀ s : State,
    (∀ mac e, s.net.learn.find? (fun x => x.mac = mac) = some e →
      ∃ t, exec (.learnEntryAged mac) s = .next t ∧ t.elapsed = max s.elapsed (e.refreshed + secs 300) ∧
        t.net = { s.net with learn := s.net.learn.filter fun x => x.mac ≠ mac } ∧ Only [.clock, .net, .outputs] s t) ∧
    (∀ q f rest, (s.portOf q).fwdQ = f :: rest →
      ∃ t, exec (.txQueueTimeout q) s = .next t ∧ t.elapsed = max s.elapsed (f.queuedAt + ms 100) ∧
        t.net = { s.net with
          port := s.net.port.modify q fun p => { p with fwdQ := rest }
          counters := s.net.counters.bumpPort q .txDiscard } ∧ Only [.clock, .net, .outputs] s t) ∧
    (∀ q e rest, (s.portOf q).epQ = e :: rest →
      ∃ u : State, exec (.epTxExpired q) s = .next (u.settleCloses.refill q).settle ∧
        u.elapsed = max s.elapsed (e.queued.headD e.queuedAt + ms 100) ∧
        (u.portOf q).epQ = rest ∧ (u.portOf q).fwdQ = (s.portOf q).fwdQ ∧
        (u.net.counters.port.get q)[PortCounter.epTxExpired.idx]? =
          ((s.net.counters.port.get q)[PortCounter.epTxExpired.idx]?).map (satAdd32 · e.left) ∧
        (∀ m, e.load = .ly m → m.ends = true → ∀ x, s.ses.find m.session = some x → x.phase = .open →
          u.ses = (((s.waitUntil (e.queued.headD e.queuedAt + ms 100)).cacheAnswer m).endFlight m.session m.msgId).ses) ∧
        Only [.clock, .log, .admin, .net, .ses, .outputs, .fw] s u) ∧
    (∀ at_, s.net.actUntil = some at_ →
      ∃ t, exec .statActExpired s = .next t ∧ t.elapsed = max s.elapsed at_ ∧ t.net = { s.net with actUntil := none } ∧
        Only [.clock, .net, .outputs] s t) ∧
    (∀ fault at_, (if fault = true then s.start.statFault else s.start.statReady).due = some at_ →
      s.start.statReady.pattern = readyPattern s.mode → s.start.statFault.pattern = faultPattern s.faultLatched s.mode →
      ∃ t, exec (.statusBlinkToggle fault) s = .next t ∧ t.elapsed = max s.elapsed at_ ∧
        (fault = false → t.start.statReady = s.start.statReady.toggle) ∧
        (s.mode = .overcast → t.start.statFault = s.start.statReady.toggle ∧ t.start.statReady = s.start.statReady.toggle) ∧
        (s.mode ≠ .overcast → fault = true → t.start.statFault = s.start.statFault.toggle ∧ t.start.statReady = s.start.statReady) ∧
        Only [.clock, .outputs] s t)

/-- GATE_ENTRY_START and CREDIT_PER_BIT_TIME complete. With a gate list in use on a port, GATE_ENTRY_START waits for the end of the entry under way and begins the next one, or the
next cycle, as the list has it. On an up port with the class shaped, CREDIT_PER_BIT_TIME changes the credit of that class
alone, by one bit time of its slopes: for a class 5 or 6 that transmits, that waits with its gate open, or that neither
does. (R192, R195) -/
def Obligations.GatesAndCredit : Prop :=
  ∀ (s : State) (q : Port),
    (s.listInUse q = true →
      ∃ t, exec (.gateEntryStart q) s = .next t ∧ s.elapsed ≤ t.elapsed ∧
        t.net = { s.net with port := s.net.port.modify q fun p =>
          { p with gate := p.gate.next (s.cfg.inUse.gates.get q) (decide (p.preempt = .active)) } } ∧
        Only [.clock, .net, .outputs] s t) ∧
    (∀ cls, s.shaped q cls = true → (s.portOf q).up = true →
      ∃ t, exec (.creditPerBitTime q cls) s = .next t ∧
        (let p := s.portOf q
         let c := p.shaper cls
         let sending := match p.onWire with | some w => decide (w.cls = some cls) | none => false
         let next : Int := if sending = true then c.cs + c.idle - rateKbps p.speed else if p.waits cls = true then c.cs + c.idle
           else if c.cs < 0 then min 0 (c.cs + c.idle) else 0
         t.net = { s.net with port := s.net.port.modify q fun p => p.modShaper cls fun x =>
           { x with cs := if c.idle = 0 ∨ bit p.gate.gates cls = false then c.cs else max (min next c.hi) c.lo } }) ∧
        Only [.net, .outputs] s t)

/-- Whatever the shapers of a port hold, the row of first answers takes the same entry. While an LY3 first answer of a shaped
class is on the wire of an up port with its gate open, one bit time changes the credit of its class by its idle slope less
the port rate, within its bounds, so an idle slope below the rate lowers a credit above its lower bound. (R198) -/
def Obligations.FirstAnswersPassShapers : Prop :=
  (∀ (s : State) (q : Port) (a b : Shaper),
    (s.modPort q fun p => { p with shaper5 := a, shaper6 := b }).pickFirst q = s.pickFirst q) ∧
  (∀ (s : State) (q : Port) (e : EpEntry), (s.portOf q).up = true → (s.portOf q).onWire = some (.ep e) → e.first = true →
    s.shaped q e.cls = true → bit (s.portOf q).gate.gates e.cls = true → ((s.portOf q).shaper e.cls).idle ≠ 0 →
    ∃ t, exec (.creditPerBitTime q e.cls) s = .next t ∧
      (let c := (s.portOf q).shaper e.cls
       ((t.portOf q).shaper e.cls).cs = max (min (c.cs + c.idle - rateKbps (s.portOf q).speed) c.hi) c.lo ∧
       (c.idle < rateKbps (s.portOf q).speed → c.lo < c.cs → c.cs ≤ c.hi → ((t.portOf q).shaper e.cls).cs < c.cs)) ∧
      Only [.net, .outputs] s t)

/-- A pause frame queued is taken before anything else, even while a received pause holds the port; while it is held nothing but
pause frames is taken. Otherwise an LY3 first answer in the queue whose gate is open and stays open long enough is taken before
every other frame, and among such answers one that was admitted earliest. With neither, an 802.1AS frame comes next. An
endpoint frame that is taken and is no first answer is in the queue, eligible, and behind no frame of its own session and
class. (R167, R188, R189, R255) -/
def Obligations.PortSelectionOrder : Prop :=
  ∀ (s : State) (q : Port),
    ((s.portOf q).pauseQ ≠ [] → s.pick q = some .pause) ∧
    ((s.portOf q).heldUntil ≠ none → (s.portOf q).pauseQ = [] → s.pick q = none) ∧
    (∀ (k : Nat) (e : EpEntry), (s.portOf q).pauseQ = [] → (s.portOf q).epQ[k]? = some e → e.first = true → e.entered = true →
      s.eligible q e.cls e.length true true = true →
      ∃ (j : Nat) (f : EpEntry), s.pick q = some (.ep j) ∧ (s.portOf q).epQ[j]? = some f ∧ f.first = true ∧ f.entered = true ∧
        s.eligible q f.cls f.length true true = true ∧ f.admitAt ≤ e.admitAt) ∧
    ((s.portOf q).pauseQ = [] → (s.portOf q).heldUntil = none → (s.portOf q).gptpQ ≠ [] →
      (∀ e : EpEntry, e ∈ (s.portOf q).epQ → e.first = true → e.entered = true → s.eligible q e.cls e.length true true = false) →
      s.pick q = some .gptp) ∧
    (∀ k, s.pick q = some (.ep k) → ∃ e : EpEntry, (s.portOf q).epQ[k]? = some e ∧ e.entered = true ∧
      (e.first = false → s.eligible q e.cls e.length e.express false = true ∧
        ∀ x : EpEntry, x ∈ (s.portOf q).epQ.take k → x.first = false → x.cls = e.cls → e.session = none ∨ x.session ≠ e.session)) ∧
    (∀ k, s.pick q = some (.fwd k) → ∃ f, (s.portOf q).fwdQ[k]? = some f ∧ s.eligible q f.cls f.length f.express false = true ∧
      ∀ e : EpEntry, e ∈ (s.portOf q).epQ → e.first = true → e.entered = true → s.eligible q e.cls e.length true true = false)

/-- EGRESS_SELECT completes. On an up port outside a warm start: the frame on the wire ends. A pause, a forwarded frame or an
endpoint frame that the order takes then goes on the wire and leaves its queue, and with none to take the port stays idle.
The first frame of a session's message that carries a result commits its request; the last frame ends it and frees its LY1
set, and sessions that were closing move on. On a port without link nothing happens. Which frames of a queue's entries have
entered its 32 KiB is left out of the comparison of queues. (R176, R189, R231, R235, R280) -/
def Obligations.EgressSelects : Prop :=
  ∀ (s : State) (q : Port),
    (∀ sent, (s.portOf q).up = false → ∃ t, exec (.egressSelect q sent) s = .next t ∧ Only [.outputs] s t) ∧
    ((s.portOf q).up = true → s.mode ≠ .warmStart →
      (∀ n rest, (s.portOf q).pauseQ = n :: rest →
        ∃ t, exec (.egressSelect q none) s = .next t ∧ (t.portOf q).onWire = some (.pause n) ∧ (t.portOf q).pauseQ = rest ∧
          (t.portOf q).epQ = (s.portOf q).epQ ∧ (t.portOf q).fwdQ = (s.portOf q).fwdQ ∧ Only [.clock, .net, .outputs] s t) ∧
      (((s.frameSent q).preview q).pick q = none →
        ∃ t, exec (.egressSelect q none) s = .next t ∧ (t.portOf q).onWire = none ∧
          (t.portOf q).epQ = (s.portOf q).epQ ∧ (t.portOf q).fwdQ = (s.portOf q).fwdQ ∧ Only [.clock, .net, .outputs] s t) ∧
      (∀ k f, ((s.frameSent q).preview q).pick q = some (.fwd k) → (s.portOf q).fwdQ[k]? = some f →
        ∃ t, exec (.egressSelect q none) s = .next t ∧ (t.portOf q).onWire = some (.fwd f) ∧
          (t.portOf q).fwdQ = (s.portOf q).fwdQ.eraseIdx k ∧ (t.portOf q).epQ = (s.portOf q).epQ ∧ Only [.clock, .net, .outputs] s t) ∧
      (∀ k e m body, ((s.frameSent q).preview q).pick q = some (.ep k) → (s.portOf q).epQ[k]? = some e → e.load = .ly m →
        m.body = .answer body ∨ m.body = .raw [] → (∀ x, s.ses.find m.session = some x → x.driveSeq < 2 ^ 64 - 1) →
        ∃ u : State, exec (.egressSelect q none) s = .next u.settleCloses.settle ∧ (u.portOf q).onWire = some (.ep e) ∧
          (u.portOf q).epQ.map (fun x => { x with queued := [] }) = (if e.left ≤ 1 then (s.portOf q).epQ.eraseIdx k
            else (s.portOf q).epQ.set k { e with next := e.next + 1 }).map (fun x => { x with queued := [] }) ∧
          (∀ x, s.ses.find m.session = some x → x.phase = .open → m.ends = true →
            (e.left ≤ 1 → (u.ses.find m.session).map (fun y => y.flight m.msgId) = some none) ∧
            (1 < e.left → e.next = 0 → (u.ses.find m.session).map (fun y => (y.flight m.msgId).map Flight.committed) =
              some ((x.flight m.msgId).map fun _ => true))) ∧
          Only [.clock, .log, .admin, .net, .ses, .outputs, .fw] s u))

/-- While the time base runs, GPTP_FRAME_RECEIVED takes the oldest 802.1AS frame of the ingress and completes. A frame that the
standard's layout does not spell has no other effect. Of a frame of the drive's domain from another clock: a peer-delay
request is answered on its port with its receipt time; the two answers to a request of the drive give the receipt times, the
rate of the neighbour and the delay to it; an announcement is recorded for its port; a two-step Sync on the slave port
keeps its receipt time, and its Follow_Up gives the offset, the receipt time less origin, correction and neighbour delay,
and is relayed on the other port where that is a master port. An offset of 1 ms or less leaves the time where it is and
changes the rate within 500 ppm, against the offset's sign (how far is free, and that it is the sign is the model's reading,
log entry 42); a larger one steps the time by it. An offset above 500 ns ends synchronisation, and eight in a row within
500 ns establish it. The layout of the messages is the standard's (log entry 40). (R179, R181, R182, R184) -/
def Obligations.GptpMessages : Prop :=
  ∀ (s : State) (f : InFrame), s.net.inbox.find? (fun x => x.service = .gptp) = some f → f.occupancy = 0 → s.net.paused = false →
    s.time.running = true →
    ∃ t, exec .gptpFrameReceived s = .next t ∧ t.net.inbox = s.net.inbox.erase f ∧ t.elapsed = s.elapsed ∧
      Only [.draws, .log, .net, .time, .outputs] s t ∧
      (parseGptp f.payload = none → t.time = s.time ∧ t.net.port = s.net.port ∧ t.log = s.log) ∧
      (∀ g, parseGptp f.payload = some g → g.domain = s.timeCfg.domain → g.source.clock ≠ s.clockId →
        (∀ seq, g.msg = .pdelayReq seq → (s.portOf f.rx.port).up = true →
          (t.portOf f.rx.port).gptpQ = (s.portOf f.rx.port).gptpQ ++
            [⟨s.timeCfg.domain, .pdelayResp seq f.rx.stamp 0 g.source, s.portId f.rx.port, 0x7F, none⟩] ∧ t.time = s.time) ∧
        (∀ seq t2 corr, g.msg = .pdelayResp seq t2 corr (s.portId f.rx.port) → seq = (s.time.port.get f.rx.port).pdelaySeq →
          (s.time.port.get f.rx.port).t1.isSome = true →
          t.time = { s.time with port := s.time.port.modify f.rx.port fun p =>
            { p with t2 := some ((t2 : Int) + corr).toNat, t4 := some f.rx.stamp } }) ∧
        (∀ seq t3 corr t1 t2 t4, g.msg = .pdelayRespFollowUp seq t3 corr (s.portId f.rx.port) →
          seq = (s.time.port.get f.rx.port).pdelaySeq → (s.time.port.get f.rx.port).t1 = some t1 →
          (s.time.port.get f.rx.port).t2 = some t2 → (s.time.port.get f.rx.port).t4 = some t4 →
          t.time.port.get f.rx.port = GptpPort.measured s.timeCfg.neighborThreshNs t1 t2 ((t3 : Int) + corr).toNat t4 (s.time.port.get f.rx.port)) ∧
        (∀ a, g.msg = .announce a → a.identity ≠ s.clockId → a.steps < 255 → a.path.contains s.clockId = false →
          (t.time.port.get f.rx.port).announce = some a ∧ (t.time.port.get f.rx.port).sender = g.source ∧
          (t.time.port.get f.rx.port).announceBy = s.elapsed + 3 * logNs g.interval) ∧
        (∀ seq origin corr rate, g.msg = .sync seq true origin corr rate → s.time.slave = some f.rx.port →
          (s.time.port.get f.rx.port).asCapable = true →
          t.time = { s.time with port := s.time.port.modify f.rx.port fun p =>
            { p with syncSeq := some (seq, f.rx.stamp), syncBy := some (s.elapsed + 3 * logNs g.interval) } }) ∧
        (∀ seq origin corr rate at_, g.msg = .followUp seq origin corr rate → s.time.slave = some f.rx.port →
          (s.time.port.get f.rx.port).syncSeq = some (seq, at_) →
          (let off : Int := (at_ : Int) - ((origin : Int) + corr + (((s.time.port.get f.rx.port).delay.getD 0 : Nat) : Int))
           t.time.gmOffset = off ∧ t.time.offsets = (off :: s.time.offsets).take 8 ∧
           (t.time.port.get f.rx.port).syncSeq = none ∧
           (t.time.port.get f.rx.port).syncBy = some (s.elapsed + 3 * logNs g.interval) ∧
           (s.gptpRole f.rx.port.other = .master → (s.portOf f.rx.port.other).up = true →
             let r := rateProduct rate (s.time.port.get f.rx.port).rate
             (t.portOf f.rx.port.other).gptpQ = (s.portOf f.rx.port.other).gptpQ ++ [⟨s.timeCfg.domain, .sync seq true origin corr r,
               s.portId f.rx.port.other, s.timeCfg.logSyncInterval, some ⟨at_, (s.time.port.get f.rx.port).delay.getD 0, r⟩⟩]) ∧
           (off.natAbs ≤ 1000000 → t.timeNs = s.timeNs ∧ (-500000 ≤ t.time.ratePpb ∧ t.time.ratePpb ≤ 500000) ∧
             (0 < off → -500000 < s.time.ratePpb → s.time.ratePpb ≤ 500000 → t.time.ratePpb < s.time.ratePpb) ∧
             (off < 0 → -500000 ≤ s.time.ratePpb → s.time.ratePpb < 500000 → s.time.ratePpb < t.time.ratePpb)) ∧
           (1000000 < off.natAbs → t.timeNs = ((s.timeNs : Int) - off).toNat ∧ t.time.ratePpb = s.time.ratePpb) ∧
           (500 < off.natAbs → t.time.synced = false) ∧
           (t.time.offsets.length = 8 → (∀ o ∈ t.time.offsets, o.natAbs ≤ 500) → t.time.synced = true))))

/-- While the time base runs, each of the five completes, at its due instant or later. SYNC_SEND of a grandmaster queues one
two-step Sync with the next sequence number on each linked capable port, and is due again a Sync interval later.
ANNOUNCE_SEND queues an announcement of the grandmaster, with the drive at the end of its path, on each linked master port,
and is due again 1 s later. PDELAY_REQUEST begins a new exchange with the next sequence number on each linked port, queues its
request, and is due again a peer-delay interval later. SYNC_RECEIPT_TIMEOUT while a grandmaster is followed ends
synchronisation and forgets the offsets. ANNOUNCE_RECEIPT_TIMEOUT of a port forgets its announcement, and with nothing
announced on the other port the drive follows none and is grandmaster exactly where it may be. (R181, R183, R184) -/
def Obligations.TimeMessagesSent : Prop :=
  ∀ s : State, s.time.running = true →
    (s.time.grandmaster = true →
      ∃ t, exec .syncSend s = .next t ∧ t.elapsed = max s.elapsed s.time.syncDue ∧
        t.time = { s.time with syncSeq := (s.time.syncSeq + 1) % 65536, syncDue := t.elapsed + logNs s.timeCfg.logSyncInterval } ∧
        (∀ q, (t.portOf q).gptpQ = (s.portOf q).gptpQ ++ (if (s.time.port.get q).asCapable = true ∧ (s.portOf q).up = true then
          [⟨s.timeCfg.domain, .sync s.time.syncSeq true 0 0 0, s.portId q, s.timeCfg.logSyncInterval, none⟩] else [])) ∧
        Only [.clock, .net, .time, .outputs] s t) ∧
    (∃ t, exec .announceSend s = .next t ∧ t.elapsed = max s.elapsed s.time.announceDue ∧
        t.time = { s.time with announceDue := t.elapsed + secs 1 } ∧
        (∀ q, (t.portOf q).gptpQ = (s.portOf q).gptpQ ++ (if s.gptpRole q = .master ∧ (s.portOf q).up = true then
          [⟨s.timeCfg.domain, .announce s.toAnnounce, s.portId q, 0, none⟩] else [])) ∧
        (s.time.slave = none → s.toAnnounce = ⟨if s.timeCfg.gmCapable = 1 then s.timeCfg.priority1 else 255, 248, 0xFE, 0x436A,
          s.timeCfg.priority2, s.clockId, 0, if s.time.ppsLock.isSome = true then 0x90 else 0xA0, [s.clockId]⟩) ∧
        Only [.clock, .net, .time, .outputs] s t) ∧
    (∃ t, exec .pdelayRequest s = .next t ∧ t.elapsed = max s.elapsed s.time.pdelayDue ∧
        t.time.pdelayDue = t.elapsed + logNs s.timeCfg.logPdelayInterval ∧
        (∀ q, (s.portOf q).up = true → (t.portOf q).gptpQ = (s.portOf q).gptpQ ++
            [⟨s.timeCfg.domain, .pdelayReq (((s.time.port.get q).pdelaySeq + 1) % 65536), s.portId q, s.timeCfg.logPdelayInterval, none⟩] ∧
          t.time.port.get q = { s.time.port.get q with
            pdelaySeq := ((s.time.port.get q).pdelaySeq + 1) % 65536, t1 := none, t2 := none, t4 := none }) ∧
        (∀ q, (s.portOf q).up = false → t.portOf q = s.portOf q ∧ t.time.port.get q = s.time.port.get q) ∧
        Only [.clock, .net, .time, .outputs] s t) ∧
    (∀ q, s.time.slave = some q →
      ∃ t, exec .syncReceiptTimeout s = .next t ∧ t.elapsed = max s.elapsed ((s.time.port.get q).syncBy.getD s.elapsed) ∧
        t.time = { s.time with
          synced := false, offsets := [], port := s.time.port.modify q fun p => { p with syncBy := none } } ∧
        (s.time.synced = false → t.log = s.log) ∧ Only [.clock, .log, .time, .outputs] s t) ∧
    (∀ q, (s.time.port.get q).announce.isSome = true → (s.time.port.get q.other).announce = none →
      ∃ t, exec (.announceReceiptTimeout q) s = .next t ∧ t.elapsed = max s.elapsed (s.time.port.get q).announceBy ∧
        (t.time.port.get q).announce = none ∧ t.time.port.get q.other = s.time.port.get q.other ∧
        t.time.slave = none ∧ t.time.grandmaster = decide (s.timeCfg.gmCapable = 1) ∧ Only [.clock, .log, .time, .outputs] s t)

/-- The three rows complete while the time base runs. In a drive that is neither off nor in Dusk, PPS_OUT_EDGE raises the output: at a second boundary
where the rate is not corrected, and never within 500 ms of the last rising edge. PPS_OUT_FALLING_EDGE lowers it 100 ms
after its rise or later. PPS_IN_EDGE with a part shorter than 1 µs is counted under PPS_IN_REJECTED and used no further; in
mode 0x01 a longer one is kept with its time-stamp in front of the last eight; in mode 0x00 nothing happens. (R186, R187) -/
def Obligations.PpsEdges : Prop :=
  ∀ s : State, s.time.running = true →
    (s.mode ≠ .off → s.mode ≠ .dusk → -500000 ≤ s.time.ratePpb → s.time.ratePpb ≤ 500000 → s.time.anchorAt ≤ s.elapsed →
      ∃ t, exec .ppsOutEdge s = .next t ∧ t.time = { s.time with ppsRise := some t.elapsed, ppsHigh := true } ∧
        (s.time.ratePpb = 0 → t.timeNs % 1000000000 = 0) ∧
        (∀ r, s.time.ppsRise = some r → r ≤ s.elapsed → r + ms 500 ≤ t.elapsed) ∧ Only [.clock, .time, .outputs] s t) ∧
    (∀ r, s.time.ppsHigh = true → s.time.ppsRise = some r →
      ∃ t, exec .ppsOutFallingEdge s = .next t ∧ t.elapsed = max s.elapsed (r + ms 100) ∧
        t.time = { s.time with ppsHigh := false } ∧ Only [.clock, .time, .outputs] s t) ∧
    (∀ low high, s.ppsMode ≠ 0 → low < 1000 ∨ high < 1000 →
      ∃ t, exec (.ppsInEdge low high) s = .next t ∧ t.net = { s.net with counters := s.net.counters.addDev .ppsInRejected 1 } ∧
        Only [.net, .outputs] s t) ∧
    (∀ low high, s.ppsMode = 1 → 1000 ≤ low → 1000 ≤ high →
      ∃ t, exec (.ppsInEdge low high) s = .next t ∧ t.time = { s.time with ppsIn := (s.timeNs :: s.time.ppsIn).take 8 } ∧
        Only [.clock, .time, .outputs] s t) ∧
    (∀ low high, s.ppsMode = 0 → ∃ t, exec (.ppsInEdge low high) s = .next t ∧ Only [.outputs] s t)

/-- The three rows complete. DAWN_REPEAT, at its due time or later, queues the next frame of the series on every linked port, to the dawn group address,
and the series ends with its frame 10. DAWN_SOLICITATION at a serving level answers the solicitor on its port with
REPEAT_INDEX 0xFF, if 10 ms have passed since the last answer there; otherwise it is counted as dropped. Where nothing is
served it is only taken. START_LIMIT_WINDOW_CLOSE closes a running window at its end or later. (R101, R105) -/
def Obligations.DawnRows : Prop :=
  ∀ s : State,
    (∀ x, s.start.series = some x →
      ∃ t, exec .dawnRepeat s = .next t ∧ t.elapsed = max s.elapsed x.due ∧
        t.start.series = (if 10 ≤ x.index then none else some ⟨x.level, x.index + 1, x.due + ms 100⟩) ∧
        (∀ q, ((s.portOf q).up = true →
            (t.portOf q).epQ.length = (s.portOf q).epQ.length + 1 ∧
            (t.portOf q).epQ.getLast?.map (fun e => (e.load, e.dst.mac)) = some (.dawn x.level x.index, dawnMac)) ∧
          ((s.portOf q).up = false → t.portOf q = s.portOf q)) ∧
        Only [.clock, .net, .start, .outputs] s t) ∧
    (∀ f, s.net.inbox.find? (fun x => x.service = .solicitation) = some f → f.occupancy = 0 → s.net.paused = false →
      ∃ t, exec .dawnSolicitation s = .next t ∧ t.net.inbox = s.net.inbox.erase f ∧
        (s.servingMode.serving = true → s.dueAgain (ms 10) (s.portOf f.rx.port).solicitAt = true → (s.portOf f.rx.port).up = true →
          (t.portOf f.rx.port).epQ.getLast?.map (fun e => (e.load, e.dst.mac)) = some (.dawn s.servingMode 0xFF, f.rx.peer.mac) ∧
          (t.portOf f.rx.port).solicitAt = some s.elapsed ∧ t.net.counters = s.net.counters) ∧
        (s.servingMode.serving = true → s.dueAgain (ms 10) (s.portOf f.rx.port).solicitAt = false →
          t.net.port = s.net.port ∧ t.net.counters = s.net.counters.addDev .dawnSolDropped 1) ∧
        (s.servingMode.serving = false → t.net.port = s.net.port ∧ t.net.counters = s.net.counters) ∧
        Only [.net, .outputs] s t) ∧
    (∀ at_, s.start.limit = .until_ at_ →
      ∃ t, exec .startLimitWindowClose s = .next t ∧ t.elapsed = max s.elapsed at_ ∧ t.start.limit = .closed ∧
        Only [.clock, .start, .outputs] s t)

/-- With the ingress gate open and link on the port the frame came by: ARP_REQUEST with a request for the IPv4 address in use
queues the reply to its sender. ARP_GATEWAY_TIMER asks again for the
gateway, and is due in 60 s where the gateway is resolved and in 1 s where it is not. NEIGHBOR_SOLICITATION with hop limit
255 for an address of the drive queues a solicited advertisement to the sender, with any other hop limit it changes nothing.
ECHO_REQUEST to a packet of at most 1,500 bytes queues a reply with the identifier, sequence number and data of the
request, at most 100 times in the running second of the port, and counts the rest as dropped. With the gate closed or
without link the three frames are only taken. (R272, R273, R274, R99, R159) -/
def Obligations.AddressServices : Prop :=
  ∀ s : State, s.net.paused = false →
    (∀ k i f, (k = Service.arp ∧ i = Instr.arpRequest) ∨ (k = .nd ∧ i = .neighborSolicitation) ∨ (k = .echo4 ∧ i = .echoRequest false) ∨
        (k = .echo6 ∧ i = .echoRequest true) →
      s.net.inbox.find? (fun x => x.service = k) = some f → f.occupancy = 0 →
      s.net.gateOpen = false ∨ (s.portOf f.rx.port).up = false →
      ∃ t, exec i s = .next t ∧ t.net.inbox = s.net.inbox.erase f ∧ t.net.port = s.net.port ∧ t.net.counters = s.net.counters ∧
        Only [.net, .outputs] s t) ∧
    (∀ f, s.net.inbox.find? (fun x => x.service = .arp) = some f → f.occupancy = 0 → s.net.gateOpen = true →
      (s.portOf f.rx.port).up = true → s.ip4 ≠ 0 → 28 ≤ f.payload.length →
      fieldAt 0 2 f.payload = 1 → fieldAt 2 2 f.payload = 0x0800 → fieldAt 4 1 f.payload = 6 → fieldAt 5 1 f.payload = 4 →
      fieldAt 6 2 f.payload = 1 → fieldAt 24 4 f.payload = s.ip4 →
      ∃ t, exec .arpRequest s = .next t ∧ t.net.inbox = s.net.inbox.erase f ∧
        (t.portOf f.rx.port).epQ.getLast?.map (fun e => (e.ethertype, e.dst.mac, e.load)) = some (0x0806, BitVec.ofNat 48 (fieldAt 8 6 f.payload),
          .raw (arpFrame 2 s.macInUse s.ip4 (fieldAt 8 6 f.payload) (fieldAt 14 4 f.payload))) ∧
        Only [.log, .net, .outputs] s t) ∧
    (∀ q at_, (s.portOf q).gatewayDue = some at_ → s.ip4 ≠ 0 → s.cfg.inUse.protocol.v4Gateway ≠ 0 → (s.portOf q).up = true →
      ∃ t, exec (.arpGatewayTimer q) s = .next t ∧ t.elapsed = max s.elapsed at_ ∧
        (t.portOf q).gatewayDue = some (t.elapsed + secs (if (s.portOf q).gateway.isSome = true then 60 else 1)) ∧
        (t.portOf q).epQ.getLast?.map (fun e => (e.dst.mac, e.load)) =
          some (broadcastMac, .raw (arpFrame 1 s.macInUse s.ip4 0 s.cfg.inUse.protocol.v4Gateway)) ∧
        t.portOf q.other = s.portOf q.other ∧ Only [.clock, .net, .outputs] s t) ∧
    (∀ f, s.net.inbox.find? (fun x => x.service = .nd) = some f → f.occupancy = 0 → s.net.gateOpen = true →
      (s.portOf f.rx.port).up = true →
      ∃ t, exec .neighborSolicitation s = .next t ∧ t.net.inbox = s.net.inbox.erase f ∧
        (fieldAt 7 1 f.payload ≠ 255 → t.net.port = s.net.port ∧ t.log = s.log) ∧
        (fieldAt 7 1 f.payload = 255 → 64 ≤ f.payload.length → s.ip6s.contains (fieldAt 48 16 f.payload) = true →
          fieldAt 40 1 f.payload ≠ 136 → fieldAt 8 16 f.payload ≠ 0 →
          (t.portOf f.rx.port).epQ.getLast?.map (fun e => (e.ethertype, e.dst.mac, e.load)) = some (0x86DD, f.rx.peer.mac,
            .raw (s.advertisement (fieldAt 48 16 f.payload) (fieldAt 8 16 f.payload) true)) ∧ t.log = s.log) ∧
        Only [.log, .net, .outputs] s t) ∧
    (∀ v6 f, s.net.inbox.find? (fun x => x.service = (if v6 = true then .echo6 else .echo4)) = some f → f.occupancy = 0 →
      s.net.gateOpen = true → (s.portOf f.rx.port).up = true → f.payload.length ≤ 1500 →
      ∃ t, exec (.echoRequest v6) s = .next t ∧ t.net.inbox = s.net.inbox.erase f ∧
        (s.elapsed < (s.portOf f.rx.port).echoFrom + secs 1 → 100 ≤ (s.portOf f.rx.port).echoCount →
          t.net.port = s.net.port ∧ t.net.counters = s.net.counters.bumpPort f.rx.port .icmpRateDropped) ∧
        ((s.portOf f.rx.port).echoFrom + secs 1 ≤ s.elapsed ∨ (s.portOf f.rx.port).echoCount < 100 →
          t.net.counters = s.net.counters.bumpPort f.rx.port .icmpEchoAnswered ∧
          (t.portOf f.rx.port).echoCount = (if s.elapsed < (s.portOf f.rx.port).echoFrom + secs 1 then (s.portOf f.rx.port).echoCount else 0) + 1 ∧
          ∃ b, (t.portOf f.rx.port).epQ.getLast?.map (fun e => (e.dst.mac, e.load)) = some (f.rx.peer.mac, .raw b) ∧
            (v6 = false → b.drop 24 = (slice 20 (fieldAt 2 2 f.payload - 20) f.payload).drop 4) ∧
            (v6 = true → b.drop 44 = slice 44 (fieldAt 4 2 f.payload - 4) f.payload)) ∧
        Only [.net, .outputs] s t)

/-- SESSION_OPEN takes the oldest open handed on and completes. Refused by a check of rows 4 to 6 or for its public key, or ended by a tamper
alarm, it leaves the sessions as they are and is answered on its port with SESSION_ID 0, no tag, and the status and reason.
Otherwise a pending handshake is added last, with the next identifier, the tenant, generation, port and peer of the open,
and the granted window and ALIVE timeout, and SESSION_ACCEPT with its SESSION_ID stands last on the port. Nothing but draws,
ports and sessions changes. (R214, R215, R217, R220, R223) -/
def Obligations.SessionsOpen : Prop :=
  ∀ (s : State) (f : InFrame) (tampered : Bool), s.net.inbox.find? (fun x => x.service = .sessionOpen) = some f →
    ∃ t, exec (.sessionOpen tampered) s = .next t ∧ t.net.inbox = s.net.inbox.erase f ∧ Only [.draws, .net, .ses, .outputs] s t ∧
      (let h := parseHeader f.payload
       let refusal : Option (Nat × Nat) := match s.openRefused h f.rx (frameBody f.payload) with
         | some r => some r
         | none => if tampered = true then some (0x42, 2) else none
       (∀ r, refusal = some r → t.ses = s.ses ∧
          (t.lastMessage f.rx.port).map (fun m => (m.kind, m.session, m.msgId, m.status, m.reason, m.key)) = some (0x11, 0, h.msgId, r.1, r.2, none)) ∧
       (refusal = none → s.ses.find (s.nextId 0xFFFF s.ses.lastId) = none →
          ∃ e, t.ses.sessions = s.ses.sessions ++ [e] ∧ e.id = s.nextId 0xFFFF s.ses.lastId ∧ e.tenant = h.tenant ∧ e.gen = h.gen ∧
            e.port = f.rx.port ∧ e.peer = f.rx.peer ∧ e.phase = .pending s.elapsed ∧ e.flights = [] ∧
            e.window = grantedWindow (fieldAt 0 2 (frameBody f.payload)) (s.tenant h.tenant).window ∧
            e.aliveMs = grantedAlive h.gen (fieldAt 2 2 (frameBody f.payload)) ∧ t.ses.lastId = e.id ∧
            (t.lastMessage f.rx.port).map (fun m => (m.kind, m.session, m.msgId, m.status)) = some (0x02, e.id, h.msgId, 0)))

/-- SESSION_CONFIRM and HANDSHAKE_EXPIRED complete. A confirm on its pending handshake whose tag verifies opens the session with
TOP 1 and is answered with OK; while the entry to Deep Sleep is under way it is answered with NOT_READY, reason 0x14, instead.
One whose tag fails is counted under LY_AUTH_FAIL and answered with AUTH_FAILED, reason 0x02, and one that a tamper alarm
meets is answered with SEALED, reason 0x02, and SESSION_ID 0; each time the handshake is gone. HANDSHAKE_EXPIRED discards a
pending handshake 100 ms after its SESSION_ACCEPT or later, without an answer. (R87, R215, R219, R220) -/
def Obligations.HandshakesEnd : Prop :=
  (∀ (s : State) (f : InFrame) (e : Sess) (since : Nat) (tampered : Bool),
    s.net.inbox.find? (fun x => x.service = .sessionConfirm) = some f →
    s.ses.find (parseHeader f.payload).session = some e → e.phase = .pending since →
    ∃ t, exec (.sessionConfirm tampered) s = .next t ∧ t.net.inbox = s.net.inbox.erase f ∧
      (let h := parseHeader f.payload
       (tampered = true → t.ses.find e.id = none ∧
          (t.lastMessage f.rx.port).map (fun m => (m.kind, m.session, m.msgId, m.status, m.reason, m.key)) = some (0x11, 0, h.msgId, 0x42, 2, none)) ∧
       (tampered = false → tagOk e.kH2d e.saltH2d f.payload = true → s.power.sleep ≠ .awake → t.ses.find e.id = none ∧
          (t.lastMessage f.rx.port).map (fun m => (m.kind, m.session, m.msgId, m.status, m.reason)) = some (0x11, e.id, h.msgId, 0x31, 0x14)) ∧
       (tampered = false → tagOk e.kH2d e.saltH2d f.payload = true → s.power.sleep = .awake →
          ((t.ses.find e.id).map fun x => (x.phase, x.top, x.heardAt, x.tag)) = some (.open, 1, s.elapsed, f.rx.tag) ∧
          (t.lastMessage f.rx.port).map (fun m => (m.kind, m.session, m.msgId, m.status, m.reason)) = some (0x11, e.id, h.msgId, 0, 0)) ∧
       (tampered = false → tagOk e.kH2d e.saltH2d f.payload = false →
          t.ses.find e.id = none ∧ t.net.counters = s.net.counters.addDev .lyAuthFail 1 ∧
          (t.lastMessage f.rx.port).map (fun m => (m.kind, m.session, m.msgId, m.status, m.reason)) = some (0x11, e.id, h.msgId, 0x40, 2))) ∧
      Only [.log, .admin, .net, .ses, .outputs, .fw] s t) ∧
  (∀ (s : State) (sid : Nat) (e : Sess) (since : Nat), s.ses.find sid = some e → e.phase = .pending since →
    ∃ t, exec (.handshakeExpired sid) s = .next t ∧ t.elapsed = max s.elapsed (since + ms 100) ∧
      t.ses.sessions = s.ses.sessions.filter (fun x => x.id ≠ sid) ∧ t.ses.closed.head? = some (sid, t.elapsed) ∧
      Only [.clock, .log, .admin, .ses, .outputs, .fw] s t)

/-- SESSION_CLOSE and ALIVE_TIMEOUT complete. A SESSION_CLOSE of an open session makes it closing, with the MSG_ID, ALIVE and
origin that its answer needs; every message of it that is neither admitted nor complete is dropped, and with the flag set
every uncommitted request of it, and every complete one that waits for its row, has its result formed.
ALIVE_TIMEOUT of an open session, at the timeout after the last frame heard or later, makes it dropping, with cause 0x07
where its link went down and stayed down and 0x01 otherwise, logs it, drops its messages and ends its uncommitted requests.
The answer or the notice follows once nothing else of the session is queued or in flight. (R221, R222, R223) -/
def Obligations.SessionsClose : Prop :=
  (∀ (s : State) (f : InFrame) (e : Sess), s.net.inbox.find? (fun x => x.service = .sessionClose) = some f →
    s.ses.find (parseHeader f.payload).session = some e → e.phase = .open →
    ∃ u : State, exec .sessionClose s = .next u.settleCloses.settle ∧ u.net.inbox = s.net.inbox.erase f ∧
      (u.ses.find e.id).map Sess.phase = some (.closing (parseHeader f.payload).msgId (parseHeader f.payload).alive false
        { f.rx with stamp := s.admission f.rx.stamp } false) ∧
      (∀ x, u.ses.find e.id = some x → ∀ a ∈ x.assembling, a.admitted = true ∨ a.complete = true) ∧
      (bit (fieldAt 3 1 (frameBody f.payload)) 0 = true → ∀ x, u.ses.find e.id = some x →
        (∀ g ∈ x.flights, g.committed = true ∨ g.work = .answered) ∧ ∀ a ∈ x.assembling, a.admitted = true ∨ a.kind ≠ 0x10) ∧
      (bit (fieldAt 3 1 (frameBody f.payload)) 0 = false → (u.ses.find e.id).map Sess.flights = some e.flights) ∧
      Only [.log, .net, .time, .ses, .store, .outputs] s u) ∧
  (∀ (s : State) (sid : Nat) (e : Sess), s.ses.find sid = some e → e.phase = .open → s.net.gateOpen = true →
    ∃ u : State, exec (.aliveTimeout sid) s = .next u.settleCloses.settle ∧ u.elapsed = max s.elapsed (e.heardAt + ms e.aliveMs) ∧
      (u.ses.find sid).map Sess.phase = some (.dropping (if e.linkLost = true ∧ (s.portOf e.port).up = false then 7 else 1) false) ∧
      (∀ x, u.ses.find sid = some x → (∀ a ∈ x.assembling, a.admitted = true ∨ (a.complete = true ∧ a.kind ≠ 0x10)) ∧ ∀ g ∈ x.flights, g.committed = true ∨ g.work = .answered) ∧
      (s.mode ≠ .rescue → u.log.events.head?.map LogEntry.code = some EventCode.sessionClosed.code) ∧
      Only [.clock, .log, .net, .ses, .store, .outputs] s u)

/-- The three rows complete. MESSAGE_ASSEMBLY_TIMEOUT of an incomplete message that is not admitted, with the gate open: at its due time or later it is
gone and answered with INTEGRITY, reason 0x03. CANCEL of a complete cancel message in an open session of a tenant that may:
with no target it is answered with NOT_FOUND, reason 0x03; with a committed one with TOO_LATE and the target stands; an
uncommitted target ends with CANCELLED as its first answer or completion, and its range lock and waiting range are gone.
KEEPALIVE on a request that the state admits (as the statement Admission says when), without a key and with a whole prefix,
is answered inline with OK. (R227, R234, R242) -/
def Obligations.MessagesEnd : Prop :=
  (∀ (s : State) (sid kind msgId : Nat) (e : Sess) (a : Assembly), s.ses.find sid = some e → e.joining kind msgId = some a →
    a.admitted = false → s.net.gateOpen = true →
    ∃ t, exec (.messageAssemblyTimeout sid kind msgId) s = .next t ∧
      t.elapsed = max s.elapsed (if e.gen = 2 then a.firstAt + ms 100 else a.lastAt + ms 10) ∧
      (t.ses.find sid).map Sess.assembling = some (e.assembling.filter fun m => m.serial ≠ a.serial) ∧
      (t.lastMessage a.rx.port).map (fun m => (m.kind, m.session, m.msgId, m.status, m.reason)) = some (0x11, sid, msgId, 0x51, 3) ∧
      Only [.clock, .log, .net, .ses, .outputs] s t) ∧
  (∀ (s : State) (sid msgId : Nat) (e : Sess) (c : Assembly), s.ses.find sid = some e → e.message 0x13 msgId = some c →
    e.phase = .open → s.net.gateOpen = true → c.complete = true → s.tenantDenied e.tenant e.gen none = none →
    (s.servingMode = .sealed → e.tenant = 0) →
    (let target := (fieldAt? 0 4 c.body).bind e.flight
     (target = none → ∃ t, exec (.cancel sid msgId) s = .next t ∧
        (t.lastMessage c.rx.port).map (fun m => (m.session, m.msgId, m.status, m.reason)) = some (sid, msgId, 0x10, 3) ∧
        (t.ses.find sid).map Sess.flights = some e.flights ∧ Only [.log, .net, .time, .ses, .outputs] s t) ∧
     (∀ f, target = some f → f.committed = true → ∃ t, exec (.cancel sid msgId) s = .next t ∧
        (t.lastMessage c.rx.port).map (fun m => (m.session, m.msgId, m.status, m.reason)) = some (sid, msgId, 0x61, 0) ∧
        (t.ses.find sid).map Sess.flights = some e.flights ∧ Only [.log, .net, .time, .ses, .outputs] s t) ∧
     (∀ f, target = some f → f.committed = false → ∃ t, exec (.cancel sid msgId) s = .next t ∧
        (t.lastMessage f.rx.port).map (fun m => (m.kind, m.session, m.msgId, m.status, m.reason, m.ends)) =
          some (if e.gen ≠ 1 ∧ f.token.isSome = true then 0x12 else 0x11, sid, f.msgId, 0x60, 0, true) ∧
        t.ses.held = s.ses.held.filter (fun l => !(l.session = sid && l.msgId = f.msgId)) ∧
        t.ses.waiting = s.ses.waiting.filter (fun l => !(l.session = sid && l.msgId = f.msgId)) ∧
        Only [.log, .net, .time, .ses, .store, .outputs, .media] s t))) ∧
  (∀ (s u : State) (sid msgId : Nat) (x : Admitted), s.takeRequest sid msgId false [0x01] = (some x, u) →
    fieldAt 0 1 x.body = 0 → 20 ≤ x.body.length → s.power.sleep = .awake →
    ∃ t, exec (.keepalive sid msgId) s = .next t ∧ t.answers x.ask 0 0 {} ∧ Only [.log, .net, .time, .ses, .outputs] s t)

/-- FRAME_RECEIVED completes. A port without link receives nothing. On an up port a packet ends no earlier than its wire time
after the one before it. A fragment where preemption is not active is discarded under RX_FRAG_ERR. Where it is, the first
fragment of a frame, known by the mCRC at its end (its form is presumed, log entry 42), is kept; a continuation with the frame
number and count awaited that ends in the FCS completes the frame, which is then judged as a whole one; any other continuation
discards what was kept. A whole frame
with a fragment or symbol error, a runt, one above the largest frame, one with a wrong FCS, and one from a group address or
address 0 is discarded and counted under its own counter alone. A sound pause frame is counted and handed on to its row. A
sound frame to the endpoint address while the ingress gate is closed, in a serving drive, is counted under EP_NOT_READY and
enters no session. A sound broadcast ARP frame with the gate open and room in the ingress buffer is handed on with the room
that it takes. (R99, R155, R156, R158, R162, R164, R170) -/
def Obligations.FrameReception : Prop :=
  (∀ (s : State) (q : Port) (pkt : MPacket) (err : RxError) (bytes : Bytes),
    ((s.portOf q).up = false → ∃ t, exec (.frameReceived q ⟨pkt, err⟩ bytes) s = .next t ∧ Only [.outputs] s t) ∧
    ((s.portOf q).up = true → pkt ≠ .whole →
      (let at_ := max s.elapsed ((s.portOf q).rxEnd + wireNs (s.portOf q).speed bytes.length)
       let body := bytes.take (bytes.length - 4)
       let kept (x : Option RxPart) : PerPort PortState := s.net.port.modify q fun p => { p with rxEnd := at_, rxPart := x }
       let lost : Prop := ∃ t, exec (.frameReceived q ⟨pkt, err⟩ bytes) s = .next t ∧ t.elapsed = at_ ∧
         t.net = { s.net with port := kept none, counters := s.net.counters.bumpPort q .rxFragErr } ∧ Only [.clock, .net, .outputs] s t
       ((s.portOf q).preempt ≠ .active ∨ err = .fragment → lost) ∧
       ((s.portOf q).preempt = .active → err ≠ .fragment →
         (∀ n, pkt = .first n → (s.portOf q).rxPart = none → bytes.drop (bytes.length - 4) = mcrcOf body →
           ∃ t, exec (.frameReceived q ⟨pkt, err⟩ bytes) s = .next t ∧ t.elapsed = at_ ∧
             t.net = { s.net with port := kept (some ⟨n, 0, body, at_ - bytes.length * 8 * bitNs (s.portOf q).speed, decide (err = .symbol)⟩) } ∧
             Only [.clock, .net, .outputs] s t) ∧
         (∀ n k, pkt = .continuation n k → ((s.portOf q).rxPart = none ∨ ∃ p, (s.portOf q).rxPart = some p ∧ (n ≠ p.frame ∨ k ≠ p.next)) → lost) ∧
         (∀ n k p, pkt = .continuation n k → (s.portOf q).rxPart = some p → n = p.frame → k = p.next →
           bytes.drop (bytes.length - 4) ≠ mcrcOf (p.bytes ++ body) → 4 ≤ bytes.length →
           ∃ u : State, u.elapsed = at_ ∧ u.net = { s.net with port := kept none } ∧ Only [.clock, .net] s u ∧
             exec (.frameReceived q ⟨pkt, err⟩ bytes) s =
               .next (u.judgeFrame q (p.bad || decide (err = .symbol)) p.begun (p.bytes ++ bytes)).settle))))) ∧
  ∀ (s : State) (q : Port) (err : RxError) (bytes : Bytes),
    ((s.portOf q).up = true →
      (let f := parseFrame bytes
       let at_ := max s.elapsed ((s.portOf q).rxEnd + wireNs (s.portOf q).speed bytes.length)
       let most := if f.tagged = true then (s.portCfg q).maxFrame else (s.portCfg q).maxFrame - 4
       let ends := s.net.port.modify q fun p => { p with rxEnd := at_ }
       let discarded (k : PortCounter) : Prop := ∃ t, exec (.frameReceived q ⟨.whole, err⟩ bytes) s = .next t ∧ t.elapsed = at_ ∧
         t.net = { s.net with port := ends, counters := s.net.counters.bumpPort q k } ∧ Only [.clock, .net, .outputs] s t
       let sized : Prop := err = .none ∧ 64 ≤ bytes.length ∧ bytes.length ≤ most
       let sound : Prop := sized ∧ f.fcsOk = true ∧ isGroup f.src = false ∧ f.src ≠ 0 ∧ f.src ≠ s.macInUse.toNat ∧
         f.src ≠ s.fused.macPortA.toNat ∧ f.src ≠ s.fused.macPortB.toNat ∧ (f.tagged = true → f.tag.vid 1 ≠ 0xFFF)
       (err = .fragment → discarded .rxFragErr) ∧
       (err = .symbol → discarded .rxSymbolErr) ∧
       (err = .none → bytes.length < 64 → discarded .rxRunt) ∧
       (err = .none → 64 ≤ bytes.length → most < bytes.length → discarded .rxOversize) ∧
       (sized → f.fcsOk = false → discarded .rxFcsErr) ∧
       (sized → f.fcsOk = true → isGroup f.src = true ∨ f.src = 0 → discarded .rxBadSource) ∧
       (sound → f.dst = 0x0180C2000001 → f.ethertype = 0x8808 → fieldAt 0 2 f.payload = 1 →
         ∃ t, exec (.frameReceived q ⟨.whole, err⟩ bytes) s = .next t ∧ t.elapsed = at_ ∧
           t.net.counters = (s.net.counters.bumpPort q .rxFramesOk).bumpPort q .rxPause ∧ t.net.port = ends ∧
           t.net.inbox.length = s.net.inbox.length + 1 ∧
           (t.net.inbox.getLast?.map fun x => (x.service, x.rx.port, x.payload, x.rx.at_)) = some (.pause, q, f.payload, at_) ∧
           Only [.clock, .net, .outputs] s t) ∧
       (sound → f.dst = s.macInUse.toNat → (f.dst < 0x0180C2000000 ∨ 0x0180C200000F < f.dst) → f.ethertype ≠ 0x88F7 →
         f.dst ≠ (s.fused.macPort q).toNat → s.mode.serving = true → s.net.gateOpen = false →
         ∃ t, exec (.frameReceived q ⟨.whole, err⟩ bytes) s = .next t ∧ t.net.inbox = s.net.inbox ∧ t.net.level = s.net.level ∧
           (s.bridgeCfg.learn = 0 → t.net.counters = (s.net.counters.bumpPort q .rxFramesOk).addDev .epNotReady 1) ∧
           Only [.clock, .net, .outputs] s t) ∧
       (sound → f.dst = broadcastMac.toNat → broadcastMac ≠ s.macInUse → broadcastMac ≠ s.fused.macPort q → f.ethertype = 0x0806 →
         s.cfg.inUse.protocol.ly3Ethertype ≠ 0x0806 → s.mode.serving = true → s.net.gateOpen = true →
         s.net.level + occupancyOf bytes.length f.tagged ≤ 196608 →
         ∃ t, exec (.frameReceived q ⟨.whole, err⟩ bytes) s = .next t ∧
           t.net.level = s.net.level + occupancyOf bytes.length f.tagged ∧
           (t.net.inbox.getLast?.map fun x => (x.service, x.rx.port, x.payload, x.occupancy)) =
             some (.arp, q, f.payload, occupancyOf bytes.length f.tagged) ∧
           Only [.clock, .net, .outputs] s t)))

/-- A request row takes the complete message of an open session while the gate is open, unless a request on one of its keys that
comes before it in admission order still waits: then it does nothing. A MSG_ID in flight on LY1 and LY3 is
answered with INTEGRITY, reason 0x03; then TENANT_DENIED, SEALED, BUSY for a full window and BUSY for an LY1 set in use are
answered with their reasons, in this order, and nothing is admitted. Otherwise the request is admitted with its body, at the
stamp of its last frame but never before an earlier admission, and is in flight. Either way the message is gone. (R35, R180,
R211, R231, R232, R237, R286) -/
def Obligations.Admission : Prop :=
  ∀ (s : State) (sid msgId : Nat) (ly1 : Bool) (ops : List Nat) (e : Sess) (a : Assembly), s.ses.find sid = some e → e.message 0x10 msgId = some a →
    e.phase = .open → s.net.gateOpen = true → a.complete = true → a.admitted = false → decide (e.gen = 1) = ly1 → ops.contains a.opcode = true →
    (let r := s.takeRequest sid msgId ly1 ops
     let dup := e.gen ≠ 2 ∧ (e.flight msgId).isSome = true
     let sealed := s.servingMode = .sealed ∧ ¬ (e.tenant = 0 ∧ (a.opcode = 0x01 ∨ isAdminOp a.opcode = true))
     let busy := e.gen = 1 ∧ loadsSet a.opcode = true ∧ (e.sets.getD (parseLy1 a.body).set {}).busy = true
     let refused (status reason : Nat) : Prop := r.1 = none ∧
       (r.2.lastMessage a.rx.port).map (fun m => (m.kind, m.session, m.msgId, m.status, m.reason)) = some (0x11, sid, msgId, status, reason)
     (s.outranked e a = true → r = (none, s)) ∧
     (s.outranked e a = false → (dup → refused 0x51 3) ∧
     (∀ d, ¬ dup → s.tenantDenied e.tenant e.gen (some a.opcode) = some d → refused 0x41 d) ∧
     (¬ dup → s.tenantDenied e.tenant e.gen (some a.opcode) = none → sealed → refused 0x42 1) ∧
     (∀ w, ¬ dup → s.tenantDenied e.tenant e.gen (some a.opcode) = none → ¬ sealed → s.windowFull e s.limitRuns = some w → refused 0x22 w) ∧
     (¬ dup → s.tenantDenied e.tenant e.gen (some a.opcode) = none → ¬ sealed → s.windowFull e s.limitRuns = none → busy → refused 0x22 1) ∧
     (¬ dup → s.tenantDenied e.tenant e.gen (some a.opcode) = none → ¬ sealed → s.windowFull e s.limitRuns = none → ¬ busy →
       ∃ x, r.1 = some x ∧ x.body = a.body ∧ x.ask.sid = sid ∧ x.ask.msgId = msgId ∧ x.ask.gen = e.gen ∧ x.ask.tenant = e.tenant ∧
         x.ask.opcode = a.opcode ∧ x.ask.flying = true ∧ x.ask.token = none ∧ x.ask.admitAt = max a.stamp s.time.admitFloor ∧
         r.2.time.admitFloor = x.ask.admitAt ∧ ((r.2.ses.find sid).bind fun y => y.flight msgId).isSome = true) ∧
     (r.2.ses.find sid).map Sess.assembling = some (e.assembling.filter fun m => m.serial ≠ a.serial)) ∧ Only [.log, .net, .time, .ses] s r.2)

/-- GET completes on a request that the state admits (as the statement Admission says when), whose key and length are within their limits, in a drive not on its way to Deep Sleep. An absent
key is answered with NOT_FOUND, reason 0x01, an expired one with NOT_FOUND, reason 0x02 and its version, and a version that
is no longer readable with VERSION_MISMATCH and the newest one. A version to be read is answered inline with its bytes from
the offset on where no byte is asked for or all the bytes asked for stand in SRAM; otherwise the request stays in flight with its
read, which LY3 tells with a HELD answer and a new HELD_TOKEN. The keys, staged extents and flash stay as they are. (R252,
R253, R300, R303, R310, R316) -/
def Obligations.Gets : Prop :=
  ∀ (s u : State) (sid msgId : Nat) (x : Admitted), s.takeRequest sid msgId false [0x10] = (some x, u) →
    (parseBody false x.body).keyBad = none → (parseBody false x.body).b ≤ (if x.ask.gen = 2 then 65536 else 1416) → s.power.sleep = .awake →
    ∃ t, exec (.get sid msgId) s = .next t ∧ t.store.keys = s.store.keys ∧ t.store.staging = s.store.staging ∧ t.store.flash = s.store.flash ∧
      Only [.draws, .log, .net, .time, .ses, .store, .outputs, .media] s t ∧
      (let a := x.ask
       let p := parseBody false x.body
       let pinned := (findPin s.store.pins a.tenant p.key).isSome
       (resolve s.store.keys a.tenant p.key a.admitAt = .absent → t.answers a 0x10 1 { pinned := pinned }) ∧
       (∀ n, resolve s.store.keys a.tenant p.key a.admitAt = .expired n →
          t.answers a 0x10 2 { version := n } ∧ t.store.pins = dropPin s.store.pins a.tenant p.key) ∧
       (∀ top, resolve s.store.keys a.tenant p.key a.admitAt = .present top → t.store.pins = s.store.pins ∧
          (readable s.store.keys a.tenant p.key p.versionCond a.admitAt = none → t.answers a 0x11 0 { version := top.num, pinned := pinned }) ∧
          (∀ v, readable s.store.keys a.tenant p.key p.versionCond a.admitAt = some v →
            (p.b = 0 ∨ (v.covers p.a p.b = true ∧ spanInSram s.store a.tenant p.key v p.a p.b = true) →
              t.answers a 0 0 { version := v.num, result := v.total, segmented := v.segmented, pinned := pinned,
                                data := slice (if p.b = 0 then 0 else p.a) (min p.b (v.total - p.a)) v.value }) ∧
            (p.b ≠ 0 → v.covers p.a p.b = true → spanInSram s.store a.tenant p.key v p.a p.b = false →
              ((t.ses.find sid).bind fun e => e.flight msgId).map Flight.work =
                some (.read p.key v.num v.value v.total v.segmented p.a p.b) ∧
              (a.gen = 3 → t.ses.lastToken = nextToken s.ses.lastToken ∧
                ((t.ses.find sid).bind fun e => e.flight msgId).map Flight.token = some (some (nextToken s.ses.lastToken)) ∧
                (t.lastMessage a.rx.port).map (fun m => (m.kind, m.session, m.msgId, m.status)) = some (0x11, sid, msgId, 0x01))) ∧
            (p.b ≠ 0 → v.covers p.a p.b = false →
              ((t.ses.find sid).bind fun e => e.flight msgId).map Flight.work = some (.openRead p.key v.num v.admitAt p.a p.b)))))

/-- PUT, APPEND and DELETE complete on a request that the state admits (as the statement Admission says when). A complete PUT or
APPEND that passes rows 8 to 10 and that windbreak grants, with no poisoned line: its version stands in
front of its key with the value, for an APPEND behind the value before, every other key is as it was, one extent of its
lines is staged, the bucket and HOST_BYTES_WRITTEN move by it, the request is committed, and OK carries version and length.
A DELETE of a present key removes it with its pin, stages 64 bytes and answers with the version. Refused by windbreak, each
answers THROTTLED with RETRY_AFTER_US or BRACING, and store, buckets and media stay as they were. (R21, R80, R235, R299,
R301, R302, R319, R376, R417) -/
def Obligations.WritesAndDeletes : Prop :=
  ∀ (s u : State) (sid msgId : Nat) (x : Admitted),
    (∀ (append : Bool) (e : Sess) (m : Assembly) (w : NewVersion), s.ses.find sid = some e → e.message 0x10 msgId = some m → m.early e.gen = false →
      s.takeRequest sid msgId false [if append = true then 0x21 else 0x20] = (some x, u) →
      (let a := x.ask
       let p := parseBody false x.body
       let b := u.expirePin a.tenant p.key a.admitAt
       let first := if w.segmented = true then min p.b segmentBytes else p.b
       let charge : Charge := ⟨lineBytes first, true, overCapacity b.store.keys a.tenant p.key a.admitAt (p.keyLen + w.total) s.fused.userCapacity⟩
       let row : Instr := if append = true then .append sid msgId none else .put sid msgId none
       firstOf [writeLimits append a p, b.writeRefused] = none → b.resolveWrite append a p = .ok w →
       (b.judge charge = .granted → ∃ t, exec row s = .next t ∧
          (newest t.store.keys a.tenant p.key).map (fun v => (v.num, v.value, v.total, v.admitAt, v.expiry)) =
            some (w.num, (w.base.map Version.value).getD [] ++ p.data.take first, w.total, a.admitAt, w.expiry) ∧
          (∀ t' k', (t' ≠ a.tenant ∨ k' ≠ p.key) → findKey t.store.keys t' k' = findKey s.store.keys t' k') ∧
          t.store.staging.length = s.store.staging.length + 1 ∧
          t.store.staging.getLast?.map (fun y => (y.bytes, y.part)) = some (lineBytes first, 1) ∧
          t.media.hostBytes = min (2 ^ 64 - 1) (s.media.hostBytes + lineBytes first) ∧
          t.reg.writeBucket.units = (s.reg.settleBuckets s.elapsed).writeBucket.units - lineBytes first * 4294967296 ∧
          ((t.ses.find sid).bind fun y => y.flight msgId).map Flight.committed = some true ∧
          t.answers a 0 0 { version := w.num, result := w.total, segmented := w.segmented, pinned := (findPin b.store.pins a.tenant p.key).isSome } ∧
          Only [.log, .net, .time, .ses, .store, .reg, .outputs, .media] s t) ∧
       (∀ reason retry, b.judge charge = .throttled reason retry → ∃ t, exec row s = .next t ∧
          t.answers a 0x21 reason { result := retry, pinned := (findPin b.store.pins a.tenant p.key).isSome } ∧
          t.store = b.store ∧ Only [.log, .net, .time, .ses, .store, .outputs] s t) ∧
       (∀ reason, b.judge charge = .bracing reason → ∃ t, exec row s = .next t ∧
          t.answers a 0x32 reason { pinned := (findPin b.store.pins a.tenant p.key).isSome } ∧
          t.store = b.store ∧ Only [.log, .net, .time, .ses, .store, .outputs] s t))) ∧
    (∀ v, s.takeRequest sid msgId false [0x22] = (some x, u) →
      (let a := x.ask
       let p := parseBody false x.body
       firstOf [p.keyBad, u.writeRefused] = none → resolve u.store.keys a.tenant p.key a.admitAt = .present v →
       p.versionCond = 0 ∨ p.versionCond = v.num →
       (u.judge ⟨64, false, false⟩ = .granted → ∃ t, exec (.delete sid msgId) s = .next t ∧
          newest t.store.keys a.tenant p.key = none ∧ findPin t.store.pins a.tenant p.key = none ∧
          (∀ t' k', (t' ≠ a.tenant ∨ k' ≠ p.key) → findKey t.store.keys t' k' = findKey s.store.keys t' k') ∧
          t.store.staging.getLast?.map (fun y => (y.bytes, y.change)) = some (64, .delete a.tenant p.key) ∧
          ((t.ses.find sid).bind fun y => y.flight msgId).map Flight.committed = some true ∧
          t.answers a 0 0 { version := v.num, pinned := (findPin s.store.pins a.tenant p.key).isSome } ∧
          Only [.log, .net, .time, .ses, .store, .reg, .outputs, .media] s t) ∧
       (∀ reason retry, u.judge ⟨64, false, false⟩ = .throttled reason retry → ∃ t, exec (.delete sid msgId) s = .next t ∧
          t.answers a 0x21 reason { result := retry, pinned := (findPin s.store.pins a.tenant p.key).isSome } ∧
          Only [.log, .net, .time, .ses, .outputs] s t)))

/-- PIN and UNPIN complete on a request that the state admits (as the statement Admission says when). PIN of a present key that
is not pinned, that fits, in a drive that is not in Brace: the key is pinned with its charge and
the map has changed. Where its version is closed and stands in SRAM the pin is loaded and OK carries its version and the pin
space left; otherwise the request waits for the load, or for the open version to end. A key already pinned is answered with
OK at once and nothing of the store changes; a key that does not fit is answered with TOO_LARGE, reason 0x04. UNPIN ends the
pin, if any, and is answered with OK and the pin space left. No other pin and no key changes. (R258, R259, R260, R310) -/
def Obligations.PinsAndUnpins : Prop :=
  ∀ (s u : State) (sid msgId : Nat) (x : Admitted),
    (∀ v, s.takeRequest sid msgId false [0x40] = (some x, u) →
      (let a := x.ask
       let p := parseBody false x.body
       let charge := pinCharge p.keyLen v.total
       let fits := tenantPins u.store.pins a.tenant + charge ≤ (s.tenant a.tenant).pinMaxKib * 1024 ∧ pinsTotal u.store.pins + charge ≤ pinCacheBytes
       let ready := v.isOpen = false ∧ inSram u.store a.tenant p.key v = true
       firstOf [p.keyBad, u.writeRefused] = none → resolve u.store.keys a.tenant p.key a.admitAt = .present v →
       (findPin u.store.pins a.tenant p.key = none → ¬ fits → ∃ t, exec (.pin sid msgId) s = .next t ∧ t.answers a 0x12 4 {} ∧
          t.store = s.store ∧ Only [.log, .net, .time, .ses, .outputs] s t) ∧
       (s.power.thermalRefuse = false → s.mode ≠ .brace →
         (findPin u.store.pins a.tenant p.key = none → fits → ∃ t, exec (.pin sid msgId) s = .next t ∧
            t.store.pins = s.store.pins ++ [⟨a.tenant, p.key, charge, if ready then some v.num else none⟩] ∧ t.store.keys = s.store.keys ∧
            t.journal = s.mapChanged.journal ∧
            (ready → t.answers a 0 0 { version := v.num, result := t.pinSpace a.tenant, pinned := true }) ∧
            (¬ ready → v.isOpen = true →
              ((t.ses.find sid).bind fun e => e.flight msgId).map Flight.work = some (.pinOpen p.key v.num v.admitAt)) ∧
            (¬ ready → v.isOpen = false →
              ((t.ses.find sid).bind fun e => e.flight msgId).map Flight.work = some (.pinLoad p.key v.num)) ∧
            (¬ ready → a.gen = 3 → (t.lastMessage a.rx.port).map (fun m => (m.session, m.msgId, m.status)) = some (sid, msgId, 0x01)) ∧
            Only [.draws, .log, .net, .time, .ses, .store, .outputs, .media, .journal] s t) ∧
         (∀ q, findPin u.store.pins a.tenant p.key = some q → ∃ t, exec (.pin sid msgId) s = .next t ∧
            t.answers a 0 0 { version := q.loaded.getD 0, result := s.pinSpace a.tenant, pinned := true } ∧
            Only [.log, .net, .time, .ses, .outputs] s t)))) ∧
    (s.takeRequest sid msgId false [0x41] = (some x, u) → (parseBody false x.body).keyBad = none → s.power.sleep = .awake →
      ∃ t, exec (.unpin sid msgId) s = .next t ∧
        t.store = { s.store with pins := dropPin s.store.pins x.ask.tenant (parseBody false x.body).key } ∧
        t.answers x.ask 0 0 { result := t.pinSpace x.ask.tenant } ∧ t.journal = s.mapChanged.journal ∧
        Only [.log, .net, .time, .ses, .store, .outputs, .journal] s t)

/-- RANGE_READ, RANGE_DELETE, RANGE_LOCK_GRANT and HELD_COMPLETION complete. A range request that the state admits (as the
statement Admission says when), within the key limits, with a range that is not empty: it asks for the lock of its
range, which is then held or waits, and on LY3 is answered with HELD; a RANGE_DELETE of LY3 in Brace, or in a drive that is
too hot for writes, is answered with BRACING at once instead; an empty range is answered with OK and no key.
RANGE_LOCK_GRANT grants the first waiting request that overlaps no lock held and no request before it, whose result a
RANGE_READ takes at that moment, and after it every other one that can be granted; with none to grant nothing changes. Outside
a warm start HELD_COMPLETION of a range that holds its lock releases
it: a read completes with its result, and a delete that windbreak grants removes from the range the versions admitted before
it and completes with how many keys. A read of a lost page completes with MEDIA_ERROR, and a page found uncorrectable by it
is lost from then on; a good one completes with the bytes. (R253, R254, R261, R312, R313, R314, R315, R372) -/
def Obligations.RangesAndLocks : Prop :=
  (∀ (s u : State) (sid msgId : Nat) (x : Admitted) (del : Bool), s.takeRequest sid msgId false [if del = true then 0x31 else 0x30] = (some x, u) →
    firstOf [u.rangeLimits (parseBody true x.body), if del = true then u.writeRefused else u.readRefused] = none →
    ∃ t, exec (if del = true then .rangeDelete sid msgId else .rangeRead sid msgId) s = .next t ∧
      (let a := x.ask
       let p := parseBody true x.body
       (rangeEmpty p.key (endBound p.endKey) = true → t.answers a 0 0 {} ∧ t.ses.held = s.ses.held ∧ t.ses.waiting = s.ses.waiting) ∧
       (∀ r, rangeEmpty p.key (endBound p.endKey) = false → del = true → a.gen = 3 → s.judge ⟨64, false, false⟩ = .bracing r →
         t.answers a 0x32 r {} ∧ t.ses.held = s.ses.held ∧ t.ses.waiting = s.ses.waiting) ∧
       (rangeEmpty p.key (endBound p.endKey) = false → ¬ (del = true ∧ a.gen = 3 ∧ ∃ r, s.judge ⟨64, false, false⟩ = .bracing r) →
         (∃ l ∈ t.ses.held ++ t.ses.waiting, l.session = sid ∧ l.msgId = msgId) ∧
         ((∀ l ∈ s.ses.waiting, ¬ (l.session = sid ∧ l.msgId = msgId)) →
           (⟨a.tenant, sid, msgId, p.key, endBound p.endKey⟩ : RangeLock) ∈ t.ses.held ++ t.ses.waiting) ∧
         (a.gen = 3 → (t.lastMessage a.rx.port).map (fun m => (m.session, m.msgId, m.status)) = some (sid, msgId, 0x01)))) ∧
      t.store.keys = s.store.keys ∧ Only [.draws, .log, .net, .time, .ses, .store, .outputs] s t) ∧
  (∀ (s : State) (q : RangeLock) (e : Sess) (f : Flight) (del : Bool) (start : Bytes) (end_ : Option Bytes) (most : Nat),
    firstGrantable s.ses.held [] s.ses.waiting = some q → s.ses.find q.session = some e → e.flight q.msgId = some f →
    f.work = .rangeWait del start end_ most →
    ∃ t more, exec .rangeLockGrant s = .next t ∧ t.ses.held = s.ses.held ++ q :: more ∧
      (∀ w ∈ t.ses.waiting, w ∈ s.ses.waiting ∧ ¬ (w.session = q.session ∧ w.msgId = q.msgId)) ∧
      ((∀ w ∈ s.ses.waiting, ∃ x g d a b n, s.ses.find w.session = some x ∧ x.flight w.msgId = some g ∧ g.work = .rangeWait d a b n) →
        firstGrantable t.ses.held [] t.ses.waiting = none) ∧
      ((t.ses.find q.session).bind fun y => y.flight q.msgId).map Flight.work =
        some (.rangeHeld del start end_ most (if del = true then {} else s.rangeResult e f start end_ most)) ∧
      s.ses.held.any (RangeLock.overlaps · q) = false ∧ t.store = { s.store with pins := t.store.pins } ∧ Only [.ses, .store, .outputs] s t) ∧
  (∀ s : State, firstGrantable s.ses.held [] s.ses.waiting = none → ∃ t, exec .rangeLockGrant s = .next t ∧ Only [.outputs] s t) ∧
  (∀ (s : State) (sid msgId : Nat) (o : MediaOutcome) (e : Sess) (f : Flight), s.engineRuns = true → s.mode ≠ .warmStart → s.ses.find sid = some e →
    e.flight msgId = some f →
    (∀ start end_ most result, f.work = .rangeHeld false start end_ most result →
      ∃ t, exec (.heldCompletion sid msgId o) s = .next t ∧ t.answers (f.ask e) 0 0 result ∧
        t.ses.held = s.ses.held.filter (fun l => !(l.session = sid && l.msgId = msgId)) ∧ t.store = s.store ∧ Only [.log, .net, .ses, .outputs] s t) ∧
    (∀ start end_ most result, f.work = .rangeHeld true start end_ most result → s.judge ⟨64, false, false⟩ = .granted → e.gen ≠ 1 →
      ∃ t, exec (.heldCompletion sid msgId o) s = .next t ∧
        (let gone := rangeVictims s.store.keys e.tenant start end_ f.admitAt most false
         t.answers (f.ask e) 0 0 { result := gone.1.length } ∧
         t.store.keys = applyRangeDelete s.store.keys e.tenant start end_ gone.2 f.admitAt false) ∧
        t.ses.held = s.ses.held.filter (fun l => !(l.session = sid && l.msgId = msgId)) ∧
        Only [.log, .net, .ses, .store, .reg, .outputs, .media] s t) ∧
    (∀ key num value total seg off len, f.work = .read key num value total seg off len →
      ∃ t, exec (.heldCompletion sid msgId o) s = .next t ∧
        (o = .uncorrectable ∨ s.versionLost e.tenant key num = true → t.answers (f.ask e) 0x50 1 { pinned := f.pinned }) ∧
        (∀ p a l, o = .uncorrectable → (s.media.placed.find? fun p => p.tenant = e.tenant && p.key = key && p.version = num) = some p →
          p.pages = a :: l → s.versionLost e.tenant key num = false → a ∈ t.media.lost) ∧
        (o ≠ .uncorrectable → s.versionLost e.tenant key num = false → t.answers (f.ask e) 0 0
          { version := num, result := total, segmented := seg, pinned := f.pinned, data := slice off (min len (total - off)) value }) ∧
        t.store = s.store ∧ (o ≠ .uncorrectable → Only [.log, .net, .ses, .outputs, .media] s t) ∧
        Only [.mode, .log, .net, .ses, .power, .start, .outputs, .media, .journal] s t))

/-- A PUT whose first segment is present, before which no request on its key waits, and that passes rows 3 to 10, granted: its
version stands open in front of its key with the bytes of that segment, its message stays, admitted with one segment staged,
and its request waits for more. Outside a warm start, SEGMENT_STAGE of the next segment, present, not refused before and
granted: the version grows by its bytes, the staged segments by one, and with the last segment the version is closed, the
message taken and the request answered. Throttled, it waits, noting when it was first refused and when RETRY_AFTER_US has
passed; in Brace the write is cut. A segment whose retry instant lies after its 100 ms, with nothing that had it judged again,
waits on. SEGMENT_CUT, 100 ms after the first refusal or later, with the segment not due to be judged again or refused again
then, ends the version at what was staged and answers the request; a segment that would be admitted then goes on. No other
key changes. (R306, R307, R308, R309, R311) -/
def Obligations.SegmentedWrites : Prop :=
  (∀ (s u : State) (sid msgId : Nat) (e : Sess) (m : Assembly) (x : Admitted) (w : NewVersion), s.ses.find sid = some e →
    e.message 0x10 msgId = some m → e.phase = .open → s.net.gateOpen = true → m.admitted = false → m.opcode = 0x20 → m.early e.gen = true →
    s.outranked e m.firstSegment = false → s.judgeRequest e m.firstSegment = (some x, u) →
    (let a := x.ask
     let p := parseBody false x.body
     let b := u.expirePin a.tenant p.key a.admitAt
     firstOf [writeLimits false a p, b.writeRefused] = none → b.resolveWrite false a p = .ok w → w.segmented = true →
     (p.data.take (min p.b segmentBytes)).length < w.total →
     b.judge ⟨lineBytes (min p.b segmentBytes), true, overCapacity b.store.keys a.tenant p.key a.admitAt (p.keyLen + w.total) s.fused.userCapacity⟩ = .granted →
     ∃ t, exec (.put sid msgId none) s = .next t ∧
       (newest t.store.keys a.tenant p.key).map (fun v => (v.num, v.value, v.total, v.isOpen, v.segmented)) =
         some (w.num, p.data.take (min p.b segmentBytes), w.total, true, true) ∧
       (((t.ses.find sid).bind fun y => y.message 0x10 msgId).map fun y => (y.admitted, y.staged)) = some (true, 1) ∧
       (∀ t' k', (t' ≠ a.tenant ∨ k' ≠ p.key) → findKey t.store.keys t' k' = findKey s.store.keys t' k') ∧
       (∃ v, ((t.ses.find sid).bind fun y => y.flight msgId).map (fun f => (f.work, f.committed)) = some (.segmented p.key v none, true)) ∧
       Only [.log, .net, .time, .ses, .store, .reg, .outputs, .media] s t)) ∧
  (∀ (s : State) (sid msgId : Nat) (o : Open), s.openWrite sid msgId = some o → s.engineRuns = true → s.mode ≠ .warmStart →
    (let n := (o.a.nextSegment (20 + o.key.length)).1
     let off := 20 + o.key.length + o.a.staged * segmentBytes
     let grown : Version := { o.v with value := o.v.value ++ slice off n o.a.lead, isOpen := !decide (o.a.bodyTotal ≤ off + n) }
     let rest : Option (List Assembly) := some (o.e.assembling.filter fun m => m.serial ≠ o.a.serial)
     n ≠ 0 → (o.a.nextSegment (20 + o.key.length)).2 = true →
     (o.a.refused = none → s.judge ⟨lineBytes n, true, false⟩ = .granted → ∃ t, exec (.segmentStage sid msgId none) s = .next t ∧
        t.store.keys = modVersion s.store.keys o.e.tenant o.key o.v.num (fun y => if y.admitAt = o.v.admitAt then { grown with superseded := y.superseded } else y) ∧
        t.store.staging.getLast?.map (fun y => (y.bytes, y.part)) = some (lineBytes n, o.a.staged + 1) ∧
        (o.a.bodyTotal ≤ off + n → (t.ses.find sid).map Sess.assembling = rest ∧
          ((t.ses.find sid).bind fun y => y.flight msgId).map Flight.work = some .answered) ∧
        (off + n < o.a.bodyTotal → (((t.ses.find sid).bind fun y => y.message 0x10 msgId).map fun y => (y.staged, y.refused)) = some (o.a.staged + 1, none)) ∧
        Only [.log, .net, .ses, .store, .reg, .outputs, .media] s t) ∧
     (∀ reason retry, o.a.refused = none → s.judge ⟨lineBytes n, true, false⟩ = .throttled reason retry →
       ∃ t, exec (.segmentStage sid msgId none) s = .next t ∧
        (((t.ses.find sid).bind fun y => y.message 0x10 msgId).map fun y => (y.staged, y.refused)) =
          some (o.a.staged, some ⟨s.elapsed, 0x21, reason, retry, s.elapsed + retry * 1000, false⟩) ∧
        Only [.ses, .outputs] s t) ∧
     (∀ reason, o.a.refused = none → s.judge ⟨lineBytes n, true, false⟩ = .bracing reason →
       ∃ t, exec (.segmentStage sid msgId none) s = .next t ∧
        t.store.keys = modVersion s.store.keys o.e.tenant o.key o.v.num (fun y => if y.admitAt = o.v.admitAt then
          { closeVersion o.v with superseded := y.superseded } else y) ∧
        (t.ses.find sid).map Sess.assembling = rest ∧ ((t.ses.find sid).bind fun y => y.flight msgId).map Flight.work = some .answered ∧
        Only [.log, .net, .ses, .store, .outputs, .media] s t) ∧
     (∀ w, o.a.refused = some w → w.stirred = false → w.since + ms 100 < w.again →
       ∃ t, exec (.segmentStage sid msgId none) s = .next t ∧ Only [.outputs] s t))) ∧
  (∀ (s : State) (sid msgId : Nat) (o : Open) (w : SegmentWait), s.openWrite sid msgId = some o → o.a.refused = some w →
    (let v := s.waitUntil (w.since + ms 100)
     let again := v.judge ⟨lineBytes (o.a.nextSegment (20 + o.key.length)).1, true, false⟩
     let waits := w.stirred = false ∧ v.elapsed < w.again
     (waits ∨ again ≠ .granted →
      ∃ t, exec (.segmentCut sid msgId) s = .next t ∧ t.elapsed = max s.elapsed (w.since + ms 100) ∧
        t.store.keys = modVersion s.store.keys o.e.tenant o.key o.v.num (fun y => if y.admitAt = o.v.admitAt then
          { o.v with isOpen := false, total := o.v.value.length, superseded := y.superseded } else y) ∧
        (t.ses.find sid).map Sess.assembling = some (o.e.assembling.filter fun m => m.serial ≠ o.a.serial) ∧
        ((t.ses.find sid).bind fun y => y.flight msgId).map Flight.work = some .answered ∧ t.store.staging = s.store.staging ∧
        Only [.clock, .log, .net, .ses, .store, .outputs, .media] s t) ∧
     (¬ waits → again = .granted → ∃ t, exec (.segmentCut sid msgId) s = .next t ∧ Only [.clock, .outputs] s t)))

/-- The seven LY1 commands complete, on a request that the state admits (as the statement Admission says when) and that passes
rows 8 and 9. NOP answers with its image. READ_SECTORS answers with the sectors, an
absent one as zeros; where the media cannot correct one, or one is lost, it names the first such sector and how many came before.
WRITE_SECTORS that quota and windbreak grant, with no poisoned line, stores each sector under its own key, stages 4,096
bytes for each and answers with the count, and every other key stays. TRIM asks for the range lock of its sectors. FLUSH
waits for the writes and trims of its session in flight. STATUS_READ answers with the image of the set named, and of a busy
set with the busy flag and the TR_LBA and MSG_ID of its command. IDENTIFY_WINDOW answers with the window data. A command refused at row 8 or 9 with an image answers
with flags and TR_ERROR of Table 11-8 and the first sector not completed; a WRITE_SECTORS refused by check 4 is answered
without an image, and its set takes a final image whose TR_ERROR is free (log entry 13). (R284, R285, R286, R288, R289, R290, R291, R292,
R293, R372) -/
def Obligations.Ly1Commands : Prop :=
  ∀ (s u : State) (sid msgId op : Nat) (x : Admitted), s.takeRequest sid msgId true [op] = (some x, u) →
    (let a := x.ask
     let p := parseLy1 x.body
     let image (flags err lba count : Nat) : Bytes := Ly1Image.encode ⟨p.set, flags, err, s.mode.code, lba, count, a.msgId⟩
     (∀ st r range, op = 0x20 → u.ly1Refused x = some (st, r, range) → ¬ (st = 0x51 ∧ r = 3) → a.ly1 = some (p.set, p.lba, p.count) →
       ∃ t, exec (.readSectors sid msgId (.read [])) s = .next t ∧
         t.tells a 0x11 st r (.raw (image (ly1Map st r range).1 (ly1Map st r range).2 p.lba 0)) ∧ Only [.log, .net, .time, .ses, .outputs] s t) ∧
     (∀ range, op = 0x30 → u.ly1Refused x = some (0x51, 3, range) → a.ly1 = some (p.set, p.lba, p.count) →
       (∀ e, u.ses.find sid = some e → p.set < e.sets.length) →
       ∃ t, exec (.writeSectors sid msgId none) s = .next t ∧ t.tells a 0x11 0x51 3 (.raw []) ∧
         ((t.ses.find sid).bind fun y => y.sets[p.set]?).map (fun y => (y.image.flags, y.image.lba, y.image.count, y.image.cmdMsgId)) =
           (u.ses.find sid).map (fun _ => (0x01, p.lba, 0, msgId)) ∧ Only [.draws, .log, .net, .time, .ses, .outputs] s t) ∧
     (u.ly1Refused x = none →
       (op = 0x01 → ∃ t, exec (.nop sid msgId) s = .next t ∧ t.tells a 0x11 0 0 (.raw (image 0 0 p.lba 0)) ∧
         Only [.log, .net, .time, .ses, .outputs] s t) ∧
       (op = 0x20 → (∀ j, j < p.count → s.sectorLost a.tenant (p.lba + j) a.admitAt = false) →
         (∃ t, exec (.readSectors sid msgId (.read [])) s = .next t ∧
           t.tells a 0x11 0 0 (.raw (image 0 0 p.lba p.count ++ (List.range p.count).flatMap fun i => s.sectorBytes a.tenant (p.lba + i) a.admitAt)) ∧
           Only [.log, .net, .time, .ses, .outputs, .media] s t)) ∧
       (∀ i, op = 0x20 → i < p.count → (∀ j, j ≤ i → s.sectorLost a.tenant (p.lba + j) a.admitAt = false) →
         s.sectorOnFlash a.tenant (p.lba + i) a.admitAt = true → ∃ t, exec (.readSectors sid msgId (.uncorrectable i)) s = .next t ∧
           t.tells a 0x11 0x50 1 (.raw (image 0x01 0x30 (p.lba + i) i)) ∧
           Only [.mode, .log, .net, .time, .ses, .power, .start, .outputs, .media, .journal] s t) ∧
       (∀ i, op = 0x20 → i < p.count → s.sectorLost a.tenant (p.lba + i) a.admitAt = true →
         (∀ j, j < i → s.sectorLost a.tenant (p.lba + j) a.admitAt = false) → ∃ t, exec (.readSectors sid msgId (.read [])) s = .next t ∧
           t.tells a 0x11 0x50 1 (.raw (image 0x01 0x30 (p.lba + i) i)) ∧ Only [.log, .net, .time, .ses, .outputs, .media] s t) ∧
       (op = 0x30 → p.lba + p.count ≤ 2 ^ 48 → u.quotaExceeded a.tenant a.admitAt (u.sectorRise a p) = false →
         u.judge ⟨p.count * 4096, true, u.capacityExceeded a.admitAt (u.sectorRise a p)⟩ = .granted →
         ∃ t, exec (.writeSectors sid msgId none) s = .next t ∧
           (∀ i, i < p.count → (newest t.store.keys a.tenant (sectorKey (p.lba + i))).map (fun v => (v.value, v.total, v.admitAt, v.crc16)) =
             some (slice (i * 4096) 4096 p.data, 4096, a.admitAt, some (crc16 (slice (i * 4096) 4096 p.data)))) ∧
           (∀ t' k', (∀ i, i < p.count → t' ≠ a.tenant ∨ k' ≠ sectorKey (p.lba + i)) → findKey t.store.keys t' k' = findKey s.store.keys t' k') ∧
           t.store.staging.length = s.store.staging.length + p.count ∧
           t.tells a 0x11 0 0 (.raw (image 0 0 p.lba p.count)) ∧ Only [.log, .net, .time, .ses, .store, .reg, .outputs, .media] s t) ∧
       (op = 0x31 → ∃ t, exec (.trim sid msgId) s = .next t ∧
           (∃ l ∈ t.ses.held ++ t.ses.waiting, l.session = sid ∧ l.msgId = msgId) ∧
           ((∀ l ∈ s.ses.waiting, ¬ (l.session = sid ∧ l.msgId = msgId)) →
             (⟨a.tenant, sid, msgId, sectorKey p.lba, some (sectorKey (p.lba + p.count))⟩ : RangeLock) ∈ t.ses.held ++ t.ses.waiting) ∧
           Only [.draws, .log, .net, .time, .ses, .store, .outputs] s t) ∧
       (op = 0x40 → ∃ w : State, exec (.flush sid msgId) s = .next w.settleCloses.settle ∧
           ((w.ses.find sid).bind fun e => e.flight msgId).map Flight.work = (u.ses.find sid).map (fun e =>
             .flush ((e.flights.filter fun f => f.opcode = 0x30 || f.opcode = 0x31).map Flight.msgId)) ∧
           Only [.log, .net, .time, .ses, .outputs] s w) ∧
       (op = 0x50 → ∀ e, u.ses.find sid = some e → ∃ t, exec (.statusRead sid msgId) s = .next t ∧
           (let y := e.sets.getD p.set {}
            let cmd := (e.loaded p.set).getD (y.image.cmdMsgId, y.image.lba)
            t.tells a 0x11 0 0 (.raw (if y.busy = true then Ly1Image.encode ⟨p.set, 0x80, 0, s.mode.code, cmd.2, 0, cmd.1⟩
              else Ly1Image.encode { y.image with set := p.set, driveState := s.mode.code }))) ∧
           Only [.log, .net, .time, .ses, .outputs] s t) ∧
       (op = 0x51 → ∃ t, exec (.identifyWindow sid msgId) s = .next t ∧
           t.tells a 0x11 0 0 (.raw (image 0 0 p.lba 0 ++ s.windowData a.tenant)) ∧ Only [.log, .net, .time, .ses, .outputs] s t)))

/-- The 21 rows of Tables 13-1, 18-5 and 19-4 complete, on a request that the state admits (as the statement Admission says when).
Refused by its tenant, its body, its opcode's own limits or the drive's state, in the order of rows 8 and 9, it is answered
with that status and reason. Passed, a message that will carry its result stands last on the requester's port, as the first answer on LY2, and
on LY3 as the completion behind a HELD answer under a new HELD_TOKEN; the request stays in flight until the frame with that
result is selected. FW_VERIFY and FW_GRAFT only stay in flight, with the digests of the package submitted as scan jobs, or a
Graft begun. FW_BEGIN for less than 4,096 bytes, and FW_VERIFY of a package whose content is bad, are logged, end the
download and are answered with the status of their code. What an opcode does to the drive it does when that frame is
selected: the three statements on results say it. (R211, R321, R322, R323, R325, R326, R327, R340, R341, R342, R463, R478) -/
def Obligations.AdministrativeRequests : Prop :=
  ∀ (s b u : State) (sid msgId op : Nat) (env : StartEnv) (fails : Bool) (row : Instr) (e : Sess) (x : Admitted),
    (row, op) ∈ [(.identify sid msgId, 0x80), (.getLog sid msgId, 0x81), (.logSnapshot sid msgId, 0x82), (.getFeature sid msgId, 0x84),
      (.setFeature sid msgId, 0x85), (.restart sid msgId env, 0x88), (.deepSleep sid msgId, 0x89), (.closeSession sid msgId, 0x8A),
      (.clearFaults sid msgId, 0x8C), (.fwBegin sid msgId, 0x90), (.fwData sid msgId fails, 0x91), (.fwVerify sid msgId fails, 0x92),
      (.fwGraft sid msgId, 0x93), (.fwActivate sid msgId, 0x94), (.fwConfirm sid msgId, 0x95), (.fwAbort sid msgId, 0x96),
      (.secStatus sid msgId, 0xA0), (.secUnlock sid msgId, 0xA1), (.secSetCredential sid msgId, 0xA2), (.secResetCredential sid msgId, 0xA3),
      (.secEraseTenant sid msgId, 0xA4)] →
    b = (if op = 0x88 then s.modStart fun y => { y with nextEnv := env } else s) → s.ses.find sid = some e →
    b.takeRequest sid msgId false [op] = (some x, u) →
    (let a := x.ask
     let p := parseBody false x.body
     let o : AdminOp := { p.adminOp op with fails := fails && decide (op = 0x91 ∨ op = 0x92) }
     let w := if isFirmwareOp op = true then u.touchDownload sid else u
     let bad : Option Refused :=
       if isFirmwareOp op = true then firstOf [adminBad a p, fwTooLarge o, w.readRefused, w.fwRefused sid op, w.fwLimits o]
       else if 0xA0 ≤ op then firstOf [adminBad a p, (w.secRefused e.kH2d msgId o).map Prod.fst, w.readRefused]
       else firstOf [adminBad a p, w.opLimits a.gen o, w.opState o]
     (∀ st r, bad = some (st, r) → ∃ t, exec row s = .next t ∧ t.answers a st r {} ∧ Only (touches row) s t) ∧
     (bad = none →
       (op ≠ 0x92 → op ≠ 0x93 → ¬ (op = 0x90 ∧ o.b < 4096) →
         ∃ t, exec row s = .next t ∧ Only (touches row) s t ∧
           ((t.ses.find sid).bind fun y => y.flight msgId).map (fun f => (f.opcode, f.work)) = some (op, .admin) ∧
           (a.gen ≠ 3 → a.token = none → t.tells a 0x11 0 0 (.admin o a.admitAt 0) ∧ t.ses.lastToken = s.ses.lastToken) ∧
           (a.gen = 3 → t.tells a 0x12 0 0 (.admin o a.admitAt (nextToken s.ses.lastToken)) ∧ t.ses.lastToken = nextToken s.ses.lastToken)) ∧
       (op = 0x90 → o.b < 4096 → ∃ t, exec row s = .next t ∧ t.fw.download = none ∧
         t.answers a (refusalStatus 0x05).1 (refusalStatus 0x05).2 {} ∧ Only (touches row) s t) ∧
       (op = 0x92 → ∀ d, w.fw.download = some d → ∃ t, exec row s = .next t ∧ Only (touches row) s t ∧
         (match d.package.contentCode s.fused s.fw.commit.running.manifest d.image with
          | some code => t.fw.download = none ∧ t.answers a (refusalStatus code).1 (refusalStatus code).2 {}
          | none => (t.fw.download.map fun y => (y.image, y.verifying)) = some (d.image, some msgId) ∧
            ((t.ses.find sid).bind fun y => y.flight msgId).map (fun f => (f.opcode, f.work)) = some (op, .admin))) ∧
       (op = 0x93 → ∃ t, exec row s = .next t ∧ t.fw.graft = some ⟨sid, msgId, s.elapsed, none⟩ ∧ t.fw.commit = s.fw.commit ∧
         t.power.test = none ∧ Only (touches row) s t ∧
         ((t.ses.find sid).bind fun y => y.flight msgId).map (fun f => (f.opcode, f.work)) = some (op, .admin))))

/-- EGRESS_SELECT that takes a message with an administrative result of an open session: the opcode's conditions are judged
again at that instant, and a result that fails them is that status and reason and changes nothing. Otherwise the frame
carries the identify data, the page, the SNAPSHOT_ID, the feature's value asked for from OFFSET on, and the effect is there:
a snapshot of the page is held for the session, and SLEEP, the feature's new value and the cleared faults are in force.
RESTART then begins a warm start or the cold one, and CLOSE_SESSION closes the session named with cause 0x04. (R323, R325,
R326, R327, R328, R331, R340, R341, R343) -/
def Obligations.AdministrativeResults : Prop :=
  ∀ (s : State) (q : Port) (k admitAt token : Nat) (e : EpEntry) (m : LyMsg) (op : AdminOp) (x : Sess),
    (s.portOf q).up = true → s.mode ≠ .warmStart → ((s.frameSent q).preview q).pick q = some (.ep k) → (s.portOf q).epQ[k]? = some e →
    e.load = .ly m → m.body = .admin op admitAt token → s.ses.find m.session = some x → x.phase = .open → x.driveSeq < 2 ^ 63 →
    (let w := (s.frameSent q).modPort q fun p => { p with epQ := p.epQ.eraseIdx k }
     let shown (u : State) (st r : Nat) (b : AnswerBody) : Prop := ∃ n : LyMsg,
       (u.portOf q).onWire = some (.ep { e with load := .ly n }) ∧ (n.kind, n.session, n.msgId, n.status, n.reason, n.body) =
         (m.kind, m.session, m.msgId, st, r, .answer { b with admitAt := admitAt, token := token })
     ¬ isFirmwareOp op.opcode = true → op.opcode < 0xA0 →
     (∀ st r v, w.opRefused x.id x.gen op = some ((st, r), v) → ∃ u : State, exec (.egressSelect q none) s = .next u.settleCloses.settle ∧
       shown u st r { version := v } ∧ Only [.clock, .log, .admin, .net, .ses, .outputs] s u) ∧
     (w.opRefused x.id x.gen op = none → ∃ u : State,
       exec (.egressSelect q none) s = .next (
         if op.opcode = 0x88 then
           (if op.a = 0 then (u.settleCloses.beginWarm .restartWarm u.settleCloses.start.nextEnv).runStart else u.settleCloses.restartCold)
         else if op.opcode = 0x8A then u.settleCloses.dropSession op.param16 4 else u.settleCloses).settle ∧
       Only [.clock, .cfg, .log, .admin, .net, .ses, .time, .power, .reg, .outputs] s u ∧
       (op.opcode = 0x80 → shown u 0 0 { result := 192, data := slice op.a op.b w.identifyData }) ∧
       (op.opcode = 0x81 → ∀ b id, w.readLog x.id op.param16 op.versionCond = .ok (b, id) →
         shown u 0 0 { version := id, result := b.length, data := slice op.a op.b b }) ∧
       (op.opcode = 0x82 → ∀ b, w.logPage op.param16 = some b →
         shown u 0 0 { version := s.startCount * 2 ^ 32 + s.admin.snapshotSeq, result := b.length } ∧
         (⟨x.id, op.param16, s.startCount * 2 ^ 32 + s.admin.snapshotSeq, u.elapsed, b⟩ : Snapshot) ∈ u.admin.snapshots ∧
         (∀ y ∈ u.admin.snapshots, y.session = x.id → y.page = op.param16 → y.id = s.startCount * 2 ^ 32 + s.admin.snapshotSeq) ∧
         u.admin.snapshots.length ≤ 8 ∧
         (op.param16 = 0x05 → u.net.crossedHigh = false ∧ u.net.peak = u.net.level) ∧ (op.param16 = 0x09 → u.reg = w.reg.clearSticky)) ∧
       (op.opcode = 0x84 → ∀ f, feature s.fused.part op.param16 op.a = some f →
         shown u 0 0 { result := result32 (f.get s.cfg.inUse), version := (f.get s.cfg.image % 2 ^ 64).toNat }) ∧
       (op.opcode = 0x85 → ∀ f v c, feature s.fused.part op.param16 op.a = some f → f.set op.b s.cfg.inUse = some (v, c) →
         shown u 0 0 { result := result32 v } ∧ u.cfg = { s.cfg with inUse := c }) ∧
       (op.opcode = 0x88 ∨ op.opcode = 0x8A → shown u 0 0 {}) ∧
       (op.opcode = 0x89 → shown u 0 0 {} ∧ u.power.sleep = .entering s.mode ∧ u.power.test = none) ∧
       (op.opcode = 0x8C → shown u 0 0 { result := (s.log.latched &&& ~~~ (BitVec.ofNat 32 op.a &&& 0x0000FFF0)).toNat } ∧
         (m.first = false → u.log.latched = s.log.latched &&& ~~~ (BitVec.ofNat 32 op.a &&& 0x0000FFF0)))))

/-- EGRESS_SELECT that takes a message with the result of a security opcode of an open session: the opcode's conditions are
judged again at that instant, and where they fail nothing else changes. SEC_STATUS tells state and SITE_KEY_ID. SEC_UNLOCK
in Sealed clears the lock flag and opens the data keys, and otherwise changes nothing but the answer. SEC_SET_CREDENTIAL
installs the credential under its next version, and SEC_RESET_CREDENTIAL removes it; each then closes the tenant's sessions
with cause 0x06. SEC_ERASE_TENANT leaves no session, key, staged extent or pin of the tenant, gives it a new data key, and
leaves every other tenant's keys as they were. (R235, R323, R453, R459, R461, R463, R464) -/
def Obligations.SecurityResults : Prop :=
  ∀ (s : State) (q : Port) (k admitAt token : Nat) (e : EpEntry) (m : LyMsg) (op : AdminOp) (x : Sess),
    (s.portOf q).up = true → s.mode ≠ .warmStart → ((s.frameSent q).preview q).pick q = some (.ep k) → (s.portOf q).epQ[k]? = some e →
    e.load = .ly m → m.body = .admin op admitAt token → s.ses.find m.session = some x → x.phase = .open → x.driveSeq < 2 ^ 63 →
    (let w := (s.frameSent q).modPort q fun p => { p with epQ := p.epQ.eraseIdx k }
     let shown (u : State) (st r : Nat) (b : AnswerBody) : Prop := ∃ n : LyMsg,
       (u.portOf q).onWire = some (.ep { e with load := .ly n }) ∧ (n.kind, n.session, n.msgId, n.status, n.reason, n.body) =
         (m.kind, m.session, m.msgId, st, r, .answer { b with admitAt := admitAt, token := token })
     0xA0 ≤ op.opcode → op.opcode ≤ 0xA4 →
     (∀ st r v, w.secRefused x.kH2d m.msgId op = some ((st, r), v) → ∃ u : State, exec (.egressSelect q none) s = .next u.settleCloses.settle ∧
       shown u st r { version := v } ∧ Only [.clock, .log, .admin, .net, .ses, .outputs] s u) ∧
     (w.secRefused x.kH2d m.msgId op = none → ∃ u : State,
       exec (.egressSelect q none) s = .next (
         if op.opcode = 0xA2 ∨ (op.opcode = 0xA3 ∧ (s.sec.installed.getD op.param16 none).isSome = true) then
           u.settleCloses.dropSessions (fun y => y.tenant = op.param16) 6
         else u.settleCloses).settle ∧
       (op.opcode = 0xA0 → shown u 0 0 { result := w.secStatus, version := (s.sec.site.map Prod.snd).getD 0 } ∧
         Only [.clock, .log, .admin, .net, .ses, .outputs] s u) ∧
       (op.opcode = 0xA1 → s.servingMode = .sealed → u.sec.lockFlag = false ∧ u.sec.dkOpen = s.sec.dk.map Option.isSome ∧
         u.store.keys = s.store.keys ∧ u.sec.dk = s.sec.dk) ∧
       (op.opcode = 0xA1 → s.servingMode ≠ .sealed → shown u 0 0 { result := s.mode.code } ∧
         Only [.clock, .log, .admin, .net, .ses, .outputs] s u) ∧
       (op.opcode = 0xA2 → ∀ c, openCredential x.kH2d op.param16 m.msgId op.data = some c →
         shown u 0 0 { result := 0x80000001 + s.sec.installs.getD op.param16 0 } ∧
         u.sec.installed = s.sec.installed.set op.param16 (some (c, 0x80000001 + s.sec.installs.getD op.param16 0)) ∧
         u.store = s.store ∧ u.sec.lockFlag = s.sec.lockFlag) ∧
       (op.opcode = 0xA3 → (s.sec.installed.getD op.param16 none).isSome = true →
         u.sec = { s.sec with installed := s.sec.installed.set op.param16 none } ∧ u.store = s.store) ∧
       (op.opcode = 0xA3 → (s.sec.installed.getD op.param16 none).isSome = false → u.sec = s.sec ∧ u.store = s.store) ∧
       (op.opcode = 0xA4 → (∀ y ∈ u.ses.sessions, y.tenant ≠ op.param16) ∧
         u.store.keys = s.store.keys.filter (fun r => r.tenant ≠ op.param16) ∧
         (∀ y ∈ u.store.staging, y.change.ofTenant op.param16 = false) ∧ (∀ p ∈ u.store.pins, p.tenant ≠ op.param16) ∧
         (∃ key, u.sec.dk = s.sec.dk.set op.param16 (some key)) ∧ u.sec.lockFlag = s.sec.lockFlag)))

/-- EGRESS_SELECT that takes a message with the result of a firmware opcode of an open session: what Table 19-5 refuses now
changes nothing. FW_BEGIN discards any package received before and begins a download of its length. FW_DATA stores the units
of an accepted chunk, each once, and checks the header once its bytes are there. FW_VERIFY puts each image into the bank of
its part that the running set does not use and makes the package the verified one. FW_ACTIVATE makes this selection the
activation's reference point A. FW_CONFIRM in an open window writes a commit record that confirms the set, and FW_ABORT ends
a download. (R323, R478, R479, R481, R482, R487, R491) -/
def Obligations.FirmwareResults : Prop :=
  ∀ (s : State) (q : Port) (k admitAt token : Nat) (e : EpEntry) (m : LyMsg) (op : AdminOp) (x : Sess),
    (s.portOf q).up = true → s.mode ≠ .warmStart → ((s.frameSent q).preview q).pick q = some (.ep k) → (s.portOf q).epQ[k]? = some e →
    e.load = .ly m → m.body = .admin op admitAt token → s.ses.find m.session = some x → x.phase = .open → x.driveSeq < 2 ^ 63 →
    (let w := (s.frameSent q).modPort q fun p => { p with epQ := p.epQ.eraseIdx k }
     let shown (u : State) (st r : Nat) (b : AnswerBody) : Prop := ∃ n : LyMsg,
       (u.portOf q).onWire = some (.ep { e with load := .ly n }) ∧ (n.kind, n.session, n.msgId, n.status, n.reason, n.body) =
         (m.kind, m.session, m.msgId, st, r, .answer { b with admitAt := admitAt, token := token })
     isFirmwareOp op.opcode = true →
     (op.opcode ≠ 0x92 → ∀ st r, w.fwRefused x.id op.opcode = some (st, r) → ∃ u : State,
       exec (.egressSelect q none) s = .next u.settleCloses.settle ∧ shown u st r {} ∧ Only [.clock, .log, .admin, .net, .ses, .outputs] s u) ∧
     (op.opcode = 0x92 ∨ w.fwRefused x.id op.opcode = none → ∃ u : State,
       exec (.egressSelect q none) s = .next (if op.opcode = 0x94 then u.settleCloses.afterActivate else u.settleCloses).settle ∧
       Only [.clock, .log, .admin, .net, .ses, .power, .reg, .watch, .outputs, .fw] s u ∧
       (op.opcode = 0x90 → shown u 0 0 {} ∧
         u.fw = { s.fw with
           download := some { session := x.id, length := op.b, lastAt := u.elapsed }, verified := none
           banks := s.fw.banks.map fun b => if b.state = .verified then { b with state := .empty } else b }) ∧
       (op.opcode = 0x91 → ∀ d, s.fw.download = some d →
         (d.accepts op.a op.data.length = false → shown u 0x13 2 {} ∧ u.fw = s.fw) ∧
         (d.accepts op.a op.data.length = true → op.fails = true → shown u 0x50 2 {} ∧ u.fw = { s.fw with download := none }) ∧
         (d.accepts op.a op.data.length = true → op.fails = false → d.headerOk = true →
           shown u 0 0 {} ∧ u.fw = { s.fw with download := some (d.store op.a op.data) }) ∧
         (d.accepts op.a op.data.length = true → op.fails = false → d.headerOk = false →
           match (d.store op.a op.data).units.find? fun y => y.1 = 0 with
           | none => shown u 0 0 {} ∧ u.fw = { s.fw with download := some (d.store op.a op.data) }
           | some y => match (parsePackage y.2).headerCode s.fused d.length with
             | some code => shown u (refusalStatus code).1 (refusalStatus code).2 {} ∧ u.fw = { s.fw with download := none }
             | none => shown u 0 0 {} ∧ u.fw = { s.fw with download := some { d.store op.a op.data with headerOk := true } })) ∧
       (op.opcode = 0x92 → ∀ d, s.fw.download = some d →
         (d.bankFails = true → shown u 0x50 2 {} ∧ u.fw = { s.fw with download := none }) ∧
         (d.bankFails = false → shown u 0 0 { version := d.package.manifest } ∧
           u.fw.verified = some d.package ∧ u.fw.download = none ∧ u.fw.commit = s.fw.commit)) ∧
       (op.opcode = 0x93 ∨ op.opcode = 0x94 → shown u 0 0 {} ∧ u.fw = s.fw) ∧
       (op.opcode = 0x95 → shown u 0 0 {} ∧ u.fw.commit = (if s.fw.onTrial = true then
         { s.fw.commit with seq := s.fw.commit.seq + 1, confirm := .confirmed } else s.fw.commit)) ∧
       (op.opcode = 0x96 → shown u 0 0 {} ∧ u.fw.download = none ∧ (s.fw.onTrial = false → u.fw = { s.fw with download := none }))))

/-- The five rows complete. SCAN_JOB_COMPLETE of the last job of a verification in flight, with every digest as expected: a package whose tags fail is
answered with INTEGRITY and its download ends; otherwise the commit record names no previous set and the result is made
ready. GRAFT_HANDOVER with no scan job in progress: with part 0x01 loaded it makes the verified set run on trial, keeps the one
before, makes the standby processor the serving one, and answers with the handover time; without, the package is dropped and answered with INTEGRITY. ACTIVATION outside Rescue, with no alarm
waiting, writes a checkpoint and begins the activation path at step 4. FW_DOWNLOAD_TIMEOUT ends the download 600 s after its
last opcode, and CONFIRM_WINDOW_EXPIRED begins the fallback to the previous set once the window is over. (R439, R478, R481,
R482, R485, R487, R490, R492) -/
def Obligations.FirmwareEvents : Prop :=
  ∀ s : State,
    (∀ e f d j, s.verifyFlight = some (e, f, d) → s.watch.jobs = [j] → j.expectedSha = none →
      ∃ t, exec (.scanJobComplete none) s = .next t ∧ t.watch.jobs = [] ∧ Only [.log, .net, .ses, .outputs, .watch, .fw] s t ∧
        (if d.package.tagsOk s.fused d.image = true then
          (t.lastMessage f.rx.port).map (fun m => (m.session, m.msgId, m.body)) =
            some (e.id, f.msgId, .admin ⟨0x92, 0, 0, 0, 0, [], false⟩ f.admitAt (f.token.getD 0)) ∧
          t.fw.commit = { s.fw.commit with seq := s.fw.commit.seq + 1, previous := none }
        else t.answers (f.ask e) 0x51 3 {} ∧ t.fw.download = none ∧ t.fw.commit = s.fw.commit)) ∧
    (∀ start ok, s.alive = true → ∃ t, exec (.scanJobComplete (some (start, ok))) s = .next t ∧
      t = (if ok = true then s else s.event .checkMismatch 2 start 0).settle) ∧
    (∀ g e f p ns, s.watch.jobs = [] → s.fw.graft = some g → g.fallback = none → s.ses.find g.session = some e → e.flight g.msgId = some f →
      s.fw.verified = some p →
      (∃ t, exec (.graftHandover true ns) s = .next t ∧ t.answers (f.ask e) 0 0 { result := ns } ∧ t.fw.graft = none ∧ t.fw.verified = none ∧
        t.fw.commit = ⟨s.fw.commit.seq + 1, p, .trial (s.powered + p.windowNs), some s.fw.commit.running, none⟩ ∧
        t.fw.serving = s.fw.serving.other ∧ Only [.log, .net, .ses, .outputs, .fw] s t) ∧
      (∃ t, exec (.graftHandover false ns) s = .next t ∧ t.answers (f.ask e) 0x51 3 {} ∧ t.fw.graft = none ∧ t.fw.verified = none ∧
        t.fw.commit = s.fw.commit ∧ t.fw.serving = s.fw.serving ∧ Only [.log, .net, .ses, .outputs, .fw] s t)) ∧
    (∀ env, s.fw.activation.isSome = true → s.sec.alarmPending = false → s.mode.serving = true ∨ s.mode = .brace → ∃ u : State,
      exec (.activation env) s = .next u.runStart.settle ∧ u.start.run = some ⟨.activation, .activation, 4, env, false⟩ ∧
        u.start.refAt = u.elapsed ∧ u.net.gateOpen = false ∧ u.journal.newest = .checkpoint ∧ u.fw.commit = s.fw.commit ∧ u.cfg = s.cfg) ∧
    (∀ d, s.fw.download = some d → ∃ t, exec .fwDownloadTimeout s = .next t ∧ t.fw = { s.fw with download := none } ∧ t.watch.jobs = [] ∧
      t.elapsed = max s.elapsed (d.lastAt + secs 600) ∧ Only [.clock, .log, .outputs, .watch, .fw] s t) ∧
    (∀ end_ p, s.fw.commit.confirm = .trial end_ → s.fw.commit.previous = some p → s.mode.serving = true → s.fw.updating = false →
      s.confirming = false → ∃ t, exec .confirmWindowExpired s = .next t ∧
        t.elapsed = s.elapsed + (end_ - s.powered) ∧ t.power.test = none ∧ Only [.clock, .power, .reg, .outputs, .fw] s t ∧
        (if s.fw.commit.running.eligible p = true then t.fw.graft = some ⟨0, 0, t.elapsed, some 1⟩ ∧ t.fw.activation = none
         else t.fw.activation = some ⟨some 1, t.elapsed⟩ ∧ t.fw.graft = none))

/-- Each of these completes, and lets the drive's time reach the due instant. A snapshot is discarded 10 s after it was taken, a cached LY2
answer 2 s after its last frame. The temperature history takes a mean after every 15 min of powered time, and each bin counts
the time for which the junction as last read stood in it. A delta is written at the interval after
the oldest change not recorded, or at once at the page limit, and after 256 deltas a checkpoint. The sweep leaves of every key
expired at the drive's time its number and its expiry, so that no later request finds anything else than before, outside
Overcast. The scrub of a block that holds valid data is read on its die, at once where that is idle, when its days have run in
a drive that is neither off nor in Dusk. Background
collection begins at less than 12 % of free blocks after the idle time. An operation that has waited 50 ms stands in row 2.
(R280, R316, R320, R327, R336, R357, R363, R366, R385, R388) -/
def Obligations.DueTimes : Prop :=
  ∀ s : State,
    (∀ id x, (s.admin.snapshots.find? fun y => y.id = id) = some x → ∃ t, exec (.snapshotExpired id) s = .next t ∧
      t.elapsed = max s.elapsed (x.takenAt + secs 10) ∧ t.admin = { s.admin with snapshots := s.admin.snapshots.filter fun y => y.id ≠ id } ∧
      Only [.clock, .admin, .outputs] s t) ∧
    (∀ sid msgId e c, s.ses.find sid = some e → (e.cache.find? fun y => y.msgId = msgId) = some c →
      ∃ t, exec (.answerCacheExpired sid msgId) s = .next t ∧ t.elapsed = max s.elapsed (c.at_ + secs 2) ∧
        (t.ses.find sid).map Sess.cache = some (e.cache.filter fun y => y.msgId ≠ msgId) ∧ Only [.clock, .ses, .outputs] s t) ∧
    (∀ mean, s.mode ≠ .off → ∃ t, exec (.temperatureHistoryInterval mean) s = .next t ∧
      t.elapsed = s.elapsed + (s.admin.recentAt + secs 900 - s.powered) ∧
      t.admin = { s.admin with
        recent := (mean :: s.admin.recent).take 96
        recentAt := t.powered
        binNs := modifyAt (min 15 ((s.power.junction + 400) / 100).toNat) (· + (t.powered - s.admin.binAt)) s.admin.binNs
        binAt := t.powered
        tMinLife := min s.admin.tMinLife mean
        tMaxLife := max s.admin.tMaxLife mean } ∧ Only [.clock, .admin, .outputs] s t) ∧
    (∀ since, s.journal.unrecorded = some since → s.mode ≠ .off → s.mode ≠ .dusk → s.halted = false → ∃ t, exec .journalFlush s = .next t ∧
      t.elapsed = (if s.journal.intervalMib * 64 ≤ s.journal.tailPages then s.elapsed else max s.elapsed (since + ms s.journal.intervalMs)) ∧
      (t.journal.newest, t.journal.deltas) = (if s.journal.deltas < 255 then (.delta, s.journal.deltas + 1) else (.checkpoint, 0)) ∧
      t.journal.unrecorded = none ∧ t.store.keys = s.store.keys ∧ t.store.staging = s.store.staging ∧
      Only [.clock, .log, .store, .outputs, .media, .journal] s t) ∧
    (s.servingMode.serving = true → s.servingMode ≠ .overcast → ∃ t, exec .expirySweep s = .next t ∧
      t.elapsed = max s.elapsed s.store.sweepDue ∧ t.store.sweepDue = t.elapsed + secs s.cfg.inUse.kv.expirySweepS ∧
      t.store.keys = s.store.keys.map (fun r => match r.versions with
        | v :: _ => if hit t.timeNs v.expiry = true then r else { r with versions := [{ v with value := [], crc16 := none, isOpen := false }] }
        | [] => r) ∧
      (∀ tenant key admitAt, t.timeNs ≤ admitAt → resolve t.store.keys tenant key admitAt = resolve s.store.keys tenant key admitAt) ∧
      t.store.staging = s.store.staging ∧ Only [.clock, .store, .outputs, .journal] s t) ∧
    (∀ die block r, s.media.find ⟨die, block⟩ = some r → s.holdsLive ⟨die, block⟩ = true → s.mode ≠ .off → s.mode ≠ .dusk →
      ∃ t, exec (.scrubDue die block) s = .next t ∧
      t.elapsed = s.elapsed + (r.scrubbed + secs (s.cfg.inUse.media.scrubDays * 86400) - s.scrubTime) ∧ t.media.nextOp = s.media.nextOp + 1 ∧
      ((s.media.die die).failed = false → (∀ p ∈ s.media.waiting ++ s.media.busy, p.die ≠ die) → s.mode.serving = true →
        (t.media.busy.drop s.media.busy.length).map (fun p => (p.kind, p.purpose, p.die, p.block)) = [(.read, .scrub, die, block)]) ∧
      Only [.clock, .outputs, .media] s t) ∧
    (s.free * 100 < 12 * s.media.inService → s.mode = .readyRead ∨ s.mode = .ready → ∃ t, exec .bgCollectionIdle s = .next t ∧
      t.elapsed = max s.elapsed (s.store.lastWriteAt + ms s.cfg.inUse.media.bgIdleMs) ∧ t.media.bg = true ∧
      (s.victim = none → t.media = { s.media with bg := true }) ∧
      (∀ v b l, s.victim = some v → v.data = b :: l → (∀ p ∈ s.media.waiting ++ s.media.busy, p.purpose.collects = false) →
        t.media.nextOp = s.media.nextOp + 1) ∧ Only [.clock, .outputs, .media] s t) ∧
    (∀ op o, (s.media.waiting.find? fun p => p.id = op) = some o → ∃ t, exec (.operationAgePromote op) s = .next t ∧
      t.elapsed = max s.elapsed (o.arrived + ms 50) ∧
      t.media = { s.media with waiting := s.media.waiting.map fun p => if p.id = op then { p with promoted := true } else p } ∧
      Only [.clock, .outputs, .media] s t)

/-- The four rows complete. DIE_OPERATION_COMPLETE: an erase that passes frees its block with one erase more, no reads, and none
of its page tags; a decoded read of a held request counts the page reads of its steps; an uncorrectable read of a live die
is a lost page, and it, or a failed program or erase there, retires its block. A result that no operation of its kind ends in,
or that the step of a read cannot decode in, changes nothing (the model's choice, log entry 44). No result changes a key or a
staged extent. DIE_TIMEOUT at the timeout of
Table 14-4: a die that does not come ready fails; else the operation is retried once. PROGRAM_RETRY_BACKOFF ends an extent's
wait. DRAIN_EXTENT_COMPLETE of an extent whose turn it is, and whose pages the band takes, puts its change into flash and
releases its lines; the keys stay. (R22, R33, R357, R359, R361, R364, R370, R371, R372, R373) -/
def Obligations.MediaOperations : Prop :=
  ∀ s : State,
    (∀ die o r, (s.media.busy.find? fun p => p.die = die) = some o →
      ∃ t, exec (.dieOperationComplete die r) s = .next t ∧
        (let b : BlockId := ⟨o.die, o.block⟩
         (∀ x, o.kind = .erase → r = .passed → s.media.find b = some x →
           (t.media.find b).map (fun y => (y.use, y.erases, y.reads)) = some (BlockUse.free, x.erases + 1, 0) ∧
           (∀ g ∈ t.media.tags, blockOf g.addr ≠ b) ∧ Only [.log, .media, .outputs] s t) ∧
         (∀ step index corrected sid msgId x, o.kind = .read → r = .decoded step index corrected → s.canEnd o r = true →
           o.purpose = .held sid msgId → s.media.find b = some x →
           (∃ y, t.media.find b = some y ∧ x.reads + readsTaken o.threshold step index ≤ y.reads ∧
             (s.otherPages o = [] → y.reads = x.reads + readsTaken o.threshold step index)) ∧ t.media.deadwood = s.media.deadwood ∧
           Only [.log, .media, .outputs] s t) ∧
         (r = (if o.kind = .read then .uncorrectable else .failed) → (s.media.die o.die).failed = false → blockOf (pageAddr b o.page) = b →
           b ∈ t.media.deadwood ∧ (o.kind = .read → pageAddr b o.page ∈ t.media.lost)) ∧
         (s.canEnd o r = false → Only [.outputs] s t) ∧
         t.store.keys = s.store.keys ∧ t.store.staging.map (fun x => (x.id, x.change)) = s.store.staging.map (fun x => (x.id, x.change)) ∧
         Only [.mode, .log, .store, .power, .start, .outputs, .media, .journal] s t)) ∧
    (∀ die o, (s.media.busy.find? fun p => p.die = die) = some o →
      (let at_ := max s.elapsed (o.started + o.kind.timeout)
       (die < s.media.dies.length → ∃ t, exec (.dieTimeout die false) s = .next t ∧ t.elapsed = at_ ∧ (t.media.die die).failed = true ∧
         t.store.keys = s.store.keys ∧ Only [.mode, .clock, .log, .store, .power, .start, .outputs, .media, .journal] s t) ∧
       (o.retried = false → ((s.media.die die).timeouts.filter fun x => at_ ≤ x + secs 1).length < 2 →
         ∃ t, exec (.dieTimeout die true) s = .next t ∧ t.elapsed = at_ ∧
           t.media.busy = s.media.busy.map (fun p => if p.id = o.id then { p with retried := true, started := at_ } else p) ∧
           t.media.waiting = s.media.waiting ∧ Only [.clock, .media, .outputs] s t))) ∧
    (∀ id x n, (s.store.staging.find? fun y => y.id = id) = some x → x.retryAt = some n →
      ∃ t, exec (.programRetryBackoff id) s = .next t ∧ t.elapsed = max s.elapsed n ∧
        t.store = { s.store with staging := s.store.staging.map fun y => if y.id = id then { y with retryAt := none } else y } ∧
        Only [.clock, .store, .outputs, .media] s t) ∧
    (∀ id pages x, (s.store.staging.find? fun y => y.id = id) = some x → x.retryAt = none → drainable id s.store.staging = true → s.mayProgram = true →
      s.mode.serving = true ∨ s.mode = .brace → s.power.dusk = none → pages = 0 ∨ (s.programExtent x pages).2 ≠ [] →
      ∃ t, exec (.drainExtentComplete id pages) s = .next t ∧
        t.store.flash = x.change.apply s.store.flash ∧ t.store.staging = s.store.staging.filter (fun y => y.id ≠ id) ∧ t.store.keys = s.store.keys ∧
        t.journal.unrecorded.isSome = true ∧
        t.mode = (if s.mode = .ready ∧ s.bankClass = .failed ∧ (s.store.staging.filter fun y => y.id ≠ id) = [] then .readyRead else s.mode) ∧
        Only [.mode, .log, .ses, .store, .start, .outputs, .media, .journal] s t)
end

