-- ==== Sys2Proof/Laws/Only.lean ====
section
/-!
SUPPORT. What each shared operation can touch, said once: the rules of `Only`, and its instances for the updates of one part
of the state.
-/
namespace Sys2Proof.Machine

/-- Every part of one list stands in another. -/
def areasIn (l m : List Area) : Bool := l.all fun a => m.contains a

theorem Only.refl (l : List Area) (s : State) : Only l s s := by
  refine ⟨?_⟩; intro a _; cases a <;> simp [sameIn]

theorem sameIn_trans {a : Area} {s t u : State} (h : sameIn a s t) (k : sameIn a t u) : sameIn a s u := by
  cases a with
  | start =>
    simp only [sameIn] at *
    rw [← h, ← k]
  | outputs => exact ⟨k.1.trans h.1, k.2.1.trans h.2.1, k.2.2.trans h.2.2⟩
  | _ => exact Eq.trans k h

theorem areasIn_out {l m : List Area} (h : areasIn l m = true) {a : Area} (ha : m.contains a = false) : l.contains a = false := by
  rcases hc : l.contains a with _ | _
  · rfl
  · have h1 : a ∈ l := by simpa using hc
    have h2 := (List.all_eq_true.mp h) a h1
    simp_all

/-- One more operation after a change: it touches what its own lemma lists. -/
theorem Only.into {l m : List Area} {s t u : State} (k : Only l t u) (hl : areasIn l m = true) (h : Only m s t) : Only m s u :=
  ⟨fun a ha => sameIn_trans (h.same a ha) (k.same a (areasIn_out hl ha))⟩

/-- A shorter list says more. -/
theorem Only.mono {l m : List Area} {s t : State} (k : Only l s t) (hl : areasIn l m = true) : Only m s t :=
  ⟨fun a ha => k.same a (areasIn_out hl ha)⟩

theorem Only.trans {l : List Area} {s t u : State} (h : Only l s t) (k : Only l t u) : Only l s u :=
  ⟨fun a ha => sameIn_trans (h.same a ha) (k.same a ha)⟩

/-- A fold touches what its step touches. -/
theorem Only.foldl {α : Type} {l : List Area} {f : State → α → State} (hf : ∀ t x, Only l t (f t x)) (xs : List α) {s t : State}
    (h : Only l s t) : Only l s (xs.foldl f t) := by
  induction xs generalizing t with
  | nil => exact h
  | cons x xs ih => exact ih (h.trans (hf t x))

/-- A state changed where a condition holds. -/
theorem Only.when {l : List Area} {f : State → State} (c : Bool) {s t : State} (hf : Only l t (f t)) (h : Only l s t) :
    Only l s (t.when c f) := by
  cases c
  · exact h
  · exact h.trans hf

/-- A value that a `let` names: what it touches is said once. -/
theorem Only.bring {l : List Area} {s u : State} (x : State) (h : Only l s x) (k : Only l s x → Only l s u) : Only l s u := k h

theorem Only.bringSnd {l : List Area} {α : Type} {s u : State} (x : α × State) (h : Only l s x.2) (k : Only l s x.2 → Only l s u) :
    Only l s u := k h

theorem Only.ite {l : List Area} {c : Prop} [Decidable c] {s t u : State} (h : Only l s t) (k : Only l s u) :
    Only l s (if c then t else u) := by
  split
  · exact h
  · exact k

/-- `Only` of a record that is written out: it marks the goals that `Updated.of` answers. -/
structure Updated (l : List Area) (s t : State) : Prop where
  only : Only l s t

theorem Only.updated {l : List Area} {s : State} {p m e d fu c lo a n ti se st po r sa me j w sc fw co} :
    Only l s ⟨p, m, e, d, fu, c, lo, a, n, ti, se, st, po, r, sa, me, j, w, sc, fw, co⟩ =
      Updated l s ⟨p, m, e, d, fu, c, lo, a, n, ti, se, st, po, r, sa, me, j, w, sc, fw, co⟩ :=
  propext ⟨fun h => ⟨h⟩, fun h => h.only⟩

/-- One more update of fields after a change. -/
theorem Updated.of {l : List Area} {s t : State} {p m e d fu c lo a n ti se st po r sa me j w sc fw co} (h : Only l s t)
    (h0 : p = t.pending)
    (h1 : l.contains .mode = true ∨ m = t.mode) (h2 : l.contains .clock = true ∨ e = t.elapsed)
    (h3 : l.contains .draws = true ∨ d = t.draws) (h4 : l.contains .fused = true ∨ fu = t.fused)
    (h5 : l.contains .cfg = true ∨ c = t.cfg) (h6 : l.contains .log = true ∨ lo = t.log)
    (h7 : l.contains .admin = true ∨ a = t.admin) (h8 : l.contains .net = true ∨ n = t.net)
    (h9 : l.contains .time = true ∨ ti = t.time) (h10 : l.contains .ses = true ∨ se = t.ses)
    (h11 : l.contains .store = true ∨ st = t.store) (h12 : l.contains .power = true ∨ po = t.power)
    (h13 : l.contains .reg = true ∨ r = t.reg) (h14 : (l.contains .start && l.contains .outputs) = true ∨ sa = t.start)
    (h15 : l.contains .media = true ∨ me = t.media) (h16 : l.contains .journal = true ∨ j = t.journal)
    (h17 : l.contains .watch = true ∨ w = t.watch) (h18 : l.contains .sec = true ∨ sc = t.sec)
    (h19 : l.contains .fw = true ∨ fw = t.fw) (h20 : l.contains .startCount = true ∨ co = t.startCount) :
    Updated l s ⟨p, m, e, d, fu, c, lo, a, n, ti, se, st, po, r, sa, me, j, w, sc, fw, co⟩ := by
  refine ⟨h.trans ⟨fun b hb => ?_⟩⟩
  cases b <;> simp only [hb, Bool.and_eq_true, Bool.false_eq_true, false_and, and_false, false_or] at * <;> simp only [sameIn] <;>
    first
    | assumption
    | (rw [h14]; exact ⟨rfl, rfl, rfl⟩)
    | rw [h14]

theorem State.modNet_only (f : _) (s : State) : Only [.net] s (s.modNet f) := by
  refine ⟨fun a ha => ?_⟩; cases a <;> first | rfl | exact ⟨rfl, rfl, rfl⟩ | exact absurd ha (by decide)

theorem State.modTime_only (f : _) (s : State) : Only [.time] s (s.modTime f) := by
  refine ⟨fun a ha => ?_⟩; cases a <;> first | rfl | exact ⟨rfl, rfl, rfl⟩ | exact absurd ha (by decide)

theorem State.modSes_only (f : _) (s : State) : Only [.ses] s (s.modSes f) := by
  refine ⟨fun a ha => ?_⟩; cases a <;> first | rfl | exact ⟨rfl, rfl, rfl⟩ | exact absurd ha (by decide)

theorem State.modStore_only (f : _) (s : State) : Only [.store] s (s.modStore f) := by
  refine ⟨fun a ha => ?_⟩; cases a <;> first | rfl | exact ⟨rfl, rfl, rfl⟩ | exact absurd ha (by decide)

theorem State.modPower_only (f : _) (s : State) : Only [.power] s (s.modPower f) := by
  refine ⟨fun a ha => ?_⟩; cases a <;> first | rfl | exact ⟨rfl, rfl, rfl⟩ | exact absurd ha (by decide)

theorem State.modReg_only (f : _) (s : State) : Only [.reg] s (s.modReg f) := by
  refine ⟨fun a ha => ?_⟩; cases a <;> first | rfl | exact ⟨rfl, rfl, rfl⟩ | exact absurd ha (by decide)

theorem State.modAdmin_only (f : _) (s : State) : Only [.admin] s (s.modAdmin f) := by
  refine ⟨fun a ha => ?_⟩; cases a <;> first | rfl | exact ⟨rfl, rfl, rfl⟩ | exact absurd ha (by decide)

theorem State.modLog_only (f : _) (s : State) : Only [.log] s (s.modLog f) := by
  refine ⟨fun a ha => ?_⟩; cases a <;> first | rfl | exact ⟨rfl, rfl, rfl⟩ | exact absurd ha (by decide)

theorem State.modStart_only (f : _) (s : State) : Only [.start, .outputs] s (s.modStart f) := by
  refine ⟨fun a ha => ?_⟩; cases a <;> first | rfl | exact ⟨rfl, rfl, rfl⟩ | exact absurd ha (by decide)

end Sys2Proof.Machine
end

