-- ==== Sys2Proof/Laws/Frames1.lean ====
section
/-!
SUPPORT. What each operation of the machine can touch, one lemma for each, callees before callers; part 1 of 6.
-/
set_option linter.tactic.unusedName false
set_option linter.unusedSimpArgs false
namespace Sys2Proof.Machine

theorem State.modSess_only (id : Nat) (f : Sess → Sess) (s : State) :
    Only [.ses] s (State.modSess id f s) := by
  unfold State.modSess
  repeat' (first
    | with_reducible exact Only.refl _ _ | with_reducible assumption
    | ((with_reducible show areasIn _ _ = true); exact rfl) | with_reducible apply Only.ite
    | (apply Only.into; with_reducible apply State.modSes_only))

theorem State.modPort_only (q : Port) (f : PortState → PortState) (s : State) :
    Only [.net] s (State.modPort q f s) := by
  unfold State.modPort
  repeat' (first
    | with_reducible exact Only.refl _ _ | ((with_reducible show areasIn _ _ = true); exact rfl)
    | (apply Only.into; with_reducible apply State.modNet_only))

theorem State.enqueue_only (q : Port) (e : EpEntry) (s : State) :
    Only [.net] s (State.enqueue q e s) := by
  unfold State.enqueue
  repeat' (first
    | with_reducible exact Only.refl _ _ | ((with_reducible show areasIn _ _ = true); exact rfl)
    | (apply Only.into; with_reducible apply State.modPort_only))

theorem State.sendLy_only (rx : Rx) (admitAt : Nat) (m : LyMsg) (s : State) :
    Only [.net] s (State.sendLy rx admitAt m s) := by
  unfold State.sendLy
  repeat' (first
    | with_reducible exact Only.refl _ _ | with_reducible assumption
    | ((with_reducible show areasIn _ _ = true); exact rfl) | (extract_lets +onlyGivenNames _x; first
      | (rename State => _y; refine Only.bring _y ?_ ?_; rotate_left; clear_value _y; intro _; rotate_right; subst _y)
      | (rename _ × State => _y; refine Only.bringSnd _y ?_ ?_; rotate_left; clear_value _y; intro _; rotate_right; subst _y)
      | skip)
    | with_reducible apply Only.ite | (apply Only.into; with_reducible apply State.enqueue_only) | split)

theorem State.say_only (id : Nat) (rx : Rx) (admitAt : Nat) (m : LyMsg) (s : State) :
    Only [.net, .ses] s (State.say id rx admitAt m s) := by
  unfold State.say
  repeat' (first
    | with_reducible exact Only.refl _ _ | with_reducible assumption
    | ((with_reducible show areasIn _ _ = true); exact rfl) | (extract_lets +onlyGivenNames _x; first
      | (rename State => _y; refine Only.bring _y ?_ ?_; rotate_left; clear_value _y; intro _; rotate_right; subst _y)
      | (rename _ × State => _y; refine Only.bringSnd _y ?_ ?_; rotate_left; clear_value _y; intro _; rotate_right; subst _y)
      | skip)
    | with_reducible apply Only.ite | (apply Only.into; first
      | with_reducible apply State.sendLy_only
      | with_reducible apply State.modSess_only)
    | split)

theorem State.errorAnswer_only (r : RequestRef) (location : Nat) (s : State) :
    Only [.log] s (State.errorAnswer r location s) := by
  unfold State.errorAnswer
  repeat' (first
    | with_reducible exact Only.refl _ _ | with_reducible assumption
    | ((with_reducible show areasIn _ _ = true); exact rfl) | (extract_lets +onlyGivenNames _x; first
      | (rename State => _y; refine Only.bring _y ?_ ?_; rotate_left; clear_value _y; intro _; rotate_right; subst _y)
      | (rename _ × State => _y; refine Only.bringSnd _y ?_ ?_; rotate_left; clear_value _y; intro _; rotate_right; subst _y)
      | skip)
    | (apply Only.into; with_reducible apply State.modLog_only))

theorem State.noteError_only (a : Ask) (status : Nat) (reason : Nat) (s : State) :
    Only [.log] s (State.noteError a status reason s) := by
  unfold State.noteError
  repeat' (first
    | with_reducible exact Only.refl _ _ | with_reducible assumption
    | ((with_reducible show areasIn _ _ = true); exact rfl) | with_reducible apply Only.ite
    | (apply Only.into; with_reducible apply State.errorAnswer_only))

theorem State.modFlight_only (id : Nat) (msgId : Nat) (f : Flight → Flight) (s : State) :
    Only [.ses] s (State.modFlight id msgId f s) := by
  unfold State.modFlight
  repeat' (first
    | with_reducible exact Only.refl _ _ | with_reducible assumption
    | ((with_reducible show areasIn _ _ = true); exact rfl) | with_reducible apply Only.ite
    | (apply Only.into; with_reducible apply State.modSess_only))

theorem State.finish_only (a : Ask) (status : Nat) (reason : Nat) (b : AnswerBody) (s : State) :
    Only [.log, .net, .ses] s (State.finish a status reason b s) := by
  unfold State.finish
  repeat' (first
    | with_reducible exact Only.refl _ _ | with_reducible assumption
    | ((with_reducible show areasIn _ _ = true); exact rfl) | (extract_lets +onlyGivenNames _x; first
      | (rename State => _y; refine Only.bring _y ?_ ?_; rotate_left; clear_value _y; intro _; rotate_right; subst _y)
      | (rename _ × State => _y; refine Only.bringSnd _y ?_ ?_; rotate_left; clear_value _y; intro _; rotate_right; subst _y)
      | skip)
    | with_reducible apply Only.ite | (apply Only.into; first
      | with_reducible apply State.noteError_only
      | with_reducible apply State.modFlight_only
      | with_reducible apply State.say_only))

theorem State.modFw_only (f : FwState → FwState) (s : State) :
    Only [.fw] s (State.modFw f s) := by
  unfold State.modFw
  repeat' (first
    | with_reducible exact Only.refl _ _ | ((with_reducible show areasIn _ _ = true); exact rfl)
    | (simp only [Only.updated]; with_reducible refine Updated.of ?_ rfl ?_ ?_ ?_ ?_ ?_ ?_ ?_ ?_ ?_ ?_ ?_ ?_ ?_ ?_ ?_ ?_ ?_ ?_ ?_ ?_)
    | with_reducible exact .inr rfl | exact .inl rfl)

theorem State.abandonGraft_only (s : State) :
    Only [.log, .net, .ses, .fw] s (State.abandonGraft s) := by
  unfold State.abandonGraft
  repeat' (first
    | with_reducible exact Only.refl _ _ | with_reducible assumption
    | ((with_reducible show areasIn _ _ = true); exact rfl) | (extract_lets +onlyGivenNames _x; first
      | (rename State => _y; refine Only.bring _y ?_ ?_; rotate_left; clear_value _y; intro _; rotate_right; subst _y)
      | (rename _ × State => _y; refine Only.bringSnd _y ?_ ?_; rotate_left; clear_value _y; intro _; rotate_right; subst _y)
      | skip)
    | with_reducible apply Only.ite | (apply Only.into; first
      | with_reducible apply State.modFw_only
      | with_reducible apply State.finish_only)
    | split)

theorem State.modWatch_only (f : WatchState → WatchState) (s : State) :
    Only [.watch] s (State.modWatch f s) := by
  unfold State.modWatch
  repeat' (first
    | with_reducible exact Only.refl _ _ | ((with_reducible show areasIn _ _ = true); exact rfl)
    | (simp only [Only.updated]; with_reducible refine Updated.of ?_ rfl ?_ ?_ ?_ ?_ ?_ ?_ ?_ ?_ ?_ ?_ ?_ ?_ ?_ ?_ ?_ ?_ ?_ ?_ ?_ ?_)
    | with_reducible exact .inr rfl | exact .inl rfl)

theorem State.abortJobs_only (s : State) :
    Only [.watch] s (State.abortJobs s) := by
  unfold State.abortJobs
  repeat' (first
    | with_reducible exact Only.refl _ _ | ((with_reducible show areasIn _ _ = true); exact rfl)
    | (apply Only.into; with_reducible apply State.modWatch_only))

theorem State.abortKeyOps_only (s : State) :
    Only [.log, .net, .ses, .watch, .fw] s (State.abortKeyOps s) := by
  unfold State.abortKeyOps
  repeat' (first
    | with_reducible exact Only.refl _ _ | with_reducible assumption
    | ((with_reducible show areasIn _ _ = true); exact rfl) | (extract_lets +onlyGivenNames _x; first
      | (rename State => _y; refine Only.bring _y ?_ ?_; rotate_left; clear_value _y; intro _; rotate_right; subst _y)
      | (rename _ × State => _y; refine Only.bringSnd _y ?_ ?_; rotate_left; clear_value _y; intro _; rotate_right; subst _y)
      | skip)
    | (apply Only.into; first
      | with_reducible apply State.abortJobs_only
      | with_reducible apply State.modFw_only
      | with_reducible apply State.finish_only)
    | split)

theorem State.resumeCharge_only (s : State) :
    Only [.reg] s (State.resumeCharge s) := by
  unfold State.resumeCharge
  repeat' (first
    | with_reducible exact Only.refl _ _ | with_reducible assumption
    | ((with_reducible show areasIn _ _ = true); exact rfl) | with_reducible apply Only.ite
    | (apply Only.into; with_reducible apply State.modReg_only))

theorem State.deferEvent_only (ev : EventCode) (a : Nat) (b : Nat) (c : Nat) (s : State) :
    Only [.log] s (State.deferEvent ev a b c s) := by
  unfold State.deferEvent
  repeat' (first
    | with_reducible exact Only.refl _ _ | ((with_reducible show areasIn _ _ = true); exact rfl)
    | (apply Only.into; with_reducible apply State.modLog_only))

theorem State.eventFor_only (r : Option RequestRef) (ev : EventCode) (a : Nat) (b : Nat) (c : Nat) (s : State) :
    Only [.log] s (State.eventFor r ev a b c s) := by
  unfold State.eventFor
  repeat' (first
    | with_reducible exact Only.refl _ _ | with_reducible assumption
    | ((with_reducible show areasIn _ _ = true); exact rfl) | with_reducible apply Only.ite | (apply Only.into; first
      | with_reducible apply State.deferEvent_only
      | with_reducible apply State.modLog_only))

theorem State.event_only (ev : EventCode) (a : Nat) (b : Nat) (c : Nat) (s : State) :
    Only [.log] s (State.event ev a b c s) := by
  unfold State.event
  repeat' (first
    | with_reducible exact Only.refl _ _ | ((with_reducible show areasIn _ _ = true); exact rfl)
    | (apply Only.into; with_reducible apply State.eventFor_only))

theorem State.abortTest_only (s : State) :
    Only [.log, .power, .reg] s (State.abortTest s) := by
  unfold State.abortTest
  repeat' (first
    | with_reducible exact Only.refl _ _ | with_reducible assumption
    | ((with_reducible show areasIn _ _ = true); exact rfl) | (extract_lets +onlyGivenNames _x; first
      | (rename State => _y; refine Only.bring _y ?_ ?_; rotate_left; clear_value _y; intro _; rotate_right; subst _y)
      | (rename _ × State => _y; refine Only.bringSnd _y ?_ ?_; rotate_left; clear_value _y; intro _; rotate_right; subst _y)
      | skip)
    | (apply Only.into; first
      | with_reducible apply State.resumeCharge_only
      | with_reducible apply State.event_only
      | with_reducible apply State.modPower_only)
    | split)

theorem State.draw_only (s : State) :
    Only [.draws] s (State.draw s).2 := by
  unfold State.draw
  repeat' (first
    | with_reducible exact Only.refl _ _ | ((with_reducible show areasIn _ _ = true); exact rfl)
    | (simp only [Only.updated]; with_reducible refine Updated.of ?_ rfl ?_ ?_ ?_ ?_ ?_ ?_ ?_ ?_ ?_ ?_ ?_ ?_ ?_ ?_ ?_ ?_ ?_ ?_ ?_ ?_)
    | with_reducible exact .inr rfl | exact .inl rfl)

theorem State.draw_only_eq {s : State} {p : _} {t : State} (h : State.draw s = (p, t)) :
    Only [.draws] s t := by
  have k := State.draw_only s
  rw [h] at k
  exact k

theorem State.random_only (n : Nat) (s : State) :
    Only [.draws] s (State.random n s).2 := by
  unfold State.random
  repeat' (first
    | with_reducible exact Only.refl _ _ | with_reducible assumption
    | ((with_reducible show areasIn _ _ = true); exact rfl) | (apply Only.into; first
      | with_reducible apply State.draw_only
      | (with_reducible apply State.draw_only_eq; assumption))
    | split)

theorem State.random_only_eq {n : Nat} {s : State} {p : _} {t : State} (h : State.random n s = (p, t)) :
    Only [.draws] s t := by
  have k := State.random_only n s
  rw [h] at k
  exact k

theorem State.accept_only (rx : Rx) (h : Header) (b : Bytes) (s : State) :
    Only [.draws, .net, .ses] s (State.accept rx h b s) := by
  unfold State.accept
  repeat' (first
    | with_reducible exact Only.refl _ _ | with_reducible assumption
    | ((with_reducible show areasIn _ _ = true); exact rfl) | (extract_lets +onlyGivenNames _x; first
      | (rename State => _y; refine Only.bring _y ?_ ?_; rotate_left; clear_value _y; intro _; rotate_right; subst _y)
      | (rename _ × State => _y; refine Only.bringSnd _y ?_ ?_; rotate_left; clear_value _y; intro _; rotate_right; subst _y)
      | skip)
    | (apply Only.into; first
      | with_reducible apply State.random_only
      | (with_reducible apply State.random_only_eq; assumption)
      | with_reducible apply State.modSes_only
      | with_reducible apply State.say_only)
    | split)

theorem State.waitUntil_only (at_ : Nat) (s : State) :
    Only [.clock] s (State.waitUntil at_ s) := by
  unfold State.waitUntil
  repeat' (first
    | with_reducible exact Only.refl _ _ | ((with_reducible show areasIn _ _ = true); exact rfl)
    | (simp only [Only.updated]; with_reducible refine Updated.of ?_ rfl ?_ ?_ ?_ ?_ ?_ ?_ ?_ ?_ ?_ ?_ ?_ ?_ ?_ ?_ ?_ ?_ ?_ ?_ ?_ ?_)
    | with_reducible exact .inr rfl | exact .inl rfl)

theorem State.actExpired_only (s : State) :
    Only [.clock, .net] s (State.actExpired s) := by
  unfold State.actExpired
  repeat' (first
    | with_reducible exact Only.refl _ _ | with_reducible assumption
    | ((with_reducible show areasIn _ _ = true); exact rfl) | (apply Only.into; first
      | with_reducible apply State.modNet_only
      | with_reducible apply State.waitUntil_only)
    | split)

theorem State.modSec_only (f : SecState → SecState) (s : State) :
    Only [.sec] s (State.modSec f s) := by
  unfold State.modSec
  repeat' (first
    | with_reducible exact Only.refl _ _ | ((with_reducible show areasIn _ _ = true); exact rfl)
    | (simp only [Only.updated]; with_reducible refine Updated.of ?_ rfl ?_ ?_ ?_ ?_ ?_ ?_ ?_ ?_ ?_ ?_ ?_ ?_ ?_ ?_ ?_ ?_ ?_ ?_ ?_ ?_)
    | with_reducible exact .inr rfl | exact .inl rfl)

theorem State.sendDawn_only (q : Port) (dst : Mac) (level : Mode) (index : Nat) (s : State) :
    Only [.net] s (State.sendDawn q dst level index s) := by
  unfold State.sendDawn
  repeat' (first
    | with_reducible exact Only.refl _ _ | with_reducible assumption
    | ((with_reducible show areasIn _ _ = true); exact rfl) | (extract_lets +onlyGivenNames _x; first
      | (rename State => _y; refine Only.bring _y ?_ ?_; rotate_left; clear_value _y; intro _; rotate_right; subst _y)
      | (rename _ × State => _y; refine Only.bringSnd _y ?_ ?_; rotate_left; clear_value _y; intro _; rotate_right; subst _y)
      | skip)
    | with_reducible apply Only.ite | (apply Only.into; with_reducible apply State.enqueue_only))

theorem State.beginSeries_only (level : Mode) (s : State) :
    Only [.net, .start, .outputs] s (State.beginSeries level s) := by
  unfold State.beginSeries
  repeat' (first
    | with_reducible exact Only.refl _ _ | with_reducible assumption
    | ((with_reducible show areasIn _ _ = true); exact rfl) | (extract_lets +onlyGivenNames _x; first
      | (rename State => _y; refine Only.bring _y ?_ ?_; rotate_left; clear_value _y; intro _; rotate_right; subst _y)
      | (rename _ × State => _y; refine Only.bringSnd _y ?_ ?_; rotate_left; clear_value _y; intro _; rotate_right; subst _y)
      | skip)
    | (apply Only.into; first
      | with_reducible apply State.modStart_only
      | with_reducible apply State.sendDawn_only))

theorem State.setMode_only (m : Mode) (s : State) :
    Only [.mode] s (State.setMode m s) := by
  unfold State.setMode
  repeat' (first
    | with_reducible exact Only.refl _ _ | ((with_reducible show areasIn _ _ = true); exact rfl)
    | (simp only [Only.updated]; with_reducible refine Updated.of ?_ rfl ?_ ?_ ?_ ?_ ?_ ?_ ?_ ?_ ?_ ?_ ?_ ?_ ?_ ?_ ?_ ?_ ?_ ?_ ?_ ?_)
    | with_reducible exact .inr rfl | exact .inl rfl)

theorem State.enter_only (m : Mode) (s : State) :
    Only [.mode, .power] s (State.enter m s) := by
  unfold State.enter
  repeat' (first
    | with_reducible exact Only.refl _ _ | with_reducible assumption
    | ((with_reducible show areasIn _ _ = true); exact rfl) | with_reducible apply Only.ite | (apply Only.into; first
      | with_reducible apply State.modPower_only
      | with_reducible apply State.setMode_only))

theorem State.randomKeys_only (x0 : Nat) (x1 : State) :
    Only [.draws] x1 (State.randomKeys x0 x1).2 := by
  induction x0 generalizing x1 with
  | zero => exact Only.refl _ _
  | succ n ih => exact (Only.into (State.random_only _ _) rfl (Only.refl _ _)).trans (ih _)

theorem State.randomKeys_only_eq {x0 : Nat} {x1 : State} {p : _} {t : State} (h : State.randomKeys x0 x1 = (p, t)) :
    Only [.draws] x1 t := by
  have k := State.randomKeys_only x0 x1
  rw [h] at k
  exact k

theorem State.newKeys_only (s : State) :
    Only [.draws, .sec] s (State.newKeys s) := by
  unfold State.newKeys
  repeat' (first
    | with_reducible exact Only.refl _ _ | with_reducible assumption
    | ((with_reducible show areasIn _ _ = true); exact rfl) | (extract_lets +onlyGivenNames _x; first
      | (rename State => _y; refine Only.bring _y ?_ ?_; rotate_left; clear_value _y; intro _; rotate_right; subst _y)
      | (rename _ × State => _y; refine Only.bringSnd _y ?_ ?_; rotate_left; clear_value _y; intro _; rotate_right; subst _y)
      | skip)
    | (apply Only.into; first
      | with_reducible apply State.random_only
      | (with_reducible apply State.random_only_eq; assumption)
      | with_reducible apply State.randomKeys_only
      | (with_reducible apply State.randomKeys_only_eq; assumption)
      | with_reducible apply State.modSec_only)
    | split)

theorem State.modMedia_only (f : MediaState → MediaState) (s : State) :
    Only [.media] s (State.modMedia f s) := by
  unfold State.modMedia
  repeat' (first
    | with_reducible exact Only.refl _ _ | ((with_reducible show areasIn _ _ = true); exact rfl)
    | (simp only [Only.updated]; with_reducible refine Updated.of ?_ rfl ?_ ?_ ?_ ?_ ?_ ?_ ?_ ?_ ?_ ?_ ?_ ?_ ?_ ?_ ?_ ?_ ?_ ?_ ?_ ?_)
    | with_reducible exact .inr rfl | exact .inl rfl)

theorem State.modJournal_only (f : JournalState → JournalState) (s : State) :
    Only [.journal] s (State.modJournal f s) := by
  unfold State.modJournal
  repeat' (first
    | with_reducible exact Only.refl _ _ | ((with_reducible show areasIn _ _ = true); exact rfl)
    | (simp only [Only.updated]; with_reducible refine Updated.of ?_ rfl ?_ ?_ ?_ ?_ ?_ ?_ ?_ ?_ ?_ ?_ ?_ ?_ ?_ ?_ ?_ ?_ ?_ ?_ ?_ ?_)
    | with_reducible exact .inr rfl | exact .inl rfl)

theorem State.nameBands_only (reloc : Bool) (s : State) :
    Only [.journal] s (State.nameBands reloc s) := by
  unfold State.nameBands
  repeat' (first
    | with_reducible exact Only.refl _ _ | with_reducible assumption
    | ((with_reducible show areasIn _ _ = true); exact rfl) | (extract_lets +onlyGivenNames _x; first
      | (rename State => _y; refine Only.bring _y ?_ ?_; rotate_left; clear_value _y; intro _; rotate_right; subst _y)
      | (rename _ × State => _y; refine Only.bringSnd _y ?_ ?_; rotate_left; clear_value _y; intro _; rotate_right; subst _y)
      | skip)
    | with_reducible apply Only.ite | (apply Only.into; with_reducible apply State.modJournal_only))

theorem State.nextSeq_only (s : State) :
    Only [.journal] s (State.nextSeq s) := by
  unfold State.nextSeq
  repeat' (first
    | with_reducible exact Only.refl _ _ | ((with_reducible show areasIn _ _ = true); exact rfl)
    | (apply Only.into; with_reducible apply State.modJournal_only))

theorem State.addOp_only (kind : OpKind) (why : Purpose) (b : BlockId) (page : Nat) (s : State) :
    Only [.media] s (State.addOp kind why b page s) := by
  unfold State.addOp
  repeat' (first
    | with_reducible exact Only.refl _ _ | ((with_reducible show areasIn _ _ = true); exact rfl)
    | (apply Only.into; with_reducible apply State.modMedia_only))

theorem State.writeIndex_only (s : State) :
    Only [.media, .journal] s (State.writeIndex s) := by
  unfold State.writeIndex
  repeat' (first
    | with_reducible exact Only.refl _ _ | with_reducible assumption
    | ((with_reducible show areasIn _ _ = true); exact rfl) | (extract_lets +onlyGivenNames _x; first
      | (rename State => _y; refine Only.bring _y ?_ ?_; rotate_left; clear_value _y; intro _; rotate_right; subst _y)
      | (rename _ × State => _y; refine Only.bringSnd _y ?_ ?_; rotate_left; clear_value _y; intro _; rotate_right; subst _y)
      | skip)
    | (apply Only.into; first
      | with_reducible apply State.modMedia_only
      | with_reducible apply State.modJournal_only))

theorem State.writeEntry_only (kind : EntryKind) (s : State) :
    Only [.log, .store, .media, .journal] s (State.writeEntry kind s) := by
  unfold State.writeEntry
  repeat' (first
    | with_reducible exact Only.refl _ _ | with_reducible assumption
    | ((with_reducible show areasIn _ _ = true); exact rfl) | (extract_lets +onlyGivenNames _x; first
      | (rename State => _y; refine Only.bring _y ?_ ?_; rotate_left; clear_value _y; intro _; rotate_right; subst _y)
      | (rename _ × State => _y; refine Only.bringSnd _y ?_ ?_; rotate_left; clear_value _y; intro _; rotate_right; subst _y)
      | skip)
    | with_reducible apply Only.ite | with_reducible apply Only.when | (apply Only.into; first
      | with_reducible apply State.nameBands_only
      | with_reducible apply State.nextSeq_only
      | with_reducible apply State.writeIndex_only
      | with_reducible apply State.modJournal_only
      | with_reducible apply State.addOp_only
      | with_reducible apply State.modMedia_only
      | with_reducible apply State.modStore_only
      | with_reducible apply State.modLog_only)
    | (with_reducible apply Only.foldl; (intro _ _)))

theorem State.endDownload_only (id : Nat) (s : State) :
    Only [.log, .fw] s (State.endDownload id s) := by
  unfold State.endDownload
  repeat' (first
    | with_reducible exact Only.refl _ _ | with_reducible assumption
    | ((with_reducible show areasIn _ _ = true); exact rfl) | with_reducible apply Only.ite | (apply Only.into; first
      | with_reducible apply State.event_only
      | with_reducible apply State.modFw_only)
    | split)

theorem State.removeSess_only (id : Nat) (s : State) :
    Only [.log, .admin, .ses, .fw] s (State.removeSess id s) := by
  unfold State.removeSess
  repeat' (first
    | with_reducible exact Only.refl _ _ | with_reducible assumption
    | ((with_reducible show areasIn _ _ = true); exact rfl) | (extract_lets +onlyGivenNames _x; first
      | (rename State => _y; refine Only.bring _y ?_ ?_; rotate_left; clear_value _y; intro _; rotate_right; subst _y)
      | (rename _ × State => _y; refine Only.bringSnd _y ?_ ?_; rotate_left; clear_value _y; intro _; rotate_right; subst _y)
      | skip)
    | (apply Only.into; first
      | with_reducible apply State.endDownload_only
      | with_reducible apply State.modSes_only
      | with_reducible apply State.modAdmin_only))

theorem State.release_only (occ : Nat) (s : State) :
    Only [.net] s (State.release occ s) := by
  unfold State.release
  repeat' (first
    | with_reducible exact Only.refl _ _ | with_reducible assumption
    | ((with_reducible show areasIn _ _ = true); exact rfl) | (extract_lets +onlyGivenNames _x; first
      | (rename State => _y; refine Only.bring _y ?_ ?_; rotate_left; clear_value _y; intro _; rotate_right; subst _y)
      | (rename _ × State => _y; refine Only.bringSnd _y ?_ ?_; rotate_left; clear_value _y; intro _; rotate_right; subst _y)
      | skip)
    | with_reducible apply Only.ite | (apply Only.into; first
      | with_reducible apply State.modNet_only
      | with_reducible apply State.modPort_only))

theorem State.eraseSessions_only (s : State) :
    Only [.log, .admin, .net, .ses, .fw] s (State.eraseSessions s) := by
  unfold State.eraseSessions
  repeat' (first
    | with_reducible exact Only.refl _ _ | with_reducible assumption
    | ((with_reducible show areasIn _ _ = true); exact rfl) | (extract_lets +onlyGivenNames _x; first
      | (rename State => _y; refine Only.bring _y ?_ ?_; rotate_left; clear_value _y; intro _; rotate_right; subst _y)
      | (rename _ × State => _y; refine Only.bringSnd _y ?_ ?_; rotate_left; clear_value _y; intro _; rotate_right; subst _y)
      | skip)
    | with_reducible apply Only.ite | (apply Only.into; first
      | with_reducible apply State.modPort_only
      | with_reducible apply State.say_only
      | with_reducible apply State.event_only
      | with_reducible apply State.removeSess_only
      | with_reducible apply State.release_only
      | with_reducible apply State.modSes_only)
    | (with_reducible apply Only.foldl; (intro _ _)) | split)

theorem State.dropOps_only (p : Purpose → Bool) (s : State) :
    Only [.media] s (State.dropOps p s) := by
  unfold State.dropOps
  repeat' (first
    | with_reducible exact Only.refl _ _ | ((with_reducible show areasIn _ _ = true); exact rfl)
    | (apply Only.into; with_reducible apply State.modMedia_only))

theorem State.emptyStore_only (s : State) :
    Only [.admin, .store, .media] s (State.emptyStore s) := by
  unfold State.emptyStore
  repeat' (first
    | with_reducible exact Only.refl _ _ | with_reducible assumption
    | ((with_reducible show areasIn _ _ = true); exact rfl) | (extract_lets +onlyGivenNames _x; first
      | (rename State => _y; refine Only.bring _y ?_ ?_; rotate_left; clear_value _y; intro _; rotate_right; subst _y)
      | (rename _ × State => _y; refine Only.bringSnd _y ?_ ?_; rotate_left; clear_value _y; intro _; rotate_right; subst _y)
      | skip)
    | (apply Only.into; first
      | with_reducible apply State.modStore_only
      | with_reducible apply State.modMedia_only
      | with_reducible apply State.modAdmin_only
      | with_reducible apply State.dropOps_only)
    | split)

theorem State.eraseAll_only (s : State) :
    Only [.draws, .log, .admin, .net, .ses, .store, .media, .journal, .sec, .fw] s (State.eraseAll s) := by
  unfold State.eraseAll
  repeat' (first
    | with_reducible exact Only.refl _ _ | with_reducible assumption
    | ((with_reducible show areasIn _ _ = true); exact rfl) | (extract_lets +onlyGivenNames _x; first
      | (rename State => _y; refine Only.bring _y ?_ ?_; rotate_left; clear_value _y; intro _; rotate_right; subst _y)
      | (rename _ × State => _y; refine Only.bringSnd _y ?_ ?_; rotate_left; clear_value _y; intro _; rotate_right; subst _y)
      | skip)
    | (apply Only.into; first
      | with_reducible apply State.modNet_only
      | with_reducible apply State.eraseSessions_only
      | with_reducible apply State.modSec_only
      | with_reducible apply State.emptyStore_only
      | with_reducible apply State.writeEntry_only
      | with_reducible apply State.newKeys_only))

theorem State.sealErased_only (s : State) :
    Only [.mode, .draws, .log, .admin, .net, .ses, .store, .power, .reg, .start, .outputs, .media, .journal, .sec, .fw] s (State.sealErased s) := by
  unfold State.sealErased
  repeat' (first
    | with_reducible exact Only.refl _ _ | with_reducible assumption
    | ((with_reducible show areasIn _ _ = true); exact rfl) | (extract_lets +onlyGivenNames _x; first
      | (rename State => _y; refine Only.bring _y ?_ ?_; rotate_left; clear_value _y; intro _; rotate_right; subst _y)
      | (rename _ × State => _y; refine Only.bringSnd _y ?_ ?_; rotate_left; clear_value _y; intro _; rotate_right; subst _y)
      | skip)
    | (apply Only.into; first
      | with_reducible apply State.abortTest_only
      | with_reducible apply State.modStart_only
      | with_reducible apply State.enter_only
      | with_reducible apply State.beginSeries_only
      | with_reducible apply State.eraseAll_only))

theorem State.undoPin_only (u : Option (Bool × Pin)) (s : State) :
    Only [.store] s (State.undoPin u s) := by
  unfold State.undoPin
  repeat' (first
    | with_reducible exact Only.refl _ _ | with_reducible assumption
    | ((with_reducible show areasIn _ _ = true); exact rfl) | with_reducible apply Only.ite
    | (apply Only.into; with_reducible apply State.modStore_only) | split)

theorem State.finishLy1_only (a : Ask) (status : Nat) (reason : Nat) (range : Bool) (set : Nat) (lba : Nat) (count : Nat) (data : Bytes) (s : State) :
    Only [.log, .net, .ses] s (State.finishLy1 a status reason range set lba count data s) := by
  unfold State.finishLy1
  repeat' (first
    | with_reducible exact Only.refl _ _ | with_reducible assumption
    | ((with_reducible show areasIn _ _ = true); exact rfl) | (extract_lets +onlyGivenNames _x; first
      | (rename State => _y; refine Only.bring _y ?_ ?_; rotate_left; clear_value _y; intro _; rotate_right; subst _y)
      | (rename _ × State => _y; refine Only.bringSnd _y ?_ ?_; rotate_left; clear_value _y; intro _; rotate_right; subst _y)
      | skip)
    | with_reducible apply Only.ite | (apply Only.into; first
      | with_reducible apply State.noteError_only
      | with_reducible apply State.modFlight_only
      | with_reducible apply State.modSess_only
      | with_reducible apply State.say_only)
    | split)

theorem State.unqueue_only (q : Port) (id : Nat) (msgId : Nat) (s : State) :
    Only [.net] s (State.unqueue q id msgId s) := by
  unfold State.unqueue
  repeat' (first
    | with_reducible exact Only.refl _ _ | ((with_reducible show areasIn _ _ = true); exact rfl)
    | (apply Only.into; with_reducible apply State.modPort_only))

theorem State.stopFlight_only (status : Nat) (reason : Nat) (e : Sess) (f : Flight) (s : State) :
    Only [.log, .net, .ses, .store] s (State.stopFlight status reason e f s) := by
  unfold State.stopFlight
  repeat' (first
    | with_reducible exact Only.refl _ _ | with_reducible assumption
    | ((with_reducible show areasIn _ _ = true); exact rfl) | (extract_lets +onlyGivenNames _x; first
      | (rename State => _y; refine Only.bring _y ?_ ?_; rotate_left; clear_value _y; intro _; rotate_right; subst _y)
      | (rename _ × State => _y; refine Only.bringSnd _y ?_ ?_; rotate_left; clear_value _y; intro _; rotate_right; subst _y)
      | skip)
    | with_reducible apply Only.ite | (apply Only.into; first
      | with_reducible apply State.unqueue_only
      | with_reducible apply State.undoPin_only
      | with_reducible apply State.modSes_only
      | with_reducible apply State.modFlight_only
      | with_reducible apply State.finishLy1_only
      | with_reducible apply State.finish_only)
    | split)

theorem State.settleClose_only (s : State) (e : Sess) :
    Only [.net, .ses] s (State.settleClose s e) := by
  unfold State.settleClose
  repeat' (first
    | with_reducible exact Only.refl _ _ | with_reducible assumption
    | ((with_reducible show areasIn _ _ = true); exact rfl) | with_reducible apply Only.ite | (apply Only.into; first
      | with_reducible apply State.say_only
      | with_reducible apply State.modSess_only)
    | split)

theorem State.settleFlush_only (s : State) (e : Sess) :
    Only [.log, .net, .ses] s (State.settleFlush s e) := by
  unfold State.settleFlush
  repeat' (first
    | with_reducible exact Only.refl _ _ | with_reducible assumption
    | ((with_reducible show areasIn _ _ = true); exact rfl) | (extract_lets +onlyGivenNames _x; first
      | (rename State => _y; refine Only.bring _y ?_ ?_; rotate_left; clear_value _y; intro _; rotate_right; subst _y)
      | (rename _ × State => _y; refine Only.bringSnd _y ?_ ?_; rotate_left; clear_value _y; intro _; rotate_right; subst _y)
      | skip)
    | with_reducible apply Only.ite | (apply Only.into; with_reducible apply State.finishLy1_only)
    | (with_reducible apply Only.foldl; (intro _ _)) | split)

theorem State.settleCloses_only (s : State) :
    Only [.log, .net, .ses] s (State.settleCloses s) := by
  unfold State.settleCloses
  repeat' (first
    | with_reducible exact Only.refl _ _ | with_reducible assumption
    | ((with_reducible show areasIn _ _ = true); exact rfl) | (extract_lets +onlyGivenNames _x; first
      | (rename State => _y; refine Only.bring _y ?_ ?_; rotate_left; clear_value _y; intro _; rotate_right; subst _y)
      | (rename _ × State => _y; refine Only.bringSnd _y ?_ ?_; rotate_left; clear_value _y; intro _; rotate_right; subst _y)
      | skip)
    | (apply Only.into; first
      | with_reducible apply State.settleFlush_only
      | with_reducible apply State.settleClose_only)
    | (with_reducible apply Only.foldl; (intro _ _)))

theorem State.dropAssemblies_only (id : Nat) (s : State) :
    Only [.net, .ses] s (State.dropAssemblies id s) := by
  unfold State.dropAssemblies
  repeat' (first
    | with_reducible exact Only.refl _ _ | with_reducible assumption
    | ((with_reducible show areasIn _ _ = true); exact rfl) | (extract_lets +onlyGivenNames _x; first
      | (rename State => _y; refine Only.bring _y ?_ ?_; rotate_left; clear_value _y; intro _; rotate_right; subst _y)
      | (rename _ × State => _y; refine Only.bringSnd _y ?_ ?_; rotate_left; clear_value _y; intro _; rotate_right; subst _y)
      | skip)
    | (apply Only.into; first
      | with_reducible apply State.release_only
      | with_reducible apply State.modSess_only)
    | split)

theorem State.cancelFlight_only (e : Sess) (f : Flight) (s : State) :
    Only [.log, .net, .ses, .store] s (State.cancelFlight e f s) := by
  unfold State.cancelFlight
  repeat' (first
    | with_reducible exact Only.refl _ _ | ((with_reducible show areasIn _ _ = true); exact rfl)
    | (apply Only.into; with_reducible apply State.stopFlight_only))

theorem State.fail_only (a : Ask) (status : Nat) (reason : Nat) (b : AnswerBody) (s : State) :
    Only [.log, .net, .ses] s (State.fail a status reason b s) := by
  unfold State.fail
  repeat' (first
    | with_reducible exact Only.refl _ _ | with_reducible assumption
    | ((with_reducible show areasIn _ _ = true); exact rfl) | with_reducible apply Only.ite | (apply Only.into; first
      | with_reducible apply State.finishLy1_only
      | with_reducible apply State.finish_only)
    | split)

theorem State.dropMessage_only (sid : Nat) (serial : Nat) (s : State) :
    Only [.ses] s (State.dropMessage sid serial s) := by
  unfold State.dropMessage
  repeat' (first
    | with_reducible exact Only.refl _ _ | ((with_reducible show areasIn _ _ = true); exact rfl)
    | (apply Only.into; with_reducible apply State.modSess_only))

theorem State.takeMessage_only (sid : Nat) (a : Assembly) (s : State) :
    Only [.net, .ses] s (State.takeMessage sid a s) := by
  unfold State.takeMessage
  repeat' (first
    | with_reducible exact Only.refl _ _ | ((with_reducible show areasIn _ _ = true); exact rfl)
    | (apply Only.into; first
      | with_reducible apply State.release_only
      | with_reducible apply State.dropMessage_only))

theorem State.cancelWaiting_only (e : Sess) (a : Assembly) (s : State) :
    Only [.log, .net, .ses] s (State.cancelWaiting e a s) := by
  unfold State.cancelWaiting
  repeat' (first
    | with_reducible exact Only.refl _ _ | ((with_reducible show areasIn _ _ = true); exact rfl)
    | (apply Only.into; first
      | with_reducible apply State.fail_only
      | with_reducible apply State.takeMessage_only))

theorem State.cancelAll_only (id : Nat) (s : State) :
    Only [.log, .net, .ses, .store] s (State.cancelAll id s) := by
  unfold State.cancelAll
  repeat' (first
    | with_reducible exact Only.refl _ _ | with_reducible assumption
    | ((with_reducible show areasIn _ _ = true); exact rfl) | (extract_lets +onlyGivenNames _x; first
      | (rename State => _y; refine Only.bring _y ?_ ?_; rotate_left; clear_value _y; intro _; rotate_right; subst _y)
      | (rename _ × State => _y; refine Only.bringSnd _y ?_ ?_; rotate_left; clear_value _y; intro _; rotate_right; subst _y)
      | skip)
    | (apply Only.into; first
      | with_reducible apply State.cancelFlight_only
      | with_reducible apply State.cancelWaiting_only)
    | (with_reducible apply Only.foldl; (intro _ _)) | split)

theorem State.dropSession_only (id : Nat) (cause : Nat) (s : State) :
    Only [.log, .admin, .net, .ses, .store, .fw] s (State.dropSession id cause s) := by
  unfold State.dropSession
  repeat' (first
    | with_reducible exact Only.refl _ _ | with_reducible assumption
    | ((with_reducible show areasIn _ _ = true); exact rfl) | (extract_lets +onlyGivenNames _x; first
      | (rename State => _y; refine Only.bring _y ?_ ?_; rotate_left; clear_value _y; intro _; rotate_right; subst _y)
      | (rename _ × State => _y; refine Only.bringSnd _y ?_ ?_; rotate_left; clear_value _y; intro _; rotate_right; subst _y)
      | skip)
    | (apply Only.into; first
      | with_reducible apply State.removeSess_only
      | with_reducible apply State.event_only
      | with_reducible apply State.modSess_only
      | with_reducible apply State.settleCloses_only
      | with_reducible apply State.cancelAll_only
      | with_reducible apply State.dropAssemblies_only)
    | split)

theorem State.dropSessions_only (p : Sess → Bool) (cause : Nat) (s : State) :
    Only [.log, .admin, .net, .ses, .store, .fw] s (State.dropSessions p cause s) := by
  unfold State.dropSessions
  repeat' (first
    | with_reducible exact Only.refl _ _ | with_reducible assumption
    | ((with_reducible show areasIn _ _ = true); exact rfl)
    | (apply Only.into; with_reducible apply State.dropSession_only) | (with_reducible apply Only.foldl; (intro _ _)))

theorem State.lock_only (s : State) :
    Only [.mode, .log, .admin, .net, .ses, .store, .power, .reg, .start, .outputs, .media, .sec, .fw] s (State.lock s) := by
  unfold State.lock
  repeat' (first
    | with_reducible exact Only.refl _ _ | with_reducible assumption
    | ((with_reducible show areasIn _ _ = true); exact rfl) | (extract_lets +onlyGivenNames _x; first
      | (rename State => _y; refine Only.bring _y ?_ ?_; rotate_left; clear_value _y; intro _; rotate_right; subst _y)
      | (rename _ × State => _y; refine Only.bringSnd _y ?_ ?_; rotate_left; clear_value _y; intro _; rotate_right; subst _y)
      | skip)
    | (apply Only.into; first
      | with_reducible apply State.abortTest_only
      | with_reducible apply State.enter_only
      | with_reducible apply State.modSec_only
      | with_reducible apply State.modStart_only
      | with_reducible apply State.stopFlight_only
      | with_reducible apply State.dropOps_only
      | with_reducible apply State.beginSeries_only
      | with_reducible apply State.dropSessions_only)
    | (with_reducible apply Only.foldl; (intro _ _)))

theorem State.tamperAction_only (s : State) :
    Only [.mode, .draws, .log, .admin, .net, .ses, .store, .power, .reg, .start, .outputs, .media, .journal, .watch, .sec, .fw] s (State.tamperAction s) := by
  unfold State.tamperAction
  repeat' (first
    | with_reducible exact Only.refl _ _ | with_reducible assumption
    | ((with_reducible show areasIn _ _ = true); exact rfl) | (extract_lets +onlyGivenNames _x; first
      | (rename State => _y; refine Only.bring _y ?_ ?_; rotate_left; clear_value _y; intro _; rotate_right; subst _y)
      | (rename _ × State => _y; refine Only.bringSnd _y ?_ ?_; rotate_left; clear_value _y; intro _; rotate_right; subst _y)
      | skip)
    | with_reducible apply Only.ite | (apply Only.into; first
      | with_reducible apply State.event_only
      | with_reducible apply State.abortKeyOps_only
      | with_reducible apply State.eraseAll_only
      | with_reducible apply State.modStore_only
      | with_reducible apply State.modSec_only
      | with_reducible apply State.lock_only
      | with_reducible apply State.sealErased_only)
    | split)

theorem State.alarm_only (s : State) :
    Only [.mode, .draws, .log, .admin, .net, .ses, .store, .power, .reg, .start, .outputs, .media, .journal, .watch, .sec, .fw] s (State.alarm s) := by
  unfold State.alarm
  repeat' (first
    | with_reducible exact Only.refl _ _ | with_reducible assumption
    | ((with_reducible show areasIn _ _ = true); exact rfl) | (apply Only.into; first
      | with_reducible apply State.modSec_only
      | with_reducible apply State.deferEvent_only
      | with_reducible apply State.tamperAction_only
      | with_reducible apply State.modPower_only)
    | split)

theorem State.pauseBounds_only (s : State) :
    Only [.ses] s (State.pauseBounds s) := by
  unfold State.pauseBounds
  repeat' (first
    | with_reducible exact Only.refl _ _ | ((with_reducible show areasIn _ _ = true); exact rfl)
    | (apply Only.into; with_reducible apply State.modSes_only))

theorem State.beginRun_only (path : StartPath) (source : StartSource) (step : Nat) (env : StartEnv) (s : State) :
    Only [.mode, .draws, .log, .admin, .net, .ses, .store, .power, .reg, .start, .outputs, .media, .journal, .watch, .sec, .fw] s (State.beginRun path source step env s) := by
  unfold State.beginRun
  repeat' (first
    | with_reducible exact Only.refl _ _ | with_reducible assumption
    | ((with_reducible show areasIn _ _ = true); exact rfl) | (extract_lets +onlyGivenNames _x; first
      | (rename State => _y; refine Only.bring _y ?_ ?_; rotate_left; clear_value _y; intro _; rotate_right; subst _y)
      | (rename _ × State => _y; refine Only.bringSnd _y ?_ ?_; rotate_left; clear_value _y; intro _; rotate_right; subst _y)
      | skip)
    | with_reducible apply Only.ite | with_reducible apply Only.when | (apply Only.into; first
      | with_reducible apply State.pauseBounds_only
      | with_reducible apply State.modStart_only
      | with_reducible apply State.alarm_only
      | with_reducible apply State.modSec_only))

theorem State.beginFallback_only (cause : Nat) (s : State) :
    Only [.log, .power, .reg, .fw] s (State.beginFallback cause s) := by
  unfold State.beginFallback
  repeat' (first
    | with_reducible exact Only.refl _ _ | with_reducible assumption
    | ((with_reducible show areasIn _ _ = true); exact rfl) | (extract_lets +onlyGivenNames _x; first
      | (rename State => _y; refine Only.bring _y ?_ ?_; rotate_left; clear_value _y; intro _; rotate_right; subst _y)
      | (rename _ × State => _y; refine Only.bringSnd _y ?_ ?_; rotate_left; clear_value _y; intro _; rotate_right; subst _y)
      | skip)
    | with_reducible apply Only.ite | (apply Only.into; first
      | with_reducible apply State.modFw_only
      | with_reducible apply State.abortTest_only)
    | split)

theorem State.takeFallback_only (s : State) :
    Only [.log, .power, .reg, .fw] s (State.takeFallback s) := by
  unfold State.takeFallback
  repeat' (first
    | with_reducible exact Only.refl _ _ | with_reducible assumption
    | ((with_reducible show areasIn _ _ = true); exact rfl) | with_reducible apply Only.ite
    | (apply Only.into; with_reducible apply State.beginFallback_only) | split)

theorem State.releaseKept_only (s : State) :
    Only [.net, .ses] s (State.releaseKept s) := by
  unfold State.releaseKept
  repeat' (first
    | with_reducible exact Only.refl _ _ | with_reducible assumption
    | ((with_reducible show areasIn _ _ = true); exact rfl) | (extract_lets +onlyGivenNames _x; first
      | (rename State => _y; refine Only.bring _y ?_ ?_; rotate_left; clear_value _y; intro _; rotate_right; subst _y)
      | (rename _ × State => _y; refine Only.bringSnd _y ?_ ?_; rotate_left; clear_value _y; intro _; rotate_right; subst _y)
      | skip)
    | (apply Only.into; first
      | with_reducible apply State.modSes_only
      | with_reducible apply State.enqueue_only)
    | (with_reducible apply Only.foldl; (intro _ _)))

theorem State.resumeSessions_only (s : State) :
    Only [.net, .ses] s (State.resumeSessions s) := by
  unfold State.resumeSessions
  repeat' (first
    | with_reducible exact Only.refl _ _ | ((with_reducible show areasIn _ _ = true); exact rfl)
    | (apply Only.into; first
      | with_reducible apply State.releaseKept_only
      | with_reducible apply State.modSes_only
      | with_reducible apply State.pauseBounds_only))

theorem State.kick_only (d : Nat) (s : State) :
    Only [.media] s (State.kick d s) := by
  unfold State.kick
  repeat' (first
    | with_reducible exact Only.refl _ _ | with_reducible assumption
    | ((with_reducible show areasIn _ _ = true); exact rfl) | with_reducible apply Only.ite
    | (apply Only.into; with_reducible apply State.modMedia_only) | split)

theorem State.request_only (kind : OpKind) (why : Purpose) (b : BlockId) (page : Nat) (s : State) :
    Only [.media] s (State.request kind why b page s) := by
  unfold State.request
  repeat' (first
    | with_reducible exact Only.refl _ _ | ((with_reducible show areasIn _ _ = true); exact rfl)
    | (apply Only.into; first
      | with_reducible apply State.kick_only
      | with_reducible apply State.addOp_only))

theorem State.requestRead_only (sid : Nat) (msgId : Nat) (tenant : Nat) (key : Bytes) (version : Nat) (s : State) :
    Only [.media] s (State.requestRead sid msgId tenant key version s) := by
  unfold State.requestRead
  repeat' (first
    | with_reducible exact Only.refl _ _ | with_reducible assumption
    | ((with_reducible show areasIn _ _ = true); exact rfl)
    | (apply Only.into; with_reducible apply State.request_only) | split)

theorem State.requestHeld_only (s : State) :
    Only [.media] s (State.requestHeld s) := by
  unfold State.requestHeld
  repeat' (first
    | with_reducible exact Only.refl _ _ | with_reducible assumption
    | ((with_reducible show areasIn _ _ = true); exact rfl) | with_reducible apply Only.ite
    | (apply Only.into; with_reducible apply State.requestRead_only) | (with_reducible apply Only.foldl; (intro _ _))
    | split)

theorem State.armTimers_only (s : State) :
    Only [.store, .power] s (State.armTimers s) := by
  unfold State.armTimers
  repeat' (first
    | with_reducible exact Only.refl _ _ | with_reducible assumption
    | ((with_reducible show areasIn _ _ = true); exact rfl) | (extract_lets +onlyGivenNames _x; first
      | (rename State => _y; refine Only.bring _y ?_ ?_; rotate_left; clear_value _y; intro _; rotate_right; subst _y)
      | (rename _ × State => _y; refine Only.bringSnd _y ?_ ?_; rotate_left; clear_value _y; intro _; rotate_right; subst _y)
      | skip)
    | with_reducible apply Only.ite | (apply Only.into; first
      | with_reducible apply State.modStore_only
      | with_reducible apply State.modPower_only))

theorem State.startLoops_only (s : State) :
    Only [.reg] s (State.startLoops s) := by
  unfold State.startLoops
  repeat' (first
    | with_reducible exact Only.refl _ _ | with_reducible assumption
    | ((with_reducible show areasIn _ _ = true); exact rfl) | (extract_lets +onlyGivenNames _x; first
      | (rename State => _y; refine Only.bring _y ?_ ?_; rotate_left; clear_value _y; intro _; rotate_right; subst _y)
      | (rename _ × State => _y; refine Only.bringSnd _y ?_ ?_; rotate_left; clear_value _y; intro _; rotate_right; subst _y)
      | skip)
    | (apply Only.into; with_reducible apply State.modReg_only))

theorem State.submitVerify_only (s : State) :
    Only [.watch] s (State.submitVerify s) := by
  unfold State.submitVerify
  repeat' (first
    | with_reducible exact Only.refl _ _ | with_reducible assumption
    | ((with_reducible show areasIn _ _ = true); exact rfl) | (extract_lets +onlyGivenNames _x; first
      | (rename State => _y; refine Only.bring _y ?_ ?_; rotate_left; clear_value _y; intro _; rotate_right; subst _y)
      | (rename _ × State => _y; refine Only.bringSnd _y ?_ ?_; rotate_left; clear_value _y; intro _; rotate_right; subst _y)
      | skip)
    | with_reducible apply Only.ite | (apply Only.into; with_reducible apply State.modWatch_only) | split)

theorem State.startWatch_only (s : State) :
    Only [.watch] s (State.startWatch s) := by
  unfold State.startWatch
  repeat' (first
    | with_reducible exact Only.refl _ _ | with_reducible assumption
    | ((with_reducible show areasIn _ _ = true); exact rfl) | with_reducible apply Only.ite
    | (apply Only.into; with_reducible apply State.modWatch_only))

theorem State.lateWatch_only (s : State) :
    Only [.watch] s (State.lateWatch s) := by
  unfold State.lateWatch
  repeat' (first
    | with_reducible exact Only.refl _ _ | with_reducible assumption
    | ((with_reducible show areasIn _ _ = true); exact rfl) | with_reducible apply Only.ite
    | (apply Only.into; with_reducible apply State.startWatch_only))

theorem State.openLimit_only (s : State) :
    Only [.start, .outputs] s (State.openLimit s) := by
  unfold State.openLimit
  repeat' (first
    | with_reducible exact Only.refl _ _ | with_reducible assumption
    | ((with_reducible show areasIn _ _ = true); exact rfl) | (extract_lets +onlyGivenNames _x; first
      | (rename State => _y; refine Only.bring _y ?_ ?_; rotate_left; clear_value _y; intro _; rotate_right; subst _y)
      | (rename _ × State => _y; refine Only.bringSnd _y ?_ ?_; rotate_left; clear_value _y; intro _; rotate_right; subst _y)
      | skip)
    | with_reducible apply Only.ite | (apply Only.into; with_reducible apply State.modStart_only))

theorem State.sendOwn_only (q : Port) (ethertype : Nat) (dst : Mac) (payload : Bytes) (s : State) :
    Only [.net] s (State.sendOwn q ethertype dst payload s) := by
  unfold State.sendOwn
  repeat' (first
    | with_reducible exact Only.refl _ _ | with_reducible assumption
    | ((with_reducible show areasIn _ _ = true); exact rfl) | with_reducible apply Only.ite
    | (apply Only.into; with_reducible apply State.enqueue_only))

theorem State.unsolicited_only (q : Port) (s : State) :
    Only [.net] s (State.unsolicited q s) := by
  unfold State.unsolicited
  repeat' (first
    | with_reducible exact Only.refl _ _ | with_reducible assumption
    | ((with_reducible show areasIn _ _ = true); exact rfl)
    | (apply Only.into; with_reducible apply State.sendOwn_only) | (with_reducible apply Only.foldl; (intro _ _)))

theorem State.askGateway_only (q : Port) (s : State) :
    Only [.net] s (State.askGateway q s) := by
  unfold State.askGateway
  repeat' (first
    | with_reducible exact Only.refl _ _ | with_reducible assumption
    | ((with_reducible show areasIn _ _ = true); exact rfl) | (extract_lets +onlyGivenNames _x; first
      | (rename State => _y; refine Only.bring _y ?_ ?_; rotate_left; clear_value _y; intro _; rotate_right; subst _y)
      | (rename _ × State => _y; refine Only.bringSnd _y ?_ ?_; rotate_left; clear_value _y; intro _; rotate_right; subst _y)
      | skip)
    | with_reducible apply Only.ite | (apply Only.into; first
      | with_reducible apply State.sendOwn_only
      | with_reducible apply State.modPort_only))

theorem State.gratuitousArp_only (q : Port) (s : State) :
    Only [.net] s (State.gratuitousArp q s) := by
  unfold State.gratuitousArp
  repeat' (first
    | with_reducible exact Only.refl _ _ | with_reducible assumption
    | ((with_reducible show areasIn _ _ = true); exact rfl) | with_reducible apply Only.ite | (apply Only.into; first
      | with_reducible apply State.askGateway_only
      | with_reducible apply State.sendOwn_only))

theorem State.announceLevel_only (level : Mode) (s : State) :
    Only [.net, .start, .outputs] s (State.announceLevel level s) := by
  unfold State.announceLevel
  repeat' (first
    | with_reducible exact Only.refl _ _ | ((with_reducible show areasIn _ _ = true); exact rfl)
    | (apply Only.into; first
      | with_reducible apply State.unsolicited_only
      | with_reducible apply State.gratuitousArp_only
      | with_reducible apply State.beginSeries_only))

theorem State.openService_only (level : Mode) (s : State) :
    Only [.net, .ses, .store, .power, .reg, .start, .outputs, .media, .watch] s (State.openService level s) := by
  unfold State.openService
  repeat' (first
    | with_reducible exact Only.refl _ _ | with_reducible assumption
    | ((with_reducible show areasIn _ _ = true); exact rfl) | (extract_lets +onlyGivenNames _x; first
      | (rename State => _y; refine Only.bring _y ?_ ?_; rotate_left; clear_value _y; intro _; rotate_right; subst _y)
      | (rename _ × State => _y; refine Only.bringSnd _y ?_ ?_; rotate_left; clear_value _y; intro _; rotate_right; subst _y)
      | skip)
    | (apply Only.into; first
      | with_reducible apply State.modNet_only
      | with_reducible apply State.submitVerify_only
      | with_reducible apply State.requestHeld_only
      | with_reducible apply State.resumeSessions_only
      | with_reducible apply State.announceLevel_only
      | with_reducible apply State.armTimers_only
      | with_reducible apply State.openLimit_only
      | with_reducible apply State.startLoops_only
      | with_reducible apply State.lateWatch_only))

theorem State.countStart_only (s : State) :
    Only [.startCount] s (State.countStart s) := by
  unfold State.countStart
  repeat' (first
    | with_reducible exact Only.refl _ _ | ((with_reducible show areasIn _ _ = true); exact rfl)
    | (simp only [Only.updated]; with_reducible refine Updated.of ?_ rfl ?_ ?_ ?_ ?_ ?_ ?_ ?_ ?_ ?_ ?_ ?_ ?_ ?_ ?_ ?_ ?_ ?_ ?_ ?_ ?_)
    | with_reducible exact .inr rfl | exact .inl rfl)

theorem State.enterLevel_only (r : StartRun) (kind : StartKind) (kept : Bool) (level : Mode) (s : State) :
    Only [.mode, .start, .outputs, .startCount] s (State.enterLevel r kind kept level s) := by
  unfold State.enterLevel
  repeat' (first
    | with_reducible exact Only.refl _ _ | ((with_reducible show areasIn _ _ = true); exact rfl)
    | (apply Only.into; first
      | with_reducible apply State.modStart_only
      | with_reducible apply State.countStart_only
      | with_reducible apply State.setMode_only))

theorem State.probeBands_only (s : State) :
    Only [.media] s (State.probeBands s) := by
  unfold State.probeBands
  repeat' (first
    | with_reducible exact Only.refl _ _ | with_reducible assumption
    | ((with_reducible show areasIn _ _ = true); exact rfl) | (apply Only.into; with_reducible apply State.addOp_only)
    | (with_reducible apply Only.foldl; (intro _ _)) | split)

theorem State.kickAll_only (s : State) :
    Only [.media] s (State.kickAll s) := by
  unfold State.kickAll
  repeat' (first
    | with_reducible exact Only.refl _ _ | with_reducible assumption
    | ((with_reducible show areasIn _ _ = true); exact rfl) | (apply Only.into; with_reducible apply State.kick_only)
    | (with_reducible apply Only.foldl; (intro _ _)))

theorem State.logDeferred_only (s : State) :
    Only [.log] s (State.logDeferred s) := by
  unfold State.logDeferred
  repeat' (first
    | with_reducible exact Only.refl _ _ | with_reducible assumption
    | ((with_reducible show areasIn _ _ = true); exact rfl) | (extract_lets +onlyGivenNames _x; first
      | (rename State => _y; refine Only.bring _y ?_ ?_; rotate_left; clear_value _y; intro _; rotate_right; subst _y)
      | (rename _ × State => _y; refine Only.bringSnd _y ?_ ?_; rotate_left; clear_value _y; intro _; rotate_right; subst _y)
      | skip)
    | (apply Only.into; with_reducible apply State.modLog_only) | (with_reducible apply Only.foldl; (intro _ _)))

theorem State.recordStart_only (kind : StartKind) (source : StartSource) (s : State) :
    Only [.admin] s (State.recordStart kind source s) := by
  unfold State.recordStart
  repeat' (first
    | with_reducible exact Only.refl _ _ | with_reducible assumption
    | ((with_reducible show areasIn _ _ = true); exact rfl) | (extract_lets +onlyGivenNames _x; first
      | (rename State => _y; refine Only.bring _y ?_ ?_; rotate_left; clear_value _y; intro _; rotate_right; subst _y)
      | (rename _ × State => _y; refine Only.bringSnd _y ?_ ?_; rotate_left; clear_value _y; intro _; rotate_right; subst _y)
      | skip)
    | with_reducible apply Only.ite | (apply Only.into; with_reducible apply State.modAdmin_only))

theorem State.logStart_only (r : StartRun) (kind : StartKind) (s : State) :
    Only [.log, .admin, .store, .media, .journal] s (State.logStart r kind s) := by
  unfold State.logStart
  repeat' (first
    | with_reducible exact Only.refl _ _ | with_reducible assumption
    | ((with_reducible show areasIn _ _ = true); exact rfl) | (extract_lets +onlyGivenNames _x; first
      | (rename State => _y; refine Only.bring _y ?_ ?_; rotate_left; clear_value _y; intro _; rotate_right; subst _y)
      | (rename _ × State => _y; refine Only.bringSnd _y ?_ ?_; rotate_left; clear_value _y; intro _; rotate_right; subst _y)
      | skip)
    | (apply Only.into; first
      | with_reducible apply State.logDeferred_only
      | with_reducible apply State.writeEntry_only
      | with_reducible apply State.recordStart_only
      | with_reducible apply State.event_only))

theorem State.enterBrace_only (cause : BraceCause) (s : State) :
    Only [.mode, .log, .power, .reg] s (State.enterBrace cause s) := by
  unfold State.enterBrace
  repeat' (first
    | with_reducible exact Only.refl _ _ | with_reducible assumption
    | ((with_reducible show areasIn _ _ = true); exact rfl) | (extract_lets +onlyGivenNames _x; first
      | (rename State => _y; refine Only.bring _y ?_ ?_; rotate_left; clear_value _y; intro _; rotate_right; subst _y)
      | (rename _ × State => _y; refine Only.bringSnd _y ?_ ?_; rotate_left; clear_value _y; intro _; rotate_right; subst _y)
      | skip)
    | with_reducible apply Only.ite | (apply Only.into; first
      | with_reducible apply State.modReg_only
      | with_reducible apply State.abortTest_only
      | with_reducible apply State.modPower_only
      | with_reducible apply State.setMode_only
      | with_reducible apply State.event_only))

theorem State.braceIfWarned_only (s : State) :
    Only [.mode, .log, .power, .reg] s (State.braceIfWarned s) := by
  unfold State.braceIfWarned
  repeat' (first
    | with_reducible exact Only.refl _ _ | with_reducible assumption
    | ((with_reducible show areasIn _ _ = true); exact rfl) | with_reducible apply Only.ite
    | (apply Only.into; with_reducible apply State.enterBrace_only))

theorem State.verifyBand_only (b : Band) (s : State) :
    Only [.media] s (State.verifyBand b s) := by
  unfold State.verifyBand
  repeat' (first
    | with_reducible exact Only.refl _ _ | with_reducible assumption
    | ((with_reducible show areasIn _ _ = true); exact rfl) | (apply Only.into; with_reducible apply State.addOp_only)
    | (with_reducible apply Only.foldl; (intro _ _)))

theorem State.resumeVerify_only (s : State) :
    Only [.media] s (State.resumeVerify s) := by
  unfold State.resumeVerify
  repeat' (first
    | with_reducible exact Only.refl _ _ | with_reducible assumption
    | ((with_reducible show areasIn _ _ = true); exact rfl) | with_reducible apply Only.ite
    | (apply Only.into; with_reducible apply State.verifyBand_only) | (with_reducible apply Only.foldl; (intro _ _)))

end Sys2Proof.Machine
end

