-- ==== Sys2Proof/Laws/Frames2.lean ====
section
/-!
SUPPORT. What each operation of the machine can touch, one lemma for each, callees before callers; part 2 of 6.
-/
set_option linter.tactic.unusedName false
set_option linter.unusedSimpArgs false
namespace Sys2Proof.Machine

theorem State.noteLevels_only (env : StartEnv) (s : State) :
    Only [.power] s (State.noteLevels env s) := by
  unfold State.noteLevels
  repeat' (first
    | with_reducible exact Only.refl _ _ | with_reducible assumption
    | ((with_reducible show areasIn _ _ = true); exact rfl)
    | (apply Only.into; with_reducible apply State.modPower_only) | split)

theorem State.serve_only (r : StartRun) (s : State) :
    Only [.mode, .clock, .log, .admin, .net, .ses, .store, .power, .reg, .start, .outputs, .media, .journal, .watch, .fw, .startCount] s (State.serve r s) := by
  unfold State.serve
  repeat' (first
    | with_reducible exact Only.refl _ _ | with_reducible assumption
    | ((with_reducible show areasIn _ _ = true); exact rfl) | (extract_lets +onlyGivenNames _x; first
      | (rename State => _y; refine Only.bring _y ?_ ?_; rotate_left; clear_value _y; intro _; rotate_right; subst _y)
      | (rename _ × State => _y; refine Only.bringSnd _y ?_ ?_; rotate_left; clear_value _y; intro _; rotate_right; subst _y)
      | skip)
    | with_reducible apply Only.when | (apply Only.into; first
      | with_reducible apply State.enterLevel_only
      | with_reducible apply State.waitUntil_only
      | with_reducible apply State.openService_only
      | with_reducible apply State.logStart_only
      | with_reducible apply State.resumeVerify_only
      | with_reducible apply State.probeBands_only
      | with_reducible apply State.takeFallback_only
      | with_reducible apply State.braceIfWarned_only
      | with_reducible apply State.noteLevels_only
      | with_reducible apply State.kickAll_only))

theorem State.nextStep_only (r : StartRun) (s : State) :
    Only [.start, .outputs] s (State.nextStep r s) := by
  unfold State.nextStep
  repeat' (first
    | with_reducible exact Only.refl _ _ | ((with_reducible show areasIn _ _ = true); exact rfl)
    | (apply Only.into; with_reducible apply State.modStart_only))

theorem State.setTime_only (ns : Nat) (s : State) :
    Only [.time] s (State.setTime ns s) := by
  unfold State.setTime
  repeat' (first
    | with_reducible exact Only.refl _ _ | ((with_reducible show areasIn _ _ = true); exact rfl)
    | (apply Only.into; with_reducible apply State.modTime_only))

theorem State.setStartTime_only (s : State) :
    Only [.time] s (State.setStartTime s) := by
  unfold State.setStartTime
  repeat' (first
    | with_reducible exact Only.refl _ _ | with_reducible assumption
    | ((with_reducible show areasIn _ _ = true); exact rfl) | with_reducible apply Only.ite | (apply Only.into; first
      | with_reducible apply State.modTime_only
      | with_reducible apply State.setTime_only))

theorem State.eventAt_only (t : Time) (m : Mode) (synced : Bool) (ev : EventCode) (a : Nat) (b : Nat) (c : Nat) (s : State) :
    Only [.log] s (State.eventAt t m synced ev a b c s) := by
  unfold State.eventAt
  repeat' (first
    | with_reducible exact Only.refl _ _ | ((with_reducible show areasIn _ _ = true); exact rfl)
    | (apply Only.into; with_reducible apply State.modLog_only))

theorem State.noteDusk_only (s : State) :
    Only [.log] s (State.noteDusk s) := by
  unfold State.noteDusk
  repeat' (first
    | with_reducible exact Only.refl _ _ | with_reducible assumption
    | ((with_reducible show areasIn _ _ = true); exact rfl)
    | (apply Only.into; with_reducible apply State.eventAt_only) | split)

theorem State.endVerify_only (band : Nat) (s : State) :
    Only [.media] s (State.endVerify band s) := by
  unfold State.endVerify
  repeat' (first
    | with_reducible exact Only.refl _ _ | with_reducible assumption
    | ((with_reducible show areasIn _ _ = true); exact rfl) | (extract_lets +onlyGivenNames _x; first
      | (rename State => _y; refine Only.bring _y ?_ ?_; rotate_left; clear_value _y; intro _; rotate_right; subst _y)
      | (rename _ × State => _y; refine Only.bringSnd _y ?_ ?_; rotate_left; clear_value _y; intro _; rotate_right; subst _y)
      | skip)
    | with_reducible apply Only.ite | (apply Only.into; first
      | with_reducible apply State.modMedia_only
      | with_reducible apply State.addOp_only)
    | split)

theorem State.closeOpen_only (s : State) (b : Band) :
    Only [.media] s (State.closeOpen s b) := by
  unfold State.closeOpen
  repeat' (first
    | with_reducible exact Only.refl _ _ | with_reducible assumption
    | ((with_reducible show areasIn _ _ = true); exact rfl) | (extract_lets +onlyGivenNames _x; first
      | (rename State => _y; refine Only.bring _y ?_ ?_; rotate_left; clear_value _y; intro _; rotate_right; subst _y)
      | (rename _ × State => _y; refine Only.bringSnd _y ?_ ?_; rotate_left; clear_value _y; intro _; rotate_right; subst _y)
      | skip)
    | with_reducible apply Only.ite | with_reducible apply Only.when | (apply Only.into; first
      | with_reducible apply State.modMedia_only
      | with_reducible apply State.addOp_only
      | with_reducible apply State.endVerify_only
      | with_reducible apply State.verifyBand_only))

theorem State.recover_only (env : StartEnv) (s : State) :
    Only [.clock, .log, .store, .media, .journal] s (State.recover env s) := by
  unfold State.recover
  repeat' (first
    | with_reducible exact Only.refl _ _ | with_reducible assumption
    | ((with_reducible show areasIn _ _ = true); exact rfl) | (extract_lets +onlyGivenNames _x; first
      | (rename State => _y; refine Only.bring _y ?_ ?_; rotate_left; clear_value _y; intro _; rotate_right; subst _y)
      | (rename _ × State => _y; refine Only.bringSnd _y ?_ ?_; rotate_left; clear_value _y; intro _; rotate_right; subst _y)
      | skip)
    | (apply Only.into; first
      | with_reducible apply State.closeOpen_only
      | with_reducible apply State.modMedia_only
      | with_reducible apply State.modJournal_only
      | with_reducible apply State.waitUntil_only
      | with_reducible apply State.event_only
      | with_reducible apply State.writeEntry_only)
    | (with_reducible apply Only.foldl; (intro _ _)) | split)

theorem State.stepJournal_only (r : StartRun) (s : State) :
    Only [.clock, .log, .admin, .time, .store, .start, .outputs, .media, .journal] s (State.stepJournal r s) := by
  unfold State.stepJournal
  repeat' (first
    | with_reducible exact Only.refl _ _ | with_reducible assumption
    | ((with_reducible show areasIn _ _ = true); exact rfl) | (extract_lets +onlyGivenNames _x; first
      | (rename State => _y; refine Only.bring _y ?_ ?_; rotate_left; clear_value _y; intro _; rotate_right; subst _y)
      | (rename _ × State => _y; refine Only.bringSnd _y ?_ ?_; rotate_left; clear_value _y; intro _; rotate_right; subst _y)
      | skip)
    | with_reducible apply Only.ite | (apply Only.into; first
      | with_reducible apply State.noteDusk_only
      | with_reducible apply State.modStart_only
      | with_reducible apply State.modAdmin_only
      | with_reducible apply State.setStartTime_only
      | with_reducible apply State.recover_only)
    | split)

theorem State.stepStraps_only (cold : Bool) (x : Straps) (s : State) :
    Only [.log, .start, .outputs] s (State.stepStraps cold x s) := by
  unfold State.stepStraps
  repeat' (first
    | with_reducible exact Only.refl _ _ | with_reducible assumption
    | ((with_reducible show areasIn _ _ = true); exact rfl) | with_reducible apply Only.ite | (apply Only.into; first
      | with_reducible apply State.modStart_only
      | with_reducible apply State.event_only)
    | (with_reducible apply Only.foldl; (intro _ _)))

theorem State.writeCommit_only (running : Package) (confirm : Confirm) (previous : Option Package) (failed : Option Nat) (s : State) :
    Only [.fw] s (State.writeCommit running confirm previous failed s) := by
  unfold State.writeCommit
  repeat' (first
    | with_reducible exact Only.refl _ _ | with_reducible assumption
    | ((with_reducible show areasIn _ _ = true); exact rfl) | (extract_lets +onlyGivenNames _x; first
      | (rename State => _y; refine Only.bring _y ?_ ?_; rotate_left; clear_value _y; intro _; rotate_right; subst _y)
      | (rename _ × State => _y; refine Only.bringSnd _y ?_ ?_; rotate_left; clear_value _y; intro _; rotate_right; subst _y)
      | skip)
    | (apply Only.into; with_reducible apply State.modFw_only))

theorem State.noteEscalation_only (s : State) :
    Only [.watch, .fw] s (State.noteEscalation s) := by
  unfold State.noteEscalation
  repeat' (first
    | with_reducible exact Only.refl _ _ | with_reducible assumption
    | ((with_reducible show areasIn _ _ = true); exact rfl) | (extract_lets +onlyGivenNames _x; first
      | (rename State => _y; refine Only.bring _y ?_ ?_; rotate_left; clear_value _y; intro _; rotate_right; subst _y)
      | (rename _ × State => _y; refine Only.bringSnd _y ?_ ?_; rotate_left; clear_value _y; intro _; rotate_right; subst _y)
      | skip)
    | with_reducible apply Only.ite | (apply Only.into; first
      | with_reducible apply State.modWatch_only
      | with_reducible apply State.modFw_only
      | with_reducible apply State.writeCommit_only))

theorem State.loseSessions_only (s : State) :
    Only [.log, .admin, .net, .ses, .fw] s (State.loseSessions s) := by
  unfold State.loseSessions
  repeat' (first
    | with_reducible exact Only.refl _ _ | with_reducible assumption
    | ((with_reducible show areasIn _ _ = true); exact rfl) | (extract_lets +onlyGivenNames _x; first
      | (rename State => _y; refine Only.bring _y ?_ ?_; rotate_left; clear_value _y; intro _; rotate_right; subst _y)
      | (rename _ × State => _y; refine Only.bringSnd _y ?_ ?_; rotate_left; clear_value _y; intro _; rotate_right; subst _y)
      | skip)
    | (apply Only.into; first
      | with_reducible apply State.removeSess_only
      | with_reducible apply State.release_only
      | with_reducible apply State.modAdmin_only
      | with_reducible apply State.modPort_only
      | with_reducible apply State.modSes_only)
    | (with_reducible apply Only.foldl; (intro _ _)) | split)

theorem State.modCfg_only (f : CfgState → CfgState) (s : State) :
    Only [.cfg] s (State.modCfg f s) := by
  unfold State.modCfg
  repeat' (first
    | with_reducible exact Only.refl _ _ | ((with_reducible show areasIn _ _ = true); exact rfl)
    | (simp only [Only.updated]; with_reducible refine Updated.of ?_ rfl ?_ ?_ ?_ ?_ ?_ ?_ ?_ ?_ ?_ ?_ ?_ ?_ ?_ ?_ ?_ ?_ ?_ ?_ ?_ ?_)
    | with_reducible exact .inr rfl | exact .inl rfl)

theorem State.escalate_only (s : State) :
    Only [.cfg, .log, .admin, .net, .ses, .watch, .fw] s (State.escalate s) := by
  unfold State.escalate
  repeat' (first
    | with_reducible exact Only.refl _ _ | ((with_reducible show areasIn _ _ = true); exact rfl)
    | (apply Only.into; first
      | with_reducible apply State.modCfg_only
      | with_reducible apply State.noteEscalation_only
      | with_reducible apply State.loseSessions_only))

theorem State.scrubFailed_only (r : StartRun) (offset : Nat) (s : State) :
    Only [.cfg, .log, .admin, .net, .ses, .start, .outputs, .watch, .fw] s (State.scrubFailed r offset s) := by
  unfold State.scrubFailed
  repeat' (first
    | with_reducible exact Only.refl _ _ | with_reducible assumption
    | ((with_reducible show areasIn _ _ = true); exact rfl) | (extract_lets +onlyGivenNames _x; first
      | (rename State => _y; refine Only.bring _y ?_ ?_; rotate_left; clear_value _y; intro _; rotate_right; subst _y)
      | (rename _ × State => _y; refine Only.bringSnd _y ?_ ?_; rotate_left; clear_value _y; intro _; rotate_right; subst _y)
      | skip)
    | (apply Only.into; first
      | with_reducible apply State.escalate_only
      | with_reducible apply State.event_only
      | with_reducible apply State.modNet_only
      | with_reducible apply State.modStart_only))

theorem State.readResetCount_only (r : StartRun) (s : State) :
    Only [.watch] s (State.readResetCount r s) := by
  unfold State.readResetCount
  repeat' (first
    | with_reducible exact Only.refl _ _ | with_reducible assumption
    | ((with_reducible show areasIn _ _ = true); exact rfl) | with_reducible apply Only.ite
    | (apply Only.into; with_reducible apply State.modWatch_only))

theorem State.stepServing_only (r : StartRun) (s : State) :
    Only [.watch] s (State.stepServing r s) := by
  unfold State.stepServing
  repeat' (first
    | with_reducible exact Only.refl _ _ | with_reducible assumption
    | ((with_reducible show areasIn _ _ = true); exact rfl) | (extract_lets +onlyGivenNames _x; first
      | (rename State => _y; refine Only.bring _y ?_ ?_; rotate_left; clear_value _y; intro _; rotate_right; subst _y)
      | (rename _ × State => _y; refine Only.bringSnd _y ?_ ?_; rotate_left; clear_value _y; intro _; rotate_right; subst _y)
      | skip)
    | with_reducible apply Only.ite | (apply Only.into; first
      | with_reducible apply State.readResetCount_only
      | with_reducible apply State.startWatch_only)
    | split)

theorem State.rescueWatch_only (s : State) :
    Only [.watch] s (State.rescueWatch s) := by
  unfold State.rescueWatch
  repeat' (first
    | with_reducible exact Only.refl _ _ | with_reducible assumption
    | ((with_reducible show areasIn _ _ = true); exact rfl) | with_reducible apply Only.ite
    | (apply Only.into; with_reducible apply State.startWatch_only))

theorem State.enterRescue_only (path : StartPath) (source : StartSource) (s : State) :
    Only [.mode, .cfg, .log, .net, .reg, .start, .outputs, .watch, .startCount] s (State.enterRescue path source s) := by
  unfold State.enterRescue
  repeat' (first
    | with_reducible exact Only.refl _ _ | with_reducible assumption
    | ((with_reducible show areasIn _ _ = true); exact rfl) | (extract_lets +onlyGivenNames _x; first
      | (rename State => _y; refine Only.bring _y ?_ ?_; rotate_left; clear_value _y; intro _; rotate_right; subst _y)
      | (rename _ × State => _y; refine Only.bringSnd _y ?_ ?_; rotate_left; clear_value _y; intro _; rotate_right; subst _y)
      | skip)
    | (apply Only.into; first
      | with_reducible apply State.rescueWatch_only
      | with_reducible apply State.deferEvent_only
      | with_reducible apply State.countStart_only
      | with_reducible apply State.setMode_only
      | with_reducible apply State.modNet_only
      | with_reducible apply State.modCfg_only
      | with_reducible apply State.beginSeries_only
      | with_reducible apply State.modStart_only
      | with_reducible apply State.startLoops_only))

theorem State.commitFallback_only (prev : Package) (s : State) :
    Only [.fw] s (State.commitFallback prev s) := by
  unfold State.commitFallback
  repeat' (first
    | with_reducible exact Only.refl _ _ | with_reducible assumption
    | ((with_reducible show areasIn _ _ = true); exact rfl) | (extract_lets +onlyGivenNames _x; first
      | (rename State => _y; refine Only.bring _y ?_ ?_; rotate_left; clear_value _y; intro _; rotate_right; subst _y)
      | (rename _ × State => _y; refine Only.bringSnd _y ?_ ?_; rotate_left; clear_value _y; intro _; rotate_right; subst _y)
      | skip)
    | (apply Only.into; first
      | with_reducible apply State.writeCommit_only
      | with_reducible apply State.modFw_only))

theorem State.markFailed_only (manifest : Nat) (parts : List Nat) (s : State) :
    Only [.fw] s (State.markFailed manifest parts s) := by
  unfold State.markFailed
  repeat' (first
    | with_reducible exact Only.refl _ _ | with_reducible assumption
    | ((with_reducible show areasIn _ _ = true); exact rfl) | with_reducible apply Only.ite
    | (apply Only.into; with_reducible apply State.modFw_only))

theorem State.stepSelect_only (r : StartRun) (s : State) :
    Only [.mode, .cfg, .log, .net, .reg, .start, .outputs, .watch, .fw, .startCount] s (State.stepSelect r s).1 := by
  unfold State.stepSelect
  repeat' (first
    | with_reducible exact Only.refl _ _ | with_reducible assumption
    | ((with_reducible show areasIn _ _ = true); exact rfl) | (extract_lets +onlyGivenNames _x; first
      | (rename State => _y; refine Only.bring _y ?_ ?_; rotate_left; clear_value _y; intro _; rotate_right; subst _y)
      | (rename _ × State => _y; refine Only.bringSnd _y ?_ ?_; rotate_left; clear_value _y; intro _; rotate_right; subst _y)
      | skip)
    | with_reducible apply Only.ite | (apply Only.into; first
      | with_reducible apply State.modFw_only
      | with_reducible apply State.markFailed_only
      | with_reducible apply State.deferEvent_only
      | with_reducible apply State.commitFallback_only
      | with_reducible apply State.enterRescue_only)
    | split)

theorem State.stepSelect_only_eq {r : StartRun} {s : State} {p : _} {t : State} (h : State.stepSelect r s = (t, p)) :
    Only [.mode, .cfg, .log, .net, .reg, .start, .outputs, .watch, .fw, .startCount] s t := by
  have k := State.stepSelect_only r s
  rw [h] at k
  exact k

theorem State.reloadPins_only (s : State) :
    Only [.store] s (State.reloadPins s) := by
  unfold State.reloadPins
  repeat' (first
    | with_reducible exact Only.refl _ _ | with_reducible assumption
    | ((with_reducible show areasIn _ _ = true); exact rfl) | with_reducible apply Only.ite
    | (apply Only.into; with_reducible apply State.modStore_only))

theorem State.putOpen_only (t : Nat) (k : Bytes) (v : Version) (s : State) :
    Only [.store] s (State.putOpen t k v s) := by
  unfold State.putOpen
  repeat' (first
    | with_reducible exact Only.refl _ _ | with_reducible assumption
    | ((with_reducible show areasIn _ _ = true); exact rfl) | with_reducible apply Only.ite
    | (apply Only.into; with_reducible apply State.modStore_only))

theorem State.reopen_only (s : State) :
    Only [.store] s (State.reopen s) := by
  unfold State.reopen
  repeat' (first
    | with_reducible exact Only.refl _ _ | with_reducible assumption
    | ((with_reducible show areasIn _ _ = true); exact rfl)
    | (apply Only.into; with_reducible apply State.putOpen_only) | (with_reducible apply Only.foldl; (intro _ _))
    | split)

theorem State.stepRebuild_only (s : State) :
    Only [.store] s (State.stepRebuild s) := by
  unfold State.stepRebuild
  repeat' (first
    | with_reducible exact Only.refl _ _ | ((with_reducible show areasIn _ _ = true); exact rfl)
    | (apply Only.into; first
      | with_reducible apply State.reloadPins_only
      | with_reducible apply State.reopen_only
      | with_reducible apply State.modStore_only))

theorem State.stepPhys_only (s : State) :
    Only [.net] s (State.stepPhys s) := by
  unfold State.stepPhys
  repeat' (first
    | with_reducible exact Only.refl _ _ | ((with_reducible show areasIn _ _ = true); exact rfl)
    | (apply Only.into; with_reducible apply State.modPort_only))

theorem State.loadFailed_only (r : StartRun) (s : State) :
    Only [.cfg, .log, .admin, .net, .ses, .start, .outputs, .watch, .fw] s (State.loadFailed r s) := by
  unfold State.loadFailed
  repeat' (first
    | with_reducible exact Only.refl _ _ | with_reducible assumption
    | ((with_reducible show areasIn _ _ = true); exact rfl) | (extract_lets +onlyGivenNames _x; first
      | (rename State => _y; refine Only.bring _y ?_ ?_; rotate_left; clear_value _y; intro _; rotate_right; subst _y)
      | (rename _ × State => _y; refine Only.bringSnd _y ?_ ?_; rotate_left; clear_value _y; intro _; rotate_right; subst _y)
      | skip)
    | (apply Only.into; first
      | with_reducible apply State.markFailed_only
      | with_reducible apply State.modStart_only
      | with_reducible apply State.event_only
      | with_reducible apply State.commitFallback_only
      | with_reducible apply State.escalate_only)
    | split)

theorem State.commitTrial_only (p : Package) (change : Nat) (s : State) :
    Only [.fw] s (State.commitTrial p change s) := by
  unfold State.commitTrial
  repeat' (first
    | with_reducible exact Only.refl _ _ | with_reducible assumption
    | ((with_reducible show areasIn _ _ = true); exact rfl) | (extract_lets +onlyGivenNames _x; first
      | (rename State => _y; refine Only.bring _y ?_ ?_; rotate_left; clear_value _y; intro _; rotate_right; subst _y)
      | (rename _ × State => _y; refine Only.bringSnd _y ?_ ?_; rotate_left; clear_value _y; intro _; rotate_right; subst _y)
      | skip)
    | (apply Only.into; first
      | with_reducible apply State.writeCommit_only
      | with_reducible apply State.modFw_only))

theorem State.stepCommit_only (s : State) :
    Only [.log, .fw] s (State.stepCommit s) := by
  unfold State.stepCommit
  repeat' (first
    | with_reducible exact Only.refl _ _ | with_reducible assumption
    | ((with_reducible show areasIn _ _ = true); exact rfl) | (apply Only.into; first
      | with_reducible apply State.event_only
      | with_reducible apply State.commitFallback_only
      | with_reducible apply State.commitTrial_only)
    | split)

theorem State.noteAdjusted_only (s : State) :
    Only [.log] s (State.noteAdjusted s) := by
  unfold State.noteAdjusted
  repeat' (first
    | with_reducible exact Only.refl _ _ | with_reducible assumption
    | ((with_reducible show areasIn _ _ = true); exact rfl) | (extract_lets +onlyGivenNames _x; first
      | (rename State => _y; refine Only.bring _y ?_ ?_; rotate_left; clear_value _y; intro _; rotate_right; subst _y)
      | (rename _ × State => _y; refine Only.bringSnd _y ?_ ?_; rotate_left; clear_value _y; intro _; rotate_right; subst _y)
      | skip)
    | with_reducible apply Only.ite | (apply Only.into; with_reducible apply State.event_only))

theorem State.setSlopes_only (q : Port) (s : State) :
    Only [.net] s (State.setSlopes q s) := by
  unfold State.setSlopes
  repeat' (first
    | with_reducible exact Only.refl _ _ | with_reducible assumption
    | ((with_reducible show areasIn _ _ = true); exact rfl) | (extract_lets +onlyGivenNames _x; first
      | (rename State => _y; refine Only.bring _y ?_ ?_; rotate_left; clear_value _y; intro _; rotate_right; subst _y)
      | (rename _ × State => _y; refine Only.bringSnd _y ?_ ?_; rotate_left; clear_value _y; intro _; rotate_right; subst _y)
      | skip)
    | with_reducible apply Only.ite | (apply Only.into; with_reducible apply State.modPort_only) | split)

theorem State.switchShapers_only (q : Port) (was : Nat) (s : State) :
    Only [.net] s (State.switchShapers q was s) := by
  unfold State.switchShapers
  repeat' (first
    | with_reducible exact Only.refl _ _ | with_reducible assumption
    | ((with_reducible show areasIn _ _ = true); exact rfl) | (extract_lets +onlyGivenNames _x; first
      | (rename State => _y; refine Only.bring _y ?_ ?_; rotate_left; clear_value _y; intro _; rotate_right; subst _y)
      | (rename _ × State => _y; refine Only.bringSnd _y ?_ ?_; rotate_left; clear_value _y; intro _; rotate_right; subst _y)
      | skip)
    | (apply Only.into; with_reducible apply State.modPort_only))

theorem State.shapersChanged_only (was : PerPort ShaperCfg) (s : State) :
    Only [.net] s (State.shapersChanged was s) := by
  unfold State.shapersChanged
  repeat' (first
    | with_reducible exact Only.refl _ _ | ((with_reducible show areasIn _ _ = true); exact rfl)
    | (apply Only.into; first
      | with_reducible apply State.switchShapers_only
      | with_reducible apply State.setSlopes_only))

theorem State.stepReformat_only (s : State) :
    Only [.cfg, .log, .admin, .net, .ses, .start, .outputs, .fw] s (State.stepReformat s) := by
  unfold State.stepReformat
  repeat' (first
    | with_reducible exact Only.refl _ _ | with_reducible assumption
    | ((with_reducible show areasIn _ _ = true); exact rfl) | (extract_lets +onlyGivenNames _x; first
      | (rename State => _y; refine Only.bring _y ?_ ?_; rotate_left; clear_value _y; intro _; rotate_right; subst _y)
      | (rename _ × State => _y; refine Only.bringSnd _y ?_ ?_; rotate_left; clear_value _y; intro _; rotate_right; subst _y)
      | skip)
    | with_reducible apply Only.ite | (apply Only.into; first
      | with_reducible apply State.modStart_only
      | with_reducible apply State.loseSessions_only
      | with_reducible apply State.modCfg_only
      | with_reducible apply State.noteAdjusted_only
      | with_reducible apply State.shapersChanged_only)
    | split)

theorem State.rereadImage_only (env : StartEnv) (s : State) :
    Only [.cfg, .log] s (State.rereadImage env s) := by
  unfold State.rereadImage
  repeat' (first
    | with_reducible exact Only.refl _ _ | with_reducible assumption
    | ((with_reducible show areasIn _ _ = true); exact rfl) | (extract_lets +onlyGivenNames _x; first
      | (rename State => _y; refine Only.bring _y ?_ ?_; rotate_left; clear_value _y; intro _; rotate_right; subst _y)
      | (rename _ × State => _y; refine Only.bringSnd _y ?_ ?_; rotate_left; clear_value _y; intro _; rotate_right; subst _y)
      | skip)
    | (apply Only.into; first
      | with_reducible apply State.event_only
      | with_reducible apply State.modCfg_only)
    | split)

theorem State.useImage_only (r : StartRun) (bad : List Nat) (s : State) :
    Only [.cfg, .net] s (State.useImage r bad s) := by
  unfold State.useImage
  repeat' (first
    | with_reducible exact Only.refl _ _ | with_reducible assumption
    | ((with_reducible show areasIn _ _ = true); exact rfl) | (extract_lets +onlyGivenNames _x; first
      | (rename State => _y; refine Only.bring _y ?_ ?_; rotate_left; clear_value _y; intro _; rotate_right; subst _y)
      | (rename _ × State => _y; refine Only.bringSnd _y ?_ ?_; rotate_left; clear_value _y; intro _; rotate_right; subst _y)
      | skip)
    | (apply Only.into; first
      | with_reducible apply State.shapersChanged_only
      | with_reducible apply State.modCfg_only)
    | split)

theorem State.stepConfigure_only (r : StartRun) (s : State) :
    Only [.cfg, .log, .net, .watch] s (State.stepConfigure r s) := by
  unfold State.stepConfigure
  repeat' (first
    | with_reducible exact Only.refl _ _ | with_reducible assumption
    | ((with_reducible show areasIn _ _ = true); exact rfl) | (extract_lets +onlyGivenNames _x; first
      | (rename State => _y; refine Only.bring _y ?_ ?_; rotate_left; clear_value _y; intro _; rotate_right; subst _y)
      | (rename _ × State => _y; refine Only.bringSnd _y ?_ ?_; rotate_left; clear_value _y; intro _; rotate_right; subst _y)
      | skip)
    | with_reducible apply Only.ite | (apply Only.into; first
      | with_reducible apply State.useImage_only
      | with_reducible apply State.startWatch_only
      | with_reducible apply State.rereadImage_only)
    | split)

theorem State.setSynced_only (b : Bool) (s : State) :
    Only [.log, .time] s (State.setSynced b s) := by
  unfold State.setSynced
  repeat' (first
    | with_reducible exact Only.refl _ _ | with_reducible assumption
    | ((with_reducible show areasIn _ _ = true); exact rfl) | with_reducible apply Only.ite | (apply Only.into; first
      | with_reducible apply State.event_only
      | with_reducible apply State.modTime_only))

theorem State.selectMaster_only (s : State) :
    Only [.log, .time] s (State.selectMaster s) := by
  unfold State.selectMaster
  repeat' (first
    | with_reducible exact Only.refl _ _ | with_reducible assumption
    | ((with_reducible show areasIn _ _ = true); exact rfl) | (extract_lets +onlyGivenNames _x; first
      | (rename State => _y; refine Only.bring _y ?_ ?_; rotate_left; clear_value _y; intro _; rotate_right; subst _y)
      | (rename _ × State => _y; refine Only.bringSnd _y ?_ ?_; rotate_left; clear_value _y; intro _; rotate_right; subst _y)
      | skip)
    | with_reducible apply Only.ite | (apply Only.into; first
      | with_reducible apply State.modTime_only
      | with_reducible apply State.setSynced_only)
    | split)

theorem State.bumps_only (q : Port) (k : PortCounter) (n : Nat) (s : State) :
    Only [.net] s (State.bumps q k n s) := by
  unfold State.bumps
  repeat' (first
    | with_reducible exact Only.refl _ _ | with_reducible assumption
    | ((with_reducible show areasIn _ _ = true); exact rfl) | (extract_lets +onlyGivenNames _x; first
      | (rename State => _y; refine Only.bring _y ?_ ?_; rotate_left; clear_value _y; intro _; rotate_right; subst _y)
      | (rename _ × State => _y; refine Only.bringSnd _y ?_ ?_; rotate_left; clear_value _y; intro _; rotate_right; subst _y)
      | skip)
    | (apply Only.into; with_reducible apply State.modNet_only))

theorem State.bump_only (q : Port) (k : PortCounter) (s : State) :
    Only [.net] s (State.bump q k s) := by
  unfold State.bump
  repeat' (first
    | with_reducible exact Only.refl _ _ | ((with_reducible show areasIn _ _ = true); exact rfl)
    | (apply Only.into; with_reducible apply State.modNet_only))

theorem State.endFlight_only (id : Nat) (msgId : Nat) (s : State) :
    Only [.ses] s (State.endFlight id msgId s) := by
  unfold State.endFlight
  repeat' (first
    | with_reducible exact Only.refl _ _ | with_reducible assumption
    | ((with_reducible show areasIn _ _ = true); exact rfl) | (extract_lets +onlyGivenNames _x; first
      | (rename State => _y; refine Only.bring _y ?_ ?_; rotate_left; clear_value _y; intro _; rotate_right; subst _y)
      | (rename _ × State => _y; refine Only.bringSnd _y ?_ ?_; rotate_left; clear_value _y; intro _; rotate_right; subst _y)
      | skip)
    | with_reducible apply Only.ite | (apply Only.into; with_reducible apply State.modSess_only) | split)

theorem State.messageOver_only (m : LyMsg) (s : State) :
    Only [.log, .admin, .ses, .fw] s (State.messageOver m s) := by
  unfold State.messageOver
  repeat' (first
    | with_reducible exact Only.refl _ _ | with_reducible assumption
    | ((with_reducible show areasIn _ _ = true); exact rfl) | with_reducible apply Only.ite | (apply Only.into; first
      | with_reducible apply State.removeSess_only
      | with_reducible apply State.endFlight_only)
    | split)

theorem State.cacheAnswer_only (m : LyMsg) (s : State) :
    Only [.ses] s (State.cacheAnswer m s) := by
  unfold State.cacheAnswer
  repeat' (first
    | with_reducible exact Only.refl _ _ | with_reducible assumption
    | ((with_reducible show areasIn _ _ = true); exact rfl) | (extract_lets +onlyGivenNames _x; first
      | (rename State => _y; refine Only.bring _y ?_ ?_; rotate_left; clear_value _y; intro _; rotate_right; subst _y)
      | (rename _ × State => _y; refine Only.bringSnd _y ?_ ?_; rotate_left; clear_value _y; intro _; rotate_right; subst _y)
      | skip)
    | with_reducible apply Only.ite | (apply Only.into; with_reducible apply State.modSess_only))

theorem State.lost_only (q : Port) (e : EpEntry) (s : State) :
    Only [.log, .admin, .net, .ses, .fw] s (State.lost q e s) := by
  unfold State.lost
  repeat' (first
    | with_reducible exact Only.refl _ _ | with_reducible assumption
    | ((with_reducible show areasIn _ _ = true); exact rfl) | with_reducible apply Only.ite | (apply Only.into; first
      | with_reducible apply State.messageOver_only
      | with_reducible apply State.cacheAnswer_only
      | with_reducible apply State.bump_only)
    | split)

theorem State.linkDown_only (q : Port) (s : State) :
    Only [.log, .admin, .net, .time, .ses, .fw] s (State.linkDown q s) := by
  unfold State.linkDown
  repeat' (first
    | with_reducible exact Only.refl _ _ | with_reducible assumption
    | ((with_reducible show areasIn _ _ = true); exact rfl) | (extract_lets +onlyGivenNames _x; first
      | (rename State => _y; refine Only.bring _y ?_ ?_; rotate_left; clear_value _y; intro _; rotate_right; subst _y)
      | (rename _ × State => _y; refine Only.bringSnd _y ?_ ?_; rotate_left; clear_value _y; intro _; rotate_right; subst _y)
      | skip)
    | with_reducible apply Only.ite | (apply Only.into; first
      | with_reducible apply State.bumps_only
      | with_reducible apply State.bump_only
      | with_reducible apply State.modPort_only
      | with_reducible apply State.modNet_only
      | with_reducible apply State.modTime_only
      | with_reducible apply State.lost_only
      | with_reducible apply State.selectMaster_only
      | with_reducible apply State.settleCloses_only
      | with_reducible apply State.modSes_only)
    | (with_reducible apply Only.foldl; (intro _ _)))

theorem State.judgeSpeed_only (q : Port) (s : State) :
    Only [.log, .admin, .net, .time, .ses, .fw] s (State.judgeSpeed q s) := by
  unfold State.judgeSpeed
  repeat' (first
    | with_reducible exact Only.refl _ _ | with_reducible assumption
    | ((with_reducible show areasIn _ _ = true); exact rfl) | (extract_lets +onlyGivenNames _x; first
      | (rename State => _y; refine Only.bring _y ?_ ?_; rotate_left; clear_value _y; intro _; rotate_right; subst _y)
      | (rename _ × State => _y; refine Only.bringSnd _y ?_ ?_; rotate_left; clear_value _y; intro _; rotate_right; subst _y)
      | skip)
    | with_reducible apply Only.ite | with_reducible apply Only.when | (apply Only.into; first
      | with_reducible apply State.event_only
      | with_reducible apply State.linkDown_only))

theorem State.stepBridge_only (s : State) :
    Only [.cfg, .log, .admin, .net, .time, .ses, .fw] s (State.stepBridge s) := by
  unfold State.stepBridge
  repeat' (first
    | with_reducible exact Only.refl _ _ | with_reducible assumption
    | ((with_reducible show areasIn _ _ = true); exact rfl) | (extract_lets +onlyGivenNames _x; first
      | (rename State => _y; refine Only.bring _y ?_ ?_; rotate_left; clear_value _y; intro _; rotate_right; subst _y)
      | (rename _ × State => _y; refine Only.bringSnd _y ?_ ?_; rotate_left; clear_value _y; intro _; rotate_right; subst _y)
      | skip)
    | with_reducible apply Only.ite | (apply Only.into; first
      | with_reducible apply State.modCfg_only
      | with_reducible apply State.modTime_only
      | with_reducible apply State.modNet_only
      | with_reducible apply State.judgeSpeed_only
      | with_reducible apply State.setSlopes_only
      | with_reducible apply State.modPort_only
      | with_reducible apply State.selectMaster_only))

theorem State.stepFuses_only (env : StartEnv) (s : State) :
    Only [.mode, .draws, .log, .admin, .net, .ses, .store, .power, .reg, .start, .outputs, .media, .journal, .watch, .sec, .fw] s (State.stepFuses env s) := by
  unfold State.stepFuses
  repeat' (first
    | with_reducible exact Only.refl _ _ | with_reducible assumption
    | ((with_reducible show areasIn _ _ = true); exact rfl) | (extract_lets +onlyGivenNames _x; first
      | (rename State => _y; refine Only.bring _y ?_ ?_; rotate_left; clear_value _y; intro _; rotate_right; subst _y)
      | (rename _ × State => _y; refine Only.bringSnd _y ?_ ?_; rotate_left; clear_value _y; intro _; rotate_right; subst _y)
      | skip)
    | with_reducible apply Only.ite | (apply Only.into; first
      | with_reducible apply State.modSec_only
      | with_reducible apply State.alarm_only
      | with_reducible apply State.startWatch_only))

theorem State.auxUp_only (env : StartEnv) (s : State) :
    Only [.start, .outputs] s (State.auxUp env s) := by
  unfold State.auxUp
  repeat' (first
    | with_reducible exact Only.refl _ _ | with_reducible assumption
    | ((with_reducible show areasIn _ _ = true); exact rfl) | with_reducible apply Only.ite
    | (apply Only.into; with_reducible apply State.modStart_only))

theorem State.stepRails_only (env : StartEnv) (s : State) :
    Only [.time, .power, .start, .outputs] s (State.stepRails env s) := by
  unfold State.stepRails
  repeat' (first
    | with_reducible exact Only.refl _ _ | with_reducible assumption
    | ((with_reducible show areasIn _ _ = true); exact rfl) | (extract_lets +onlyGivenNames _x; first
      | (rename State => _y; refine Only.bring _y ?_ ?_; rotate_left; clear_value _y; intro _; rotate_right; subst _y)
      | (rename _ × State => _y; refine Only.bringSnd _y ?_ ?_; rotate_left; clear_value _y; intro _; rotate_right; subst _y)
      | skip)
    | with_reducible apply Only.ite | (apply Only.into; first
      | with_reducible apply State.auxUp_only
      | with_reducible apply State.modPower_only
      | with_reducible apply State.modTime_only))

theorem State.noteCredentials_only (s : State) :
    Only [.log] s (State.noteCredentials s) := by
  unfold State.noteCredentials
  repeat' (first
    | with_reducible exact Only.refl _ _ | with_reducible assumption
    | ((with_reducible show areasIn _ _ = true); exact rfl) | with_reducible apply Only.ite
    | (apply Only.into; with_reducible apply State.event_only) | (with_reducible apply Only.foldl; (intro _ _))
    | split)

theorem State.applySecurity_only (x : SecCheck) (s : State) :
    Only [.log, .sec] s (State.applySecurity x s) := by
  unfold State.applySecurity
  repeat' (first
    | with_reducible exact Only.refl _ _ | with_reducible assumption
    | ((with_reducible show areasIn _ _ = true); exact rfl) | (extract_lets +onlyGivenNames _x; first
      | (rename State => _y; refine Only.bring _y ?_ ?_; rotate_left; clear_value _y; intro _; rotate_right; subst _y)
      | (rename _ × State => _y; refine Only.bringSnd _y ?_ ?_; rotate_left; clear_value _y; intro _; rotate_right; subst _y)
      | skip)
    | with_reducible apply Only.ite | (apply Only.into; first
      | with_reducible apply State.modSec_only
      | with_reducible apply State.noteCredentials_only))

theorem State.rekey_only (s : State) :
    Only [.draws, .log, .admin, .store, .media, .journal, .sec] s (State.rekey s) := by
  unfold State.rekey
  repeat' (first
    | with_reducible exact Only.refl _ _ | with_reducible assumption
    | ((with_reducible show areasIn _ _ = true); exact rfl) | with_reducible apply Only.ite | (apply Only.into; first
      | with_reducible apply State.writeEntry_only
      | with_reducible apply State.newKeys_only
      | with_reducible apply State.emptyStore_only))

theorem State.stepKeys_only (r : StartRun) (s : State) :
    Only [.draws, .cfg, .log, .admin, .net, .store, .media, .journal, .sec] s (State.stepKeys r s) := by
  unfold State.stepKeys
  repeat' (first
    | with_reducible exact Only.refl _ _ | with_reducible assumption
    | ((with_reducible show areasIn _ _ = true); exact rfl) | (extract_lets +onlyGivenNames _x; first
      | (rename State => _y; refine Only.bring _y ?_ ?_; rotate_left; clear_value _y; intro _; rotate_right; subst _y)
      | (rename _ × State => _y; refine Only.bringSnd _y ?_ ?_; rotate_left; clear_value _y; intro _; rotate_right; subst _y)
      | skip)
    | with_reducible apply Only.ite | (apply Only.into; first
      | with_reducible apply State.rekey_only
      | with_reducible apply State.useImage_only
      | with_reducible apply State.noteAdjusted_only
      | with_reducible apply State.applySecurity_only))

theorem State.stepRegulators_only (env : StartEnv) (s : State) :
    Only [.power, .reg] s (State.stepRegulators env s) := by
  unfold State.stepRegulators
  repeat' (first
    | with_reducible exact Only.refl _ _ | with_reducible assumption
    | ((with_reducible show areasIn _ _ = true); exact rfl) | (extract_lets +onlyGivenNames _x; first
      | (rename State => _y; refine Only.bring _y ?_ ?_; rotate_left; clear_value _y; intro _; rotate_right; subst _y)
      | (rename _ × State => _y; refine Only.bringSnd _y ?_ ?_; rotate_left; clear_value _y; intro _; rotate_right; subst _y)
      | skip)
    | with_reducible apply Only.ite | (apply Only.into; first
      | with_reducible apply State.modPower_only
      | with_reducible apply State.modReg_only))

theorem State.takeBus_only (r : StartRun) (s : State) :
    Only [.clock, .start, .outputs] s (State.takeBus r s) := by
  unfold State.takeBus
  repeat' (first
    | with_reducible exact Only.refl _ _ | with_reducible assumption
    | ((with_reducible show areasIn _ _ = true); exact rfl) | (extract_lets +onlyGivenNames _x; first
      | (rename State => _y; refine Only.bring _y ?_ ?_; rotate_left; clear_value _y; intro _; rotate_right; subst _y)
      | (rename _ × State => _y; refine Only.bringSnd _y ?_ ?_; rotate_left; clear_value _y; intro _; rotate_right; subst _y)
      | skip)
    | with_reducible apply Only.ite | (apply Only.into; first
      | with_reducible apply State.modStart_only
      | with_reducible apply State.waitUntil_only))

theorem State.startStep_only (r : StartRun) (s : State) :
    Only [.mode, .clock, .draws, .cfg, .log, .admin, .net, .time, .ses, .store, .power, .reg, .start, .outputs, .media, .journal, .watch, .sec, .fw, .startCount] s (State.startStep r s) := by
  unfold State.startStep State.stepActivate
  repeat' (first
    | with_reducible exact Only.refl _ _ | with_reducible assumption
    | ((with_reducible show areasIn _ _ = true); exact rfl) | (extract_lets +onlyGivenNames _x; first
      | (rename State => _y; refine Only.bring _y ?_ ?_; rotate_left; clear_value _y; intro _; rotate_right; subst _y)
      | (rename _ × State => _y; refine Only.bringSnd _y ?_ ?_; rotate_left; clear_value _y; intro _; rotate_right; subst _y)
      | skip)
    | with_reducible apply Only.ite | (apply Only.into; first
      | with_reducible apply State.nextStep_only
      | with_reducible apply State.stepCommit_only
      | with_reducible apply State.startWatch_only
      | with_reducible apply State.loadFailed_only
      | with_reducible apply State.stepReformat_only
      | with_reducible apply State.stepRebuild_only
      | with_reducible apply State.modFw_only
      | with_reducible apply State.serve_only
      | with_reducible apply State.event_only
      | with_reducible apply State.stepRails_only
      | with_reducible apply State.stepStraps_only
      | with_reducible apply State.stepPhys_only
      | with_reducible apply State.stepFuses_only
      | with_reducible apply State.stepRegulators_only
      | with_reducible apply State.stepSelect_only
      | (with_reducible apply State.stepSelect_only_eq; assumption)
      | with_reducible apply State.modStart_only
      | with_reducible apply State.escalate_only
      | with_reducible apply State.scrubFailed_only
      | with_reducible apply State.stepServing_only
      | with_reducible apply State.stepConfigure_only
      | with_reducible apply State.takeBus_only
      | with_reducible apply State.stepKeys_only
      | with_reducible apply State.stepJournal_only
      | with_reducible apply State.stepBridge_only)
    | split)

theorem State.runSteps_only (x0 : Nat) (x1 : State) :
    Only [.mode, .clock, .draws, .cfg, .log, .admin, .net, .time, .ses, .store, .power, .reg, .start, .outputs, .media, .journal, .watch, .sec, .fw, .startCount] x1 (State.runSteps x0 x1) := by
  induction x0 generalizing x1 with
  | zero => exact Only.refl _ _
  | succ n ih =>
    unfold State.runSteps
    split
    · exact Only.refl _ _
    · extract_lets _w
      exact Only.ite (Only.refl _ _) ((Only.into (State.startStep_only _ _) rfl (Only.refl _ _)).trans (ih _))

theorem State.runStart_only (s : State) :
    Only [.mode, .clock, .draws, .cfg, .log, .admin, .net, .time, .ses, .store, .power, .reg, .start, .outputs, .media, .journal, .watch, .sec, .fw, .startCount] s (State.runStart s) := by
  unfold State.runStart
  repeat' (first
    | with_reducible exact Only.refl _ _ | ((with_reducible show areasIn _ _ = true); exact rfl)
    | (apply Only.into; with_reducible apply State.runSteps_only))

theorem State.stopWatch_only (s : State) :
    Only [.watch] s (State.stopWatch s) := by
  unfold State.stopWatch
  repeat' (first
    | with_reducible exact Only.refl _ _ | ((with_reducible show areasIn _ _ = true); exact rfl)
    | (apply Only.into; with_reducible apply State.modWatch_only))

theorem State.haltWatch_only (s : State) :
    Only [.watch] s (State.haltWatch s) := by
  unfold State.haltWatch
  repeat' (first
    | with_reducible exact Only.refl _ _ | with_reducible assumption
    | ((with_reducible show areasIn _ _ = true); exact rfl) | with_reducible apply Only.ite
    | (apply Only.into; with_reducible apply State.stopWatch_only))

theorem State.rescueActivates_only (env : StartEnv) (s : State) :
    Only [.mode, .clock, .draws, .cfg, .log, .admin, .net, .time, .ses, .store, .power, .reg, .start, .outputs, .media, .journal, .watch, .sec, .fw, .startCount] s (State.rescueActivates env s) := by
  unfold State.rescueActivates
  repeat' (first
    | with_reducible exact Only.refl _ _ | with_reducible assumption
    | ((with_reducible show areasIn _ _ = true); exact rfl) | (extract_lets +onlyGivenNames _x; first
      | (rename State => _y; refine Only.bring _y ?_ ?_; rotate_left; clear_value _y; intro _; rotate_right; subst _y)
      | (rename _ × State => _y; refine Only.bringSnd _y ?_ ?_; rotate_left; clear_value _y; intro _; rotate_right; subst _y)
      | skip)
    | (apply Only.into; first
      | with_reducible apply State.modFw_only
      | with_reducible apply State.writeCommit_only
      | with_reducible apply State.modNet_only
      | with_reducible apply State.loseSessions_only
      | with_reducible apply State.modStart_only
      | with_reducible apply State.haltWatch_only
      | with_reducible apply State.abortJobs_only
      | with_reducible apply State.runStart_only
      | with_reducible apply State.beginRun_only
      | with_reducible apply State.setMode_only)
    | split)

theorem State.mapChanged_only (s : State) :
    Only [.journal] s (State.mapChanged s) := by
  unfold State.mapChanged
  repeat' (first
    | with_reducible exact Only.refl _ _ | with_reducible assumption
    | ((with_reducible show areasIn _ _ = true); exact rfl) | with_reducible apply Only.ite
    | (apply Only.into; with_reducible apply State.modJournal_only))

theorem State.openBandFor_only (reloc : Bool) (s : State) :
    Only [.media, .journal] s (State.openBandFor reloc s) := by
  unfold State.openBandFor
  repeat' (first
    | with_reducible exact Only.refl _ _ | with_reducible assumption
    | ((with_reducible show areasIn _ _ = true); exact rfl) | (extract_lets +onlyGivenNames _x; first
      | (rename State => _y; refine Only.bring _y ?_ ?_; rotate_left; clear_value _y; intro _; rotate_right; subst _y)
      | (rename _ × State => _y; refine Only.bringSnd _y ?_ ?_; rotate_left; clear_value _y; intro _; rotate_right; subst _y)
      | skip)
    | with_reducible apply Only.ite | (apply Only.into; first
      | with_reducible apply State.modMedia_only
      | with_reducible apply State.mapChanged_only
      | with_reducible apply State.modJournal_only)
    | (with_reducible apply Only.foldl; (intro _ _)) | split)

theorem State.programPage_only (addr : Nat) (kind : PageKind) (reloc : Bool) (band : Nat) (x : PageLoad) (s : State) :
    Only [.media, .journal] s (State.programPage addr kind reloc band x s) := by
  unfold State.programPage
  repeat' (first
    | with_reducible exact Only.refl _ _ | with_reducible assumption
    | ((with_reducible show areasIn _ _ = true); exact rfl) | (extract_lets +onlyGivenNames _x; first
      | (rename State => _y; refine Only.bring _y ?_ ?_; rotate_left; clear_value _y; intro _; rotate_right; subst _y)
      | (rename _ × State => _y; refine Only.bringSnd _y ?_ ?_; rotate_left; clear_value _y; intro _; rotate_right; subst _y)
      | skip)
    | with_reducible apply Only.ite | (apply Only.into; first
      | with_reducible apply State.nextSeq_only
      | with_reducible apply State.modJournal_only
      | with_reducible apply State.modMedia_only))

theorem State.endRow_only (id : Nat) (s : State) :
    Only [.media, .journal] s (State.endRow id s) := by
  unfold State.endRow
  repeat' (first
    | with_reducible exact Only.refl _ _ | with_reducible assumption
    | ((with_reducible show areasIn _ _ = true); exact rfl) | (extract_lets +onlyGivenNames _x; first
      | (rename State => _y; refine Only.bring _y ?_ ?_; rotate_left; clear_value _y; intro _; rotate_right; subst _y)
      | (rename _ × State => _y; refine Only.bringSnd _y ?_ ?_; rotate_left; clear_value _y; intro _; rotate_right; subst _y)
      | skip)
    | with_reducible apply Only.ite | with_reducible apply Only.when | (apply Only.into; first
      | with_reducible apply State.programPage_only
      | with_reducible apply State.modMedia_only
      | with_reducible apply State.verifyBand_only)
    | split)

theorem State.programData_only (reloc : Bool) (x : ExtentImage) (x2 : Nat) (x3 : Nat) (x4 : State) :
    Only [.media, .journal] x4 (State.programData reloc x x2 x3 x4).1 := by
  induction x3 generalizing x2 x4 with
  | zero => exact Only.refl _ _
  | succ n ih =>
    unfold State.programData
    dsimp only
    split
    · split
      · exact Only.into (State.openBandFor_only _ _) rfl (Only.refl _ _)
      · exact Only.refl _ _
    · dsimp only
      refine Only.trans ?_ (ih _ _)
      refine Only.ite (Only.into (State.endRow_only _ _) rfl ?_) ?_ <;>
        refine Only.into (State.modMedia_only _ _) rfl (Only.into (State.programPage_only _ _ _ _ _ _) rfl ?_) <;>
        exact Only.ite (Only.into (State.openBandFor_only _ _) rfl (Only.refl _ _)) (Only.refl _ _)

theorem State.programData_only_eq {reloc : Bool} {x : ExtentImage} {x2 : Nat} {x3 : Nat} {x4 : State} {p : _} {t : State} (h : State.programData reloc x x2 x3 x4 = (t, p)) :
    Only [.media, .journal] x4 t := by
  have k := State.programData_only reloc x x2 x3 x4
  rw [h] at k
  exact k

theorem State.place_only (x : Extent) (pages : List Nat) (s : State) :
    Only [.media] s (State.place x pages s) := by
  unfold State.place
  repeat' (first
    | with_reducible exact Only.refl _ _ | with_reducible assumption
    | ((with_reducible show areasIn _ _ = true); exact rfl) | (extract_lets +onlyGivenNames _x; first
      | (rename State => _y; refine Only.bring _y ?_ ?_; rotate_left; clear_value _y; intro _; rotate_right; subst _y)
      | (rename _ × State => _y; refine Only.bringSnd _y ?_ ?_; rotate_left; clear_value _y; intro _; rotate_right; subst _y)
      | skip)
    | (apply Only.into; with_reducible apply State.modMedia_only) | split)

theorem State.shareLast_only (x : ExtentImage) (s : State) :
    Only [.media] s (State.shareLast x s) := by
  unfold State.shareLast
  repeat' (first
    | with_reducible exact Only.refl _ _ | with_reducible assumption
    | ((with_reducible show areasIn _ _ = true); exact rfl) | with_reducible apply Only.ite
    | (apply Only.into; with_reducible apply State.modMedia_only))

theorem State.programExtent_only (x : Extent) (pages : Nat) (s : State) :
    Only [.media, .journal] s (State.programExtent x pages s).1 := by
  unfold State.programExtent
  repeat' (first
    | with_reducible exact Only.refl _ _ | with_reducible assumption
    | ((with_reducible show areasIn _ _ = true); exact rfl) | (extract_lets +onlyGivenNames _x; first
      | (rename State => _y; refine Only.bring _y ?_ ?_; rotate_left; clear_value _y; intro _; rotate_right; subst _y)
      | (rename _ × State => _y; refine Only.bringSnd _y ?_ ?_; rotate_left; clear_value _y; intro _; rotate_right; subst _y)
      | skip)
    | with_reducible apply Only.ite | (apply Only.into; first
      | with_reducible apply State.shareLast_only
      | with_reducible apply State.programData_only
      | (with_reducible apply State.programData_only_eq; assumption)
      | with_reducible apply State.modMedia_only)
    | split)

theorem State.programExtent_only_eq {x : Extent} {pages : Nat} {s : State} {p : _} {t : State} (h : State.programExtent x pages s = (t, p)) :
    Only [.media, .journal] s t := by
  have k := State.programExtent_only x pages s
  rw [h] at k
  exact k

theorem State.drainOne_only (s : State) (x : Extent) :
    Only [.log, .store, .media, .journal] s (State.drainOne s x) := by
  unfold State.drainOne
  repeat' (first
    | with_reducible exact Only.refl _ _ | with_reducible assumption
    | ((with_reducible show areasIn _ _ = true); exact rfl) | (extract_lets +onlyGivenNames _x; first
      | (rename State => _y; refine Only.bring _y ?_ ?_; rotate_left; clear_value _y; intro _; rotate_right; subst _y)
      | (rename _ × State => _y; refine Only.bringSnd _y ?_ ?_; rotate_left; clear_value _y; intro _; rotate_right; subst _y)
      | skip)
    | with_reducible apply Only.ite | (apply Only.into; first
      | with_reducible apply State.writeEntry_only
      | with_reducible apply State.programExtent_only
      | (with_reducible apply State.programExtent_only_eq; assumption)
      | with_reducible apply State.place_only)
    | split)

theorem State.endOps_only (p : Purpose → Bool) (s : State) :
    Only [.media] s (State.endOps p s) := by
  unfold State.endOps
  repeat' (first
    | with_reducible exact Only.refl _ _ | ((with_reducible show areasIn _ _ = true); exact rfl)
    | (apply Only.into; first
      | with_reducible apply State.modMedia_only
      | with_reducible apply State.dropOps_only))

theorem State.drainNow_only (s : State) :
    Only [.log, .store, .media, .journal] s (State.drainNow s) := by
  unfold State.drainNow
  repeat' (first
    | with_reducible exact Only.refl _ _ | with_reducible assumption
    | ((with_reducible show areasIn _ _ = true); exact rfl) | with_reducible apply Only.ite | (apply Only.into; first
      | with_reducible apply State.endOps_only
      | with_reducible apply State.modStore_only
      | with_reducible apply State.drainOne_only)
    | (with_reducible apply Only.foldl; (intro _ _)) | split)

theorem State.logEpisode_only (s : State) :
    Only [.log] s (State.logEpisode s) := by
  unfold State.logEpisode
  repeat' (first
    | with_reducible exact Only.refl _ _ | with_reducible assumption
    | ((with_reducible show areasIn _ _ = true); exact rfl) | (apply Only.into; with_reducible apply State.event_only)
    | split)

theorem State.dropBrace_only (s : State) :
    Only [.log, .power, .reg] s (State.dropBrace s) := by
  unfold State.dropBrace
  repeat' (first
    | with_reducible exact Only.refl _ _ | with_reducible assumption
    | ((with_reducible show areasIn _ _ = true); exact rfl) | (apply Only.into; first
      | with_reducible apply State.resumeCharge_only
      | with_reducible apply State.modPower_only
      | with_reducible apply State.logEpisode_only)
    | split)

theorem State.keepCompletions_only (q : Port) (s : State) :
    Only [.net, .ses] s (State.keepCompletions q s) := by
  unfold State.keepCompletions
  repeat' (first
    | with_reducible exact Only.refl _ _ | with_reducible assumption
    | ((with_reducible show areasIn _ _ = true); exact rfl) | (extract_lets +onlyGivenNames _x; first
      | (rename State => _y; refine Only.bring _y ?_ ?_; rotate_left; clear_value _y; intro _; rotate_right; subst _y)
      | (rename _ × State => _y; refine Only.bringSnd _y ?_ ?_; rotate_left; clear_value _y; intro _; rotate_right; subst _y)
      | skip)
    | (apply Only.into; first
      | with_reducible apply State.modPort_only
      | with_reducible apply State.modSes_only))

theorem State.settle_only (s : State) :
    Only [.outputs] s (State.settle s) := by
  unfold State.settle State.modStart
  refine ⟨fun a ha => ?_⟩
  cases a <;> first | exact absurd ha (by decide) | rfl

theorem State.quiesce_only (s : State) :
    Only [.mode, .log, .net, .ses, .store, .power, .reg, .start, .outputs, .media, .journal, .watch, .fw] s (State.quiesce s) := by
  unfold State.quiesce
  repeat' (first
    | with_reducible exact Only.refl _ _ | with_reducible assumption
    | ((with_reducible show areasIn _ _ = true); exact rfl) | (extract_lets +onlyGivenNames _x; first
      | (rename State => _y; refine Only.bring _y ?_ ?_; rotate_left; clear_value _y; intro _; rotate_right; subst _y)
      | (rename _ × State => _y; refine Only.bringSnd _y ?_ ?_; rotate_left; clear_value _y; intro _; rotate_right; subst _y)
      | skip)
    | (apply Only.into; first
      | with_reducible apply State.abandonGraft_only
      | with_reducible apply State.abortJobs_only
      | with_reducible apply State.abortTest_only
      | with_reducible apply State.haltWatch_only
      | with_reducible apply State.modNet_only
      | with_reducible apply State.setMode_only
      | with_reducible apply State.modStart_only
      | with_reducible apply State.modPower_only
      | with_reducible apply State.keepCompletions_only
      | with_reducible apply State.drainNow_only
      | with_reducible apply State.dropBrace_only
      | with_reducible apply State.settle_only))

theorem State.activate_only (env : StartEnv) (s : State) :
    Only [.mode, .clock, .draws, .cfg, .log, .admin, .net, .time, .ses, .store, .power, .reg, .start, .outputs, .media, .journal, .watch, .sec, .fw, .startCount] s (State.activate env s) := by
  unfold State.activate
  repeat' (first
    | with_reducible exact Only.refl _ _ | with_reducible assumption
    | ((with_reducible show areasIn _ _ = true); exact rfl) | with_reducible apply Only.ite | (apply Only.into; first
      | with_reducible apply State.rescueActivates_only
      | with_reducible apply State.runStart_only
      | with_reducible apply State.beginRun_only
      | with_reducible apply State.writeEntry_only
      | with_reducible apply State.quiesce_only))

theorem State.activity_only (s : State) :
    Only [.net] s (State.activity s) := by
  unfold State.activity
  repeat' (first
    | with_reducible exact Only.refl _ _ | with_reducible assumption
    | ((with_reducible show areasIn _ _ = true); exact rfl) | with_reducible apply Only.ite
    | (apply Only.into; with_reducible apply State.modNet_only))

theorem State.afterActivate_only (s : State) :
    Only [.log, .power, .reg, .fw] s (State.afterActivate s) := by
  unfold State.afterActivate
  repeat' (first
    | with_reducible exact Only.refl _ _ | ((with_reducible show areasIn _ _ = true); exact rfl)
    | (apply Only.into; first
      | with_reducible apply State.modFw_only
      | with_reducible apply State.abortTest_only))

theorem State.stopRecord_only (s : State) :
    Only [.log, .store, .media, .journal] s (State.stopRecord s) := by
  unfold State.stopRecord
  repeat' (first
    | with_reducible exact Only.refl _ _ | with_reducible assumption
    | ((with_reducible show areasIn _ _ = true); exact rfl) | with_reducible apply Only.ite
    | (apply Only.into; with_reducible apply State.writeEntry_only))

end Sys2Proof.Machine
end

