-- ==== Sys2Proof/Laws/Frames3.lean ====
section
/-!
SUPPORT. What each operation of the machine can touch, one lemma for each, callees before callers; part 3 of 6.
-/
set_option linter.tactic.unusedName false
set_option linter.unusedSimpArgs false
namespace Sys2Proof.Machine

theorem State.orderlyStop_only (s : State) :
    Only [.mode, .log, .net, .ses, .store, .power, .reg, .start, .outputs, .media, .journal, .watch, .fw] s (State.orderlyStop s) := by
  unfold State.orderlyStop
  repeat' (first
    | with_reducible exact Only.refl _ _ | with_reducible assumption
    | ((with_reducible show areasIn _ _ = true); exact rfl) | (extract_lets +onlyGivenNames _x; first
      | (rename State => _y; refine Only.bring _y ?_ ?_; rotate_left; clear_value _y; intro _; rotate_right; subst _y)
      | (rename _ × State => _y; refine Only.bringSnd _y ?_ ?_; rotate_left; clear_value _y; intro _; rotate_right; subst _y)
      | skip)
    | with_reducible apply Only.ite | (apply Only.into; first
      | with_reducible apply State.quiesce_only
      | with_reducible apply State.stopRecord_only))

theorem State.coldFields_only (env : StartEnv) (dram : Bytes) (s : State) :
    Only [.mode, .cfg, .log, .admin, .net, .time, .ses, .store, .power, .reg, .start, .outputs, .media, .journal, .watch, .sec, .fw] s (State.coldFields env dram s) := by
  unfold State.coldFields
  repeat' (first
    | with_reducible exact Only.refl _ _ | with_reducible assumption
    | ((with_reducible show areasIn _ _ = true); exact rfl) | (extract_lets +onlyGivenNames _x; first
      | (rename State => _y; refine Only.bring _y ?_ ?_; rotate_left; clear_value _y; intro _; rotate_right; subst _y)
      | (rename _ × State => _y; refine Only.bringSnd _y ?_ ?_; rotate_left; clear_value _y; intro _; rotate_right; subst _y)
      | skip)
    | (simp only [Only.updated]; with_reducible refine Updated.of ?_ rfl ?_ ?_ ?_ ?_ ?_ ?_ ?_ ?_ ?_ ?_ ?_ ?_ ?_ ?_ ?_ ?_ ?_ ?_ ?_ ?_)
    | with_reducible exact .inr rfl | exact .inl rfl | split)

theorem State.noteJunction_only (j : Int) (s : State) :
    Only [.admin, .power] s (State.noteJunction j s) := by
  unfold State.noteJunction
  repeat' (first
    | with_reducible exact Only.refl _ _ | ((with_reducible show areasIn _ _ = true); exact rfl)
    | (apply Only.into; first
      | with_reducible apply State.modPower_only
      | with_reducible apply State.modAdmin_only))

theorem State.coldClear_only (env : StartEnv) (s : State) :
    Only [.mode, .draws, .cfg, .log, .admin, .net, .time, .ses, .store, .power, .reg, .start, .outputs, .media, .journal, .watch, .sec, .fw] s (State.coldClear env s) := by
  unfold State.coldClear
  repeat' (first
    | with_reducible exact Only.refl _ _ | with_reducible assumption
    | ((with_reducible show areasIn _ _ = true); exact rfl) | with_reducible apply Only.ite | (apply Only.into; first
      | with_reducible apply State.random_only
      | (with_reducible apply State.random_only_eq; assumption)
      | with_reducible apply State.settle_only
      | with_reducible apply State.coldFields_only
      | with_reducible apply State.noteJunction_only
      | with_reducible apply State.deferEvent_only)
    | split)

theorem State.beginCold_only (source : StartSource) (env : StartEnv) (s : State) :
    Only [.mode, .draws, .cfg, .log, .admin, .net, .time, .ses, .store, .power, .reg, .start, .outputs, .media, .journal, .watch, .sec, .fw] s (State.beginCold source env s) := by
  unfold State.beginCold
  repeat' (first
    | with_reducible exact Only.refl _ _ | ((with_reducible show areasIn _ _ = true); exact rfl)
    | (apply Only.into; first
      | with_reducible apply State.beginRun_only
      | with_reducible apply State.coldClear_only))

theorem State.restartCold_only (s : State) :
    Only [.mode, .clock, .draws, .cfg, .log, .admin, .net, .time, .ses, .store, .power, .reg, .start, .outputs, .media, .journal, .watch, .sec, .fw, .startCount] s (State.restartCold s) := by
  unfold State.restartCold
  repeat' (first
    | with_reducible exact Only.refl _ _ | with_reducible assumption
    | ((with_reducible show areasIn _ _ = true); exact rfl) | (extract_lets +onlyGivenNames _x; first
      | (rename State => _y; refine Only.bring _y ?_ ?_; rotate_left; clear_value _y; intro _; rotate_right; subst _y)
      | (rename _ × State => _y; refine Only.bringSnd _y ?_ ?_; rotate_left; clear_value _y; intro _; rotate_right; subst _y)
      | skip)
    | (apply Only.into; first
      | with_reducible apply State.orderlyStop_only
      | with_reducible apply State.runStart_only
      | with_reducible apply State.beginCold_only
      | with_reducible apply State.waitUntil_only))

theorem State.beginWarm_only (source : StartSource) (env : StartEnv) (s : State) :
    Only [.mode, .draws, .log, .admin, .net, .ses, .store, .power, .reg, .start, .outputs, .media, .journal, .watch, .sec, .fw] s (State.beginWarm source env s) := by
  unfold State.beginWarm
  repeat' (first
    | with_reducible exact Only.refl _ _ | ((with_reducible show areasIn _ _ = true); exact rfl)
    | (apply Only.into; first
      | with_reducible apply State.beginRun_only
      | with_reducible apply State.orderlyStop_only))

theorem State.afterPlain_only (was : List (Option (Bytes × Nat))) (op : AdminOp) (s : State) :
    Only [.mode, .clock, .draws, .cfg, .log, .admin, .net, .time, .ses, .store, .power, .reg, .start, .outputs, .media, .journal, .watch, .sec, .fw, .startCount] s (State.afterPlain was op s) := by
  unfold State.afterPlain
  repeat' (first
    | with_reducible exact Only.refl _ _ | with_reducible assumption
    | ((with_reducible show areasIn _ _ = true); exact rfl) | with_reducible apply Only.ite | (apply Only.into; first
      | with_reducible apply State.runStart_only
      | with_reducible apply State.beginWarm_only
      | with_reducible apply State.restartCold_only
      | with_reducible apply State.dropSession_only
      | with_reducible apply State.dropSessions_only)
    | split)

theorem State.afterOp_only (was : List (Option (Bytes × Nat))) (op : AdminOp) (s : State) :
    Only [.mode, .clock, .draws, .cfg, .log, .admin, .net, .time, .ses, .store, .power, .reg, .start, .outputs, .media, .journal, .watch, .sec, .fw, .startCount] s (State.afterOp was op s) := by
  unfold State.afterOp
  repeat' (first
    | with_reducible exact Only.refl _ _ | with_reducible assumption
    | ((with_reducible show areasIn _ _ = true); exact rfl) | with_reducible apply Only.ite | (apply Only.into; first
      | with_reducible apply State.afterActivate_only
      | with_reducible apply State.afterPlain_only))

theorem State.aged_only (mac : Mac) (s : State) :
    Only [.clock, .net] s (State.aged mac s) := by
  unfold State.aged
  repeat' (first
    | with_reducible exact Only.refl _ _ | with_reducible assumption
    | ((with_reducible show areasIn _ _ = true); exact rfl) | (apply Only.into; first
      | with_reducible apply State.modNet_only
      | with_reducible apply State.waitUntil_only)
    | split)

theorem State.awaken_only (source : Nat) (s : State) :
    Only [.mode, .log, .admin, .net, .ses, .store, .power, .reg, .start, .outputs, .media, .watch] s (State.awaken source s) := by
  unfold State.awaken
  repeat' (first
    | with_reducible exact Only.refl _ _ | with_reducible assumption
    | ((with_reducible show areasIn _ _ = true); exact rfl) | (extract_lets +onlyGivenNames _x; first
      | (rename State => _y; refine Only.bring _y ?_ ?_; rotate_left; clear_value _y; intro _; rotate_right; subst _y)
      | (rename _ × State => _y; refine Only.bringSnd _y ?_ ?_; rotate_left; clear_value _y; intro _; rotate_right; subst _y)
      | skip)
    | with_reducible apply Only.ite | (apply Only.into; first
      | with_reducible apply State.modPower_only
      | with_reducible apply State.setMode_only
      | with_reducible apply State.modStart_only
      | with_reducible apply State.recordStart_only
      | with_reducible apply State.event_only
      | with_reducible apply State.startWatch_only
      | with_reducible apply State.openService_only))

theorem State.alarmAsleep_only (s : State) :
    Only [.mode, .draws, .log, .admin, .net, .ses, .store, .power, .reg, .start, .outputs, .media, .journal, .watch, .sec, .fw] s (State.alarmAsleep s) := by
  unfold State.alarmAsleep
  repeat' (first
    | with_reducible exact Only.refl _ _ | with_reducible assumption
    | ((with_reducible show areasIn _ _ = true); exact rfl) | (extract_lets +onlyGivenNames _x; first
      | (rename State => _y; refine Only.bring _y ?_ ?_; rotate_left; clear_value _y; intro _; rotate_right; subst _y)
      | (rename _ × State => _y; refine Only.bringSnd _y ?_ ?_; rotate_left; clear_value _y; intro _; rotate_right; subst _y)
      | skip)
    | with_reducible apply Only.ite | (apply Only.into; first
      | with_reducible apply State.event_only
      | with_reducible apply State.awaken_only
      | with_reducible apply State.sealErased_only
      | with_reducible apply State.lock_only))

theorem State.aliveTimeout_only (sid : Nat) (s : State) :
    Only [.clock, .log, .admin, .net, .ses, .store, .fw] s (State.aliveTimeout sid s) := by
  unfold State.aliveTimeout
  repeat' (first
    | with_reducible exact Only.refl _ _ | with_reducible assumption
    | ((with_reducible show areasIn _ _ = true); exact rfl) | with_reducible apply Only.ite | (apply Only.into; first
      | with_reducible apply State.dropSession_only
      | with_reducible apply State.waitUntil_only)
    | split)

theorem State.sendGptp_only (q : Port) (m : GptpMsg) (relayed : Option Relay) (s : State) :
    Only [.net] s (State.sendGptp q m relayed s) := by
  unfold State.sendGptp
  repeat' (first
    | with_reducible exact Only.refl _ _ | with_reducible assumption
    | ((with_reducible show areasIn _ _ = true); exact rfl) | (extract_lets +onlyGivenNames _x; first
      | (rename State => _y; refine Only.bring _y ?_ ?_; rotate_left; clear_value _y; intro _; rotate_right; subst _y)
      | (rename _ × State => _y; refine Only.bringSnd _y ?_ ?_; rotate_left; clear_value _y; intro _; rotate_right; subst _y)
      | skip)
    | with_reducible apply Only.ite | (apply Only.into; with_reducible apply State.modPort_only) | split)

theorem State.announceSend_only (s : State) :
    Only [.clock, .net, .time] s (State.announceSend s) := by
  unfold State.announceSend
  repeat' (first
    | with_reducible exact Only.refl _ _ | with_reducible assumption
    | ((with_reducible show areasIn _ _ = true); exact rfl) | (extract_lets +onlyGivenNames _x; first
      | (rename State => _y; refine Only.bring _y ?_ ?_; rotate_left; clear_value _y; intro _; rotate_right; subst _y)
      | (rename _ × State => _y; refine Only.bringSnd _y ?_ ?_; rotate_left; clear_value _y; intro _; rotate_right; subst _y)
      | skip)
    | with_reducible apply Only.ite | (apply Only.into; first
      | with_reducible apply State.waitUntil_only
      | with_reducible apply State.sendGptp_only
      | with_reducible apply State.modTime_only))

theorem State.modGptp_only (q : Port) (f : GptpPort → GptpPort) (s : State) :
    Only [.time] s (State.modGptp q f s) := by
  unfold State.modGptp
  repeat' (first
    | with_reducible exact Only.refl _ _ | ((with_reducible show areasIn _ _ = true); exact rfl)
    | (apply Only.into; with_reducible apply State.modTime_only))

theorem State.announceTimeout_only (q : Port) (s : State) :
    Only [.clock, .log, .time] s (State.announceTimeout q s) := by
  unfold State.announceTimeout
  repeat' (first
    | with_reducible exact Only.refl _ _ | with_reducible assumption
    | ((with_reducible show areasIn _ _ = true); exact rfl) | with_reducible apply Only.ite | (apply Only.into; first
      | with_reducible apply State.selectMaster_only
      | with_reducible apply State.modGptp_only
      | with_reducible apply State.waitUntil_only))

theorem State.answerCancel_only (a : Ask) (status : Nat) (reason : Nat) (s : State) :
    Only [.net, .ses] s (State.answerCancel a status reason s) := by
  unfold State.answerCancel
  repeat' (first
    | with_reducible exact Only.refl _ _ | with_reducible assumption
    | ((with_reducible show areasIn _ _ = true); exact rfl) | with_reducible apply Only.ite
    | (apply Only.into; with_reducible apply State.say_only))

theorem State.answerConfirm_only (e : Sess) (h : Header) (rx : Rx) (status : Nat) (reason : Nat) (s : State) :
    Only [.net, .ses] s (State.answerConfirm e h rx status reason s) := by
  unfold State.answerConfirm
  repeat' (first
    | with_reducible exact Only.refl _ _ | with_reducible assumption
    | ((with_reducible show areasIn _ _ = true); exact rfl) | with_reducible apply Only.ite
    | (apply Only.into; with_reducible apply State.say_only))

theorem State.conflict_only (q : Port) (version : Nat) (s : State) :
    Only [.log, .net] s (State.conflict q version s) := by
  unfold State.conflict
  repeat' (first
    | with_reducible exact Only.refl _ _ | with_reducible assumption
    | ((with_reducible show areasIn _ _ = true); exact rfl) | with_reducible apply Only.ite | (apply Only.into; first
      | with_reducible apply State.event_only
      | with_reducible apply State.modNet_only))

theorem State.sendRaw_only (rx : Rx) (ethertype : Nat) (dst : Mac) (payload : Bytes) (s : State) :
    Only [.net] s (State.sendRaw rx ethertype dst payload s) := by
  unfold State.sendRaw
  repeat' (first
    | with_reducible exact Only.refl _ _ | with_reducible assumption
    | ((with_reducible show areasIn _ _ = true); exact rfl) | (extract_lets +onlyGivenNames _x; first
      | (rename State => _y; refine Only.bring _y ?_ ?_; rotate_left; clear_value _y; intro _; rotate_right; subst _y)
      | (rename _ × State => _y; refine Only.bringSnd _y ?_ ?_; rotate_left; clear_value _y; intro _; rotate_right; subst _y)
      | skip)
    | with_reducible apply Only.ite | (apply Only.into; with_reducible apply State.enqueue_only))

theorem State.takeFrame_only (k : Service) (s : State) :
    Only [.net] s (State.takeFrame k s).2 := by
  unfold State.takeFrame
  repeat' (first
    | with_reducible exact Only.refl _ _ | with_reducible assumption
    | ((with_reducible show areasIn _ _ = true); exact rfl) | (apply Only.into; first
      | with_reducible apply State.release_only
      | with_reducible apply State.modNet_only)
    | split)

theorem State.takeFrame_only_eq {k : Service} {s : State} {p : _} {t : State} (h : State.takeFrame k s = (p, t)) :
    Only [.net] s t := by
  have k := State.takeFrame_only k s
  rw [h] at k
  exact k

theorem State.arpReceived_only (s : State) :
    Only [.log, .net] s (State.arpReceived s) := by
  unfold State.arpReceived
  repeat' (first
    | with_reducible exact Only.refl _ _ | with_reducible assumption
    | ((with_reducible show areasIn _ _ = true); exact rfl) | (extract_lets +onlyGivenNames _x; first
      | (rename State => _y; refine Only.bring _y ?_ ?_; rotate_left; clear_value _y; intro _; rotate_right; subst _y)
      | (rename _ × State => _y; refine Only.bringSnd _y ?_ ?_; rotate_left; clear_value _y; intro _; rotate_right; subst _y)
      | skip)
    | with_reducible apply Only.ite | (apply Only.into; first
      | with_reducible apply State.takeFrame_only
      | (with_reducible apply State.takeFrame_only_eq; assumption)
      | with_reducible apply State.conflict_only
      | with_reducible apply State.modPort_only
      | with_reducible apply State.sendRaw_only)
    | split)

theorem State.hold_only (a : Ask) (w : Work) (pinned : Bool) (s : State) :
    Only [.draws, .net, .ses] s (State.hold a w pinned s) := by
  unfold State.hold
  repeat' (first
    | with_reducible exact Only.refl _ _ | with_reducible assumption
    | ((with_reducible show areasIn _ _ = true); exact rfl) | (extract_lets +onlyGivenNames _x; first
      | (rename State => _y; refine Only.bring _y ?_ ?_; rotate_left; clear_value _y; intro _; rotate_right; subst _y)
      | (rename _ × State => _y; refine Only.bringSnd _y ?_ ?_; rotate_left; clear_value _y; intro _; rotate_right; subst _y)
      | skip)
    | with_reducible apply Only.ite | (apply Only.into; first
      | with_reducible apply State.draw_only
      | (with_reducible apply State.draw_only_eq; assumption)
      | with_reducible apply State.modSes_only
      | with_reducible apply State.modFlight_only
      | with_reducible apply State.bump_only
      | with_reducible apply State.say_only)
    | split)

theorem State.startWork_only (a : Ask) (s : State) :
    Only [.draws, .net, .ses] s (State.startWork a s).2 := by
  unfold State.startWork
  repeat' (first
    | with_reducible exact Only.refl _ _ | with_reducible assumption
    | ((with_reducible show areasIn _ _ = true); exact rfl) | (extract_lets +onlyGivenNames _x; first
      | (rename State => _y; refine Only.bring _y ?_ ?_; rotate_left; clear_value _y; intro _; rotate_right; subst _y)
      | (rename _ × State => _y; refine Only.bringSnd _y ?_ ?_; rotate_left; clear_value _y; intro _; rotate_right; subst _y)
      | skip)
    | with_reducible apply Only.ite | (apply Only.into; with_reducible apply State.hold_only))

theorem State.startWork_only_eq {a : Ask} {s : State} {p : _} {t : State} (h : State.startWork a s = (p, t)) :
    Only [.draws, .net, .ses] s t := by
  have k := State.startWork_only a s
  rw [h] at k
  exact k

theorem State.sayAdmin_only (a : Ask) (op : AdminOp) (s : State) :
    Only [.net, .ses] s (State.sayAdmin a op s) := by
  unfold State.sayAdmin
  repeat' (first
    | with_reducible exact Only.refl _ _ | with_reducible assumption
    | ((with_reducible show areasIn _ _ = true); exact rfl) | (extract_lets +onlyGivenNames _x; first
      | (rename State => _y; refine Only.bring _y ?_ ?_; rotate_left; clear_value _y; intro _; rotate_right; subst _y)
      | (rename _ × State => _y; refine Only.bringSnd _y ?_ ?_; rotate_left; clear_value _y; intro _; rotate_right; subst _y)
      | skip)
    | with_reducible apply Only.ite | (apply Only.into; with_reducible apply State.say_only))

theorem State.askAdmin_only (a : Ask) (op : AdminOp) (s : State) :
    Only [.draws, .net, .ses] s (State.askAdmin a op s) := by
  unfold State.askAdmin
  repeat' (first
    | with_reducible exact Only.refl _ _ | with_reducible assumption
    | ((with_reducible show areasIn _ _ = true); exact rfl) | (apply Only.into; first
      | with_reducible apply State.startWork_only
      | (with_reducible apply State.startWork_only_eq; assumption)
      | with_reducible apply State.sayAdmin_only)
    | split)

theorem State.expireRange_only (t : Nat) (start : Bytes) (end_ : Option Bytes) (last : Option Bytes) (admitAt : Nat) (s : State) :
    Only [.store] s (State.expireRange t start end_ last admitAt s) := by
  unfold State.expireRange
  repeat' (first
    | with_reducible exact Only.refl _ _ | ((with_reducible show areasIn _ _ = true); exact rfl)
    | (apply Only.into; with_reducible apply State.modStore_only))

theorem State.grantLock_only (q : RangeLock) (s : State) :
    Only [.ses, .store] s (State.grantLock q s) := by
  unfold State.grantLock
  repeat' (first
    | with_reducible exact Only.refl _ _ | with_reducible assumption
    | ((with_reducible show areasIn _ _ = true); exact rfl) | (extract_lets +onlyGivenNames _x; first
      | (rename State => _y; refine Only.bring _y ?_ ?_; rotate_left; clear_value _y; intro _; rotate_right; subst _y)
      | (rename _ × State => _y; refine Only.bringSnd _y ?_ ?_; rotate_left; clear_value _y; intro _; rotate_right; subst _y)
      | skip)
    | with_reducible apply Only.ite | (apply Only.into; first
      | with_reducible apply State.expireRange_only
      | with_reducible apply State.modFlight_only
      | with_reducible apply State.modSes_only)
    | split)

theorem State.examine_only (x0 : Nat) (x1 : State) :
    Only [.ses, .store] x1 (State.examine x0 x1) := by
  induction x0 generalizing x1 with
  | zero => exact Only.refl _ _
  | succ n ih =>
    unfold State.examine
    split
    · exact Only.refl _ _
    · exact (Only.into (State.grantLock_only _ _) rfl (Only.refl _ _)).trans (ih _)

theorem State.askLock_only (a : Ask) (del : Bool) (start : Bytes) (end_ : Option Bytes) (most : Nat) (s : State) :
    Only [.draws, .net, .ses, .store] s (State.askLock a del start end_ most s) := by
  unfold State.askLock
  repeat' (first
    | with_reducible exact Only.refl _ _ | with_reducible assumption
    | ((with_reducible show areasIn _ _ = true); exact rfl) | (extract_lets +onlyGivenNames _x; first
      | (rename State => _y; refine Only.bring _y ?_ ?_; rotate_left; clear_value _y; intro _; rotate_right; subst _y)
      | (rename _ × State => _y; refine Only.bringSnd _y ?_ ?_; rotate_left; clear_value _y; intro _; rotate_right; subst _y)
      | skip)
    | (apply Only.into; first
      | with_reducible apply State.hold_only
      | with_reducible apply State.modSes_only
      | with_reducible apply State.examine_only))

theorem State.failBare_only (a : Ask) (status : Nat) (reason : Nat) (s : State) :
    Only [.log, .net, .ses] s (State.failBare a status reason s) := by
  unfold State.failBare
  repeat' (first
    | with_reducible exact Only.refl _ _ | with_reducible assumption
    | ((with_reducible show areasIn _ _ = true); exact rfl) | with_reducible apply Only.ite | (apply Only.into; first
      | with_reducible apply State.say_only
      | with_reducible apply State.finish_only))

theorem State.resumePin_only (a : Ask) (k : Bytes) (v : Version) (s : State) :
    Only [.log, .net, .ses, .store, .media] s (State.resumePin a k v s) := by
  unfold State.resumePin
  repeat' (first
    | with_reducible exact Only.refl _ _ | with_reducible assumption
    | ((with_reducible show areasIn _ _ = true); exact rfl) | (extract_lets +onlyGivenNames _x; first
      | (rename State => _y; refine Only.bring _y ?_ ?_; rotate_left; clear_value _y; intro _; rotate_right; subst _y)
      | (rename _ × State => _y; refine Only.bringSnd _y ?_ ?_; rotate_left; clear_value _y; intro _; rotate_right; subst _y)
      | skip)
    | with_reducible apply Only.ite | (apply Only.into; first
      | with_reducible apply State.modStore_only
      | with_reducible apply State.finish_only
      | with_reducible apply State.requestRead_only
      | with_reducible apply State.modFlight_only))

theorem State.resumeRead_only (a : Ask) (k : Bytes) (v : Version) (off : Nat) (len : Nat) (pinned : Bool) (s : State) :
    Only [.log, .net, .ses, .media] s (State.resumeRead a k v off len pinned s) := by
  unfold State.resumeRead
  repeat' (first
    | with_reducible exact Only.refl _ _ | with_reducible assumption
    | ((with_reducible show areasIn _ _ = true); exact rfl) | with_reducible apply Only.ite | (apply Only.into; first
      | with_reducible apply State.finish_only
      | with_reducible apply State.requestRead_only
      | with_reducible apply State.modFlight_only))

theorem State.wake_only (t : Nat) (k : Bytes) (v : Version) (s : State) :
    Only [.log, .net, .ses, .store, .media] s (State.wake t k v s) := by
  unfold State.wake
  repeat' (first
    | with_reducible exact Only.refl _ _ | with_reducible assumption
    | ((with_reducible show areasIn _ _ = true); exact rfl) | with_reducible apply Only.ite | (apply Only.into; first
      | with_reducible apply State.resumeRead_only
      | with_reducible apply State.resumePin_only)
    | (with_reducible apply Only.foldl; (intro _ _)) | split)

theorem State.noteEnded_only (sid : Nat) (msgId : Nat) (inconsistent : Bool) (s : State) :
    Only [.ses] s (State.noteEnded sid msgId inconsistent s) := by
  unfold State.noteEnded
  repeat' (first
    | with_reducible exact Only.refl _ _ | ((with_reducible show areasIn _ _ = true); exact rfl)
    | (apply Only.into; with_reducible apply State.modSess_only))

theorem State.endMessage_only (sid : Nat) (inconsistent : Bool) (a : Assembly) (s : State) :
    Only [.net, .ses] s (State.endMessage sid inconsistent a s) := by
  unfold State.endMessage
  repeat' (first
    | with_reducible exact Only.refl _ _ | ((with_reducible show areasIn _ _ = true); exact rfl)
    | (apply Only.into; first
      | with_reducible apply State.noteEnded_only
      | with_reducible apply State.takeMessage_only))

theorem State.cutWrite_only (e : Sess) (a : Assembly) (status : Nat) (reason : Nat) (retry : Nat) (location : Nat) (s : State) :
    Only [.log, .net, .ses, .store, .media] s (State.cutWrite e a status reason retry location s) := by
  unfold State.cutWrite
  repeat' (first
    | with_reducible exact Only.refl _ _ | with_reducible assumption
    | ((with_reducible show areasIn _ _ = true); exact rfl) | (extract_lets +onlyGivenNames _x; first
      | (rename State => _y; refine Only.bring _y ?_ ?_; rotate_left; clear_value _y; intro _; rotate_right; subst _y)
      | (rename _ × State => _y; refine Only.bringSnd _y ?_ ?_; rotate_left; clear_value _y; intro _; rotate_right; subst _y)
      | skip)
    | (apply Only.into; first
      | with_reducible apply State.endMessage_only
      | with_reducible apply State.wake_only
      | with_reducible apply State.finish_only
      | with_reducible apply State.putOpen_only)
    | split)

theorem State.endIncomplete_only (e : Sess) (a : Assembly) (s : State) :
    Only [.log, .net, .ses, .store, .media] s (State.endIncomplete e a s) := by
  unfold State.endIncomplete
  repeat' (first
    | with_reducible exact Only.refl _ _ | with_reducible assumption
    | ((with_reducible show areasIn _ _ = true); exact rfl) | with_reducible apply Only.ite | (apply Only.into; first
      | with_reducible apply State.cutWrite_only
      | with_reducible apply State.failBare_only
      | with_reducible apply State.endMessage_only))

theorem State.assemblyTimeout_only (sid : Nat) (kind : Nat) (msgId : Nat) (s : State) :
    Only [.clock, .log, .net, .ses, .store, .media] s (State.assemblyTimeout sid kind msgId s) := by
  unfold State.assemblyTimeout
  repeat' (first
    | with_reducible exact Only.refl _ _ | with_reducible assumption
    | ((with_reducible show areasIn _ _ = true); exact rfl) | with_reducible apply Only.ite | (apply Only.into; first
      | with_reducible apply State.endIncomplete_only
      | with_reducible apply State.waitUntil_only)
    | split)

theorem State.endOverdue_only (e : Sess) (f : Flight) (s : State) :
    Only [.log, .net, .ses, .store, .media] s (State.endOverdue e f s) := by
  unfold State.endOverdue
  repeat' (first
    | with_reducible exact Only.refl _ _ | with_reducible assumption
    | ((with_reducible show areasIn _ _ = true); exact rfl) | (apply Only.into; first
      | with_reducible apply State.cutWrite_only
      | with_reducible apply State.stopFlight_only)
    | split)

theorem State.backstop_only (sid : Nat) (msgId : Nat) (s : State) :
    Only [.clock, .log, .net, .ses, .store, .media] s (State.backstop sid msgId s) := by
  unfold State.backstop
  repeat' (first
    | with_reducible exact Only.refl _ _ | with_reducible assumption
    | ((with_reducible show areasIn _ _ = true); exact rfl) | (extract_lets +onlyGivenNames _x; first
      | (rename State => _y; refine Only.bring _y ?_ ?_; rotate_left; clear_value _y; intro _; rotate_right; subst _y)
      | (rename _ × State => _y; refine Only.bringSnd _y ?_ ?_; rotate_left; clear_value _y; intro _; rotate_right; subst _y)
      | skip)
    | with_reducible apply Only.ite | (apply Only.into; first
      | with_reducible apply State.waitUntil_only
      | with_reducible apply State.eventFor_only
      | with_reducible apply State.dropOps_only
      | with_reducible apply State.settleCloses_only
      | with_reducible apply State.endOverdue_only)
    | split)

theorem State.beginEscalated_only (env : StartEnv) (s : State) :
    Only [.mode, .draws, .cfg, .log, .admin, .net, .ses, .store, .power, .reg, .start, .outputs, .media, .journal, .watch, .sec, .fw] s (State.beginEscalated env s) := by
  unfold State.beginEscalated
  repeat' (first
    | with_reducible exact Only.refl _ _ | ((with_reducible show areasIn _ _ = true); exact rfl)
    | (apply Only.into; first
      | with_reducible apply State.beginRun_only
      | with_reducible apply State.escalate_only))

theorem State.duskRuns_only (s : State) :
    Only [.log, .start, .outputs, .fw] s (State.duskRuns s) := by
  unfold State.duskRuns
  repeat' (first
    | with_reducible exact Only.refl _ _ | with_reducible assumption
    | ((with_reducible show areasIn _ _ = true); exact rfl) | (extract_lets +onlyGivenNames _x; first
      | (rename State => _y; refine Only.bring _y ?_ ?_; rotate_left; clear_value _y; intro _; rotate_right; subst _y)
      | (rename _ × State => _y; refine Only.bringSnd _y ?_ ?_; rotate_left; clear_value _y; intro _; rotate_right; subst _y)
      | skip)
    | with_reducible apply Only.ite | (apply Only.into; first
      | with_reducible apply State.deferEvent_only
      | with_reducible apply State.modFw_only
      | with_reducible apply State.modStart_only))

theorem State.fillRow_only (id : Nat) (s : State) :
    Only [.media, .journal] s (State.fillRow id s) := by
  unfold State.fillRow
  repeat' (first
    | with_reducible exact Only.refl _ _ | with_reducible assumption
    | ((with_reducible show areasIn _ _ = true); exact rfl) | with_reducible apply Only.ite | (apply Only.into; first
      | with_reducible apply State.endRow_only
      | with_reducible apply State.programPage_only)
    | (with_reducible apply Only.foldl; (intro _ _)) | split)

theorem State.finishDusk_only (s : State) :
    Only [.log, .store, .power, .media, .journal] s (State.finishDusk s) := by
  unfold State.finishDusk
  repeat' (first
    | with_reducible exact Only.refl _ _ | with_reducible assumption
    | ((with_reducible show areasIn _ _ = true); exact rfl) | (extract_lets +onlyGivenNames _x; first
      | (rename State => _y; refine Only.bring _y ?_ ?_; rotate_left; clear_value _y; intro _; rotate_right; subst _y)
      | (rename _ × State => _y; refine Only.bringSnd _y ?_ ?_; rotate_left; clear_value _y; intro _; rotate_right; subst _y)
      | skip)
    | with_reducible apply Only.ite | (apply Only.into; first
      | with_reducible apply State.drainNow_only
      | with_reducible apply State.fillRow_only
      | with_reducible apply State.modJournal_only
      | with_reducible apply State.modPower_only
      | with_reducible apply State.modMedia_only
      | with_reducible apply State.writeEntry_only)
    | (with_reducible apply Only.foldl; (intro _ _)) | split)

theorem State.duskSessions_only (s : State) :
    Only [.log, .admin, .net, .ses, .store, .fw] s (State.duskSessions s) := by
  unfold State.duskSessions
  repeat' (first
    | with_reducible exact Only.refl _ _ | with_reducible assumption
    | ((with_reducible show areasIn _ _ = true); exact rfl) | (extract_lets +onlyGivenNames _x; first
      | (rename State => _y; refine Only.bring _y ?_ ?_; rotate_left; clear_value _y; intro _; rotate_right; subst _y)
      | (rename _ × State => _y; refine Only.bringSnd _y ?_ ?_; rotate_left; clear_value _y; intro _; rotate_right; subst _y)
      | skip)
    | (apply Only.into; first
      | with_reducible apply State.removeSess_only
      | with_reducible apply State.keepCompletions_only
      | with_reducible apply State.modSes_only
      | with_reducible apply State.modNet_only
      | with_reducible apply State.modStore_only)
    | (with_reducible apply Only.foldl; (intro _ _)))

theorem State.duskHardware_only (s : State) :
    Only [.net, .time, .reg] s (State.duskHardware s) := by
  unfold State.duskHardware
  repeat' (first
    | with_reducible exact Only.refl _ _ | with_reducible assumption
    | ((with_reducible show areasIn _ _ = true); exact rfl) | (extract_lets +onlyGivenNames _x; first
      | (rename State => _y; refine Only.bring _y ?_ ?_; rotate_left; clear_value _y; intro _; rotate_right; subst _y)
      | (rename _ × State => _y; refine Only.bringSnd _y ?_ ?_; rotate_left; clear_value _y; intro _; rotate_right; subst _y)
      | skip)
    | (apply Only.into; first
      | with_reducible apply State.modNet_only
      | with_reducible apply State.modTime_only
      | with_reducible apply State.modReg_only))

theorem State.commitDusk_only (cause : DuskCause) (paid : Bool) (vin : Nat) (s : State) :
    Only [.mode, .log, .admin, .net, .time, .ses, .store, .power, .reg, .start, .outputs, .media, .journal, .watch, .fw] s (State.commitDusk cause paid vin s) := by
  unfold State.commitDusk
  repeat' (first
    | with_reducible exact Only.refl _ _ | with_reducible assumption
    | ((with_reducible show areasIn _ _ = true); exact rfl) | (extract_lets +onlyGivenNames _x; first
      | (rename State => _y; refine Only.bring _y ?_ ?_; rotate_left; clear_value _y; intro _; rotate_right; subst _y)
      | (rename _ × State => _y; refine Only.bringSnd _y ?_ ?_; rotate_left; clear_value _y; intro _; rotate_right; subst _y)
      | skip)
    | with_reducible apply Only.ite | (apply Only.into; first
      | with_reducible apply State.modPower_only
      | with_reducible apply State.haltWatch_only
      | with_reducible apply State.logEpisode_only
      | with_reducible apply State.abortJobs_only
      | with_reducible apply State.abortTest_only
      | with_reducible apply State.duskHardware_only
      | with_reducible apply State.duskSessions_only
      | with_reducible apply State.duskRuns_only
      | with_reducible apply State.modMedia_only
      | with_reducible apply State.dropOps_only
      | with_reducible apply State.setMode_only
      | with_reducible apply State.settle_only
      | with_reducible apply State.finishDusk_only)
    | split)

theorem State.noteVin_only (vin : Nat) (s : State) :
    Only [.power] s (State.noteVin vin s) := by
  unfold State.noteVin
  repeat' (first
    | with_reducible exact Only.refl _ _ | with_reducible assumption
    | ((with_reducible show areasIn _ _ = true); exact rfl) | with_reducible apply Only.ite
    | (apply Only.into; with_reducible apply State.modPower_only))

theorem State.supplyDusk_only (cause : DuskCause) (paid : Bool) (vin : Nat) (s : State) :
    Only [.mode, .log, .admin, .net, .time, .ses, .store, .power, .reg, .start, .outputs, .media, .journal, .watch, .fw] s (State.supplyDusk cause paid vin s) := by
  unfold State.supplyDusk
  repeat' (first
    | with_reducible exact Only.refl _ _ | with_reducible assumption
    | ((with_reducible show areasIn _ _ = true); exact rfl) | with_reducible apply Only.ite | (apply Only.into; first
      | with_reducible apply State.noteVin_only
      | with_reducible apply State.commitDusk_only))

theorem State.belowCut_only (vin : Nat) (paid : Bool) (s : State) :
    Only [.mode, .log, .admin, .net, .time, .ses, .store, .power, .reg, .start, .outputs, .media, .journal, .watch, .fw] s (State.belowCut vin paid s) := by
  unfold State.belowCut
  repeat' (first
    | with_reducible exact Only.refl _ _ | with_reducible assumption
    | ((with_reducible show areasIn _ _ = true); exact rfl) | with_reducible apply Only.ite
    | (apply Only.into; with_reducible apply State.supplyDusk_only))

theorem State.collectNext_only (s : State) :
    Only [.media] s (State.collectNext s) := by
  unfold State.collectNext
  repeat' (first
    | with_reducible exact Only.refl _ _ | with_reducible assumption
    | ((with_reducible show areasIn _ _ = true); exact rfl) | with_reducible apply Only.ite
    | (apply Only.into; with_reducible apply State.request_only) | split)

theorem State.bgIdle_only (s : State) :
    Only [.clock, .media] s (State.bgIdle s) := by
  unfold State.bgIdle
  repeat' (first
    | with_reducible exact Only.refl _ _ | with_reducible assumption
    | ((with_reducible show areasIn _ _ = true); exact rfl) | (extract_lets +onlyGivenNames _x; first
      | (rename State => _y; refine Only.bring _y ?_ ?_; rotate_left; clear_value _y; intro _; rotate_right; subst _y)
      | (rename _ × State => _y; refine Only.bringSnd _y ?_ ?_; rotate_left; clear_value _y; intro _; rotate_right; subst _y)
      | skip)
    | with_reducible apply Only.ite | (apply Only.into; first
      | with_reducible apply State.waitUntil_only
      | with_reducible apply State.collectNext_only
      | with_reducible apply State.modMedia_only))

theorem State.blink_only (fault : Bool) (s : State) :
    Only [.clock, .start, .outputs] s (State.blink fault s) := by
  unfold State.blink
  repeat' (first
    | with_reducible exact Only.refl _ _ | with_reducible assumption
    | ((with_reducible show areasIn _ _ = true); exact rfl) | (extract_lets +onlyGivenNames _x; first
      | (rename State => _y; refine Only.bring _y ?_ ?_; rotate_left; clear_value _y; intro _; rotate_right; subst _y)
      | (rename _ × State => _y; refine Only.bringSnd _y ?_ ?_; rotate_left; clear_value _y; intro _; rotate_right; subst _y)
      | skip)
    | with_reducible apply Only.ite | (apply Only.into; first
      | with_reducible apply State.modStart_only
      | with_reducible apply State.waitUntil_only)
    | split)

theorem State.leaveReady_only (s : State) :
    Only [.mode, .start, .outputs] s (State.leaveReady s) := by
  unfold State.leaveReady
  repeat' (first
    | with_reducible exact Only.refl _ _ | with_reducible assumption
    | ((with_reducible show areasIn _ _ = true); exact rfl) | with_reducible apply Only.ite | (apply Only.into; first
      | with_reducible apply State.modStart_only
      | with_reducible apply State.setMode_only))

theorem State.leaveBrace_only (s : State) :
    Only [.mode, .log, .power, .reg, .start, .outputs, .media, .fw] s (State.leaveBrace s) := by
  unfold State.leaveBrace
  repeat' (first
    | with_reducible exact Only.refl _ _ | with_reducible assumption
    | ((with_reducible show areasIn _ _ = true); exact rfl) | (extract_lets +onlyGivenNames _x; first
      | (rename State => _y; refine Only.bring _y ?_ ?_; rotate_left; clear_value _y; intro _; rotate_right; subst _y)
      | (rename _ × State => _y; refine Only.bringSnd _y ?_ ?_; rotate_left; clear_value _y; intro _; rotate_right; subst _y)
      | skip)
    | (apply Only.into; first
      | with_reducible apply State.logEpisode_only
      | with_reducible apply State.takeFallback_only
      | with_reducible apply State.kickAll_only
      | with_reducible apply State.leaveReady_only
      | with_reducible apply State.resumeCharge_only
      | with_reducible apply State.modPower_only
      | with_reducible apply State.setMode_only)
    | split)

theorem State.braceExit_only (vin : Nat) (s : State) :
    Only [.mode, .clock, .log, .power, .reg, .start, .outputs, .media, .fw] s (State.braceExit vin s) := by
  unfold State.braceExit
  repeat' (first
    | with_reducible exact Only.refl _ _ | with_reducible assumption
    | ((with_reducible show areasIn _ _ = true); exact rfl) | (extract_lets +onlyGivenNames _x; first
      | (rename State => _y; refine Only.bring _y ?_ ?_; rotate_left; clear_value _y; intro _; rotate_right; subst _y)
      | (rename _ × State => _y; refine Only.bringSnd _y ?_ ?_; rotate_left; clear_value _y; intro _; rotate_right; subst _y)
      | skip)
    | with_reducible apply Only.ite | (apply Only.into; first
      | with_reducible apply State.noteVin_only
      | with_reducible apply State.modPower_only
      | with_reducible apply State.leaveBrace_only
      | with_reducible apply State.waitUntil_only)
    | split)

theorem State.sayFrameFault_only (e : Sess) (h : Header) (rx : Rx) (status : Nat) (reason : Nat) (s : State) :
    Only [.log, .net, .ses] s (State.sayFrameFault e h rx status reason s) := by
  unfold State.sayFrameFault
  repeat' (first
    | with_reducible exact Only.refl _ _ | with_reducible assumption
    | ((with_reducible show areasIn _ _ = true); exact rfl) | (extract_lets +onlyGivenNames _x; first
      | (rename State => _y; refine Only.bring _y ?_ ?_; rotate_left; clear_value _y; intro _; rotate_right; subst _y)
      | (rename _ × State => _y; refine Only.bringSnd _y ?_ ?_; rotate_left; clear_value _y; intro _; rotate_right; subst _y)
      | skip)
    | with_reducible apply Only.ite | (apply Only.into; with_reducible apply State.failBare_only))

theorem State.count_only (k : DevCounter) (n : Nat) (s : State) :
    Only [.net] s (State.count k n s) := by
  unfold State.count
  repeat' (first
    | with_reducible exact Only.refl _ _ | ((with_reducible show areasIn _ _ = true); exact rfl)
    | (apply Only.into; with_reducible apply State.modNet_only))

theorem State.resend_only (e : Sess) (c : CacheEntry) (rx : Rx) (s : State) :
    Only [.net, .ses] s (State.resend e c rx s) := by
  unfold State.resend
  repeat' (first
    | with_reducible exact Only.refl _ _ | with_reducible assumption
    | ((with_reducible show areasIn _ _ = true); exact rfl) | (extract_lets +onlyGivenNames _x; first
      | (rename State => _y; refine Only.bring _y ?_ ?_; rotate_left; clear_value _y; intro _; rotate_right; subst _y)
      | (rename _ × State => _y; refine Only.bringSnd _y ?_ ?_; rotate_left; clear_value _y; intro _; rotate_right; subst _y)
      | skip)
    | with_reducible apply Only.ite | (apply Only.into; first
      | with_reducible apply State.modSess_only
      | with_reducible apply State.say_only
      | with_reducible apply State.count_only))

theorem State.judgeAlive_only (e : Sess) (alive : Nat) (s : State) :
    Only [.net, .ses] s (State.judgeAlive e alive s).2 := by
  unfold State.judgeAlive
  repeat' (first
    | with_reducible exact Only.refl _ _ | with_reducible assumption
    | ((with_reducible show areasIn _ _ = true); exact rfl) | (extract_lets +onlyGivenNames _x; first
      | (rename State => _y; refine Only.bring _y ?_ ?_; rotate_left; clear_value _y; intro _; rotate_right; subst _y)
      | (rename _ × State => _y; refine Only.bringSnd _y ?_ ?_; rotate_left; clear_value _y; intro _; rotate_right; subst _y)
      | skip)
    | with_reducible apply Only.ite | (apply Only.into; first
      | with_reducible apply State.count_only
      | with_reducible apply State.modSess_only))

theorem State.judgeAlive_only_eq {e : Sess} {alive : Nat} {s : State} {p : _} {t : State} (h : State.judgeAlive e alive s = (p, t)) :
    Only [.net, .ses] s t := by
  have k := State.judgeAlive_only e alive s
  rw [h] at k
  exact k

theorem State.noteAdmission_only (admitAt : Nat) (s : State) :
    Only [.time] s (State.noteAdmission admitAt s) := by
  unfold State.noteAdmission
  repeat' (first
    | with_reducible exact Only.refl _ _ | ((with_reducible show areasIn _ _ = true); exact rfl)
    | (apply Only.into; with_reducible apply State.modTime_only))

theorem State.fly_only (e : Sess) (a : Assembly) (admitAt : Nat) (s : State) :
    Only [.time, .ses] s (State.fly e a admitAt s) := by
  unfold State.fly
  repeat' (first
    | with_reducible exact Only.refl _ _ | with_reducible assumption
    | ((with_reducible show areasIn _ _ = true); exact rfl) | (extract_lets +onlyGivenNames _x; first
      | (rename State => _y; refine Only.bring _y ?_ ?_; rotate_left; clear_value _y; intro _; rotate_right; subst _y)
      | (rename _ × State => _y; refine Only.bringSnd _y ?_ ?_; rotate_left; clear_value _y; intro _; rotate_right; subst _y)
      | skip)
    | with_reducible apply Only.ite | (apply Only.into; first
      | with_reducible apply State.noteAdmission_only
      | with_reducible apply State.modSess_only))

theorem State.judgeRequest_only (e : Sess) (a : Assembly) (s : State) :
    Only [.log, .net, .time, .ses] s (State.judgeRequest e a s).2 := by
  unfold State.judgeRequest
  repeat' (first
    | with_reducible exact Only.refl _ _ | with_reducible assumption
    | ((with_reducible show areasIn _ _ = true); exact rfl) | (extract_lets +onlyGivenNames _x; first
      | (rename State => _y; refine Only.bring _y ?_ ?_; rotate_left; clear_value _y; intro _; rotate_right; subst _y)
      | (rename _ × State => _y; refine Only.bringSnd _y ?_ ?_; rotate_left; clear_value _y; intro _; rotate_right; subst _y)
      | skip)
    | with_reducible apply Only.ite | (apply Only.into; first
      | with_reducible apply State.failBare_only
      | with_reducible apply State.fail_only
      | with_reducible apply State.count_only
      | with_reducible apply State.fly_only)
    | split)

theorem State.judgeRequest_only_eq {e : Sess} {a : Assembly} {s : State} {p : _} {t : State} (h : State.judgeRequest e a s = (p, t)) :
    Only [.log, .net, .time, .ses] s t := by
  have k := State.judgeRequest_only e a s
  rw [h] at k
  exact k

theorem State.refuseUnlisted_only (e : Sess) (a : Assembly) (s : State) :
    Only [.log, .net, .time, .ses] s (State.refuseUnlisted e a s) := by
  unfold State.refuseUnlisted
  repeat' (first
    | with_reducible exact Only.refl _ _ | with_reducible assumption
    | ((with_reducible show areasIn _ _ = true); exact rfl) | with_reducible apply Only.ite | (apply Only.into; first
      | with_reducible apply State.judgeRequest_only
      | (with_reducible apply State.judgeRequest_only_eq; assumption)
      | with_reducible apply State.fail_only)
    | split)

theorem State.putFrame_only (sid : Nat) (h : Header) (rx : Rx) (occ : Nat) (body : Bytes) (s : State) :
    Only [.log, .net, .time, .ses, .store, .media] s (State.putFrame sid h rx occ body s) := by
  unfold State.putFrame
  repeat' (first
    | with_reducible exact Only.refl _ _ | with_reducible assumption
    | ((with_reducible show areasIn _ _ = true); exact rfl) | (extract_lets +onlyGivenNames _x; first
      | (rename State => _y; refine Only.bring _y ?_ ?_; rotate_left; clear_value _y; intro _; rotate_right; subst _y)
      | (rename _ × State => _y; refine Only.bringSnd _y ?_ ?_; rotate_left; clear_value _y; intro _; rotate_right; subst _y)
      | skip)
    | with_reducible apply Only.ite | (apply Only.into; first
      | with_reducible apply State.release_only
      | with_reducible apply State.modSess_only
      | with_reducible apply State.endIncomplete_only
      | with_reducible apply State.fail_only
      | with_reducible apply State.endMessage_only
      | with_reducible apply State.refuseUnlisted_only
      | with_reducible apply State.takeMessage_only)
    | split)

theorem State.newMessage_only (e : Sess) (h : Header) (rx : Rx) (occ : Nat) (body : Bytes) (s : State) :
    Only [.log, .net, .time, .ses, .store, .media] s (State.newMessage e h rx occ body s) := by
  unfold State.newMessage
  repeat' (first
    | with_reducible exact Only.refl _ _ | with_reducible assumption
    | ((with_reducible show areasIn _ _ = true); exact rfl) | (extract_lets +onlyGivenNames _x; first
      | (rename State => _y; refine Only.bring _y ?_ ?_; rotate_left; clear_value _y; intro _; rotate_right; subst _y)
      | (rename _ × State => _y; refine Only.bringSnd _y ?_ ?_; rotate_left; clear_value _y; intro _; rotate_right; subst _y)
      | skip)
    | (apply Only.into; first
      | with_reducible apply State.judgeAlive_only
      | (with_reducible apply State.judgeAlive_only_eq; assumption)
      | with_reducible apply State.putFrame_only
      | with_reducible apply State.modSess_only)
    | split)

theorem State.joinDatagram_only (e : Sess) (h : Header) (rx : Rx) (occ : Nat) (body : Bytes) (s : State) :
    Only [.log, .net, .time, .ses, .store, .media] s (State.joinDatagram e h rx occ body s) := by
  unfold State.joinDatagram
  repeat' (first
    | with_reducible exact Only.refl _ _ | with_reducible assumption
    | ((with_reducible show areasIn _ _ = true); exact rfl) | (extract_lets +onlyGivenNames _x; first
      | (rename State => _y; refine Only.bring _y ?_ ?_; rotate_left; clear_value _y; intro _; rotate_right; subst _y)
      | (rename _ × State => _y; refine Only.bringSnd _y ?_ ?_; rotate_left; clear_value _y; intro _; rotate_right; subst _y)
      | skip)
    | with_reducible apply Only.ite | (apply Only.into; first
      | with_reducible apply State.count_only
      | with_reducible apply State.release_only
      | with_reducible apply State.putFrame_only
      | with_reducible apply State.resend_only
      | with_reducible apply State.endIncomplete_only
      | with_reducible apply State.newMessage_only)
    | split)

theorem State.endOthers_only (e : Sess) (kind : Nat) (msgId : Nat) (s : State) :
    Only [.log, .net, .ses, .store, .media] s (State.endOthers e kind msgId s) := by
  unfold State.endOthers
  repeat' (first
    | with_reducible exact Only.refl _ _ | with_reducible assumption
    | ((with_reducible show areasIn _ _ = true); exact rfl) | with_reducible apply Only.ite
    | (apply Only.into; with_reducible apply State.endIncomplete_only)
    | (with_reducible apply Only.foldl; (intro _ _)))

theorem State.joinOrdered_only (e : Sess) (h : Header) (rx : Rx) (occ : Nat) (body : Bytes) (s : State) :
    Only [.log, .net, .time, .ses, .store, .media] s (State.joinOrdered e h rx occ body s) := by
  unfold State.joinOrdered
  repeat' (first
    | with_reducible exact Only.refl _ _ | with_reducible assumption
    | ((with_reducible show areasIn _ _ = true); exact rfl) | (extract_lets +onlyGivenNames _x; first
      | (rename State => _y; refine Only.bring _y ?_ ?_; rotate_left; clear_value _y; intro _; rotate_right; subst _y)
      | (rename _ × State => _y; refine Only.bringSnd _y ?_ ?_; rotate_left; clear_value _y; intro _; rotate_right; subst _y)
      | skip)
    | with_reducible apply Only.ite | (apply Only.into; first
      | with_reducible apply State.endOthers_only
      | with_reducible apply State.putFrame_only
      | with_reducible apply State.release_only
      | with_reducible apply State.newMessage_only))

theorem State.handOn_only (k : Service) (rx : Rx) (payload : Bytes) (occ : Nat) (s : State) :
    Only [.net] s (State.handOn k rx payload occ s) := by
  unfold State.handOn
  repeat' (first
    | with_reducible exact Only.refl _ _ | ((with_reducible show areasIn _ _ = true); exact rfl)
    | (apply Only.into; with_reducible apply State.modNet_only))

theorem State.frameFault_only (e : Sess) (h : Header) (rx : Rx) (status : Nat) (reason : Nat) (s : State) :
    Only [.log, .net, .ses, .store, .media] s (State.frameFault e h rx status reason s) := by
  unfold State.frameFault
  repeat' (first
    | with_reducible exact Only.refl _ _ | with_reducible assumption
    | ((with_reducible show areasIn _ _ = true); exact rfl) | with_reducible apply Only.ite | (apply Only.into; first
      | with_reducible apply State.cutWrite_only
      | with_reducible apply State.sayFrameFault_only
      | with_reducible apply State.endMessage_only
      | with_reducible apply State.noteEnded_only)
    | split)

theorem State.receiveOn_only (e : Sess) (h : Header) (rx : Rx) (occ : Nat) (b : Bytes) (s : State) :
    Only [.log, .admin, .net, .time, .ses, .store, .media, .fw] s (State.receiveOn e h rx occ b s) := by
  unfold State.receiveOn
  repeat' (first
    | with_reducible exact Only.refl _ _ | with_reducible assumption
    | ((with_reducible show areasIn _ _ = true); exact rfl) | (extract_lets +onlyGivenNames _x; first
      | (rename State => _y; refine Only.bring _y ?_ ?_; rotate_left; clear_value _y; intro _; rotate_right; subst _y)
      | (rename _ × State => _y; refine Only.bringSnd _y ?_ ?_; rotate_left; clear_value _y; intro _; rotate_right; subst _y)
      | skip)
    | with_reducible apply Only.ite | (apply Only.into; first
      | with_reducible apply State.count_only
      | with_reducible apply State.release_only
      | with_reducible apply State.frameFault_only
      | with_reducible apply State.handOn_only
      | with_reducible apply State.modSess_only
      | with_reducible apply State.dropSession_only
      | with_reducible apply State.endOthers_only
      | with_reducible apply State.joinDatagram_only
      | with_reducible apply State.joinOrdered_only)
    | split)

theorem State.sayRefusal_only (rx : Rx) (gen : Nat) (tenant : Nat) (msgId : Nat) (alive : Nat) (status : Nat) (reason : Nat) (s : State) :
    Only [.net] s (State.sayRefusal rx gen tenant msgId alive status reason s) := by
  unfold State.sayRefusal
  repeat' (first
    | with_reducible exact Only.refl _ _ | with_reducible assumption
    | ((with_reducible show areasIn _ _ = true); exact rfl) | with_reducible apply Only.ite
    | (apply Only.into; with_reducible apply State.sendLy_only))

theorem State.receive_only (ly2 : Bool) (own : Bool) (rx : Rx) (occ : Nat) (b : Bytes) (s : State) :
    Only [.log, .admin, .net, .time, .ses, .store, .media, .fw] s (State.receive ly2 own rx occ b s) := by
  unfold State.receive
  repeat' (first
    | with_reducible exact Only.refl _ _ | with_reducible assumption
    | ((with_reducible show areasIn _ _ = true); exact rfl) | (extract_lets +onlyGivenNames _x; first
      | (rename State => _y; refine Only.bring _y ?_ ?_; rotate_left; clear_value _y; intro _; rotate_right; subst _y)
      | (rename _ × State => _y; refine Only.bringSnd _y ?_ ?_; rotate_left; clear_value _y; intro _; rotate_right; subst _y)
      | skip)
    | with_reducible apply Only.ite | (apply Only.into; first
      | with_reducible apply State.count_only
      | with_reducible apply State.release_only
      | with_reducible apply State.handOn_only
      | with_reducible apply State.sayRefusal_only
      | with_reducible apply State.receiveOn_only)
    | split)

theorem State.receiveIp4_only (rx : Rx) (occ : Nat) (b : Bytes) (s : State) :
    Only [.log, .admin, .net, .time, .ses, .store, .media, .fw] s (State.receiveIp4 rx occ b s) := by
  unfold State.receiveIp4
  repeat' (first
    | with_reducible exact Only.refl _ _ | with_reducible assumption
    | ((with_reducible show areasIn _ _ = true); exact rfl) | (extract_lets +onlyGivenNames _x; first
      | (rename State => _y; refine Only.bring _y ?_ ?_; rotate_left; clear_value _y; intro _; rotate_right; subst _y)
      | (rename _ × State => _y; refine Only.bringSnd _y ?_ ?_; rotate_left; clear_value _y; intro _; rotate_right; subst _y)
      | skip)
    | with_reducible apply Only.ite | (apply Only.into; first
      | with_reducible apply State.bump_only
      | with_reducible apply State.release_only
      | with_reducible apply State.handOn_only
      | with_reducible apply State.receive_only))

theorem State.pauseWhilePaused_only (q : Port) (s : State) :
    Only [.net] s (State.pauseWhilePaused q s) := by
  unfold State.pauseWhilePaused
  repeat' (first
    | with_reducible exact Only.refl _ _ | with_reducible assumption
    | ((with_reducible show areasIn _ _ = true); exact rfl) | (extract_lets +onlyGivenNames _x; first
      | (rename State => _y; refine Only.bring _y ?_ ?_; rotate_left; clear_value _y; intro _; rotate_right; subst _y)
      | (rename _ × State => _y; refine Only.bringSnd _y ?_ ?_; rotate_left; clear_value _y; intro _; rotate_right; subst _y)
      | skip)
    | with_reducible apply Only.ite | (apply Only.into; with_reducible apply State.modPort_only))

theorem State.receiveIp6_only (rx : Rx) (occ : Nat) (b : Bytes) (s : State) :
    Only [.log, .admin, .net, .time, .ses, .store, .media, .fw] s (State.receiveIp6 rx occ b s) := by
  unfold State.receiveIp6
  repeat' (first
    | with_reducible exact Only.refl _ _ | with_reducible assumption
    | ((with_reducible show areasIn _ _ = true); exact rfl) | (extract_lets +onlyGivenNames _x; first
      | (rename State => _y; refine Only.bring _y ?_ ?_; rotate_left; clear_value _y; intro _; rotate_right; subst _y)
      | (rename _ × State => _y; refine Only.bringSnd _y ?_ ?_; rotate_left; clear_value _y; intro _; rotate_right; subst _y)
      | skip)
    | with_reducible apply Only.ite | (apply Only.into; first
      | with_reducible apply State.bump_only
      | with_reducible apply State.release_only
      | with_reducible apply State.handOn_only
      | with_reducible apply State.receive_only))

theorem State.storeFrame_only (q : Port) (occ : Nat) (s : State) :
    Only [.net] s (State.storeFrame q occ s) := by
  unfold State.storeFrame
  repeat' (first
    | with_reducible exact Only.refl _ _ | with_reducible assumption
    | ((with_reducible show areasIn _ _ = true); exact rfl) | (extract_lets +onlyGivenNames _x; first
      | (rename State => _y; refine Only.bring _y ?_ ?_; rotate_left; clear_value _y; intro _; rotate_right; subst _y)
      | (rename _ × State => _y; refine Only.bringSnd _y ?_ ?_; rotate_left; clear_value _y; intro _; rotate_right; subst _y)
      | skip)
    | with_reducible apply Only.ite | (apply Only.into; first
      | with_reducible apply State.modNet_only
      | with_reducible apply State.modPort_only))

theorem State.endpoint_only (q : Port) (f : Frame) (stamp : Nat) (s : State) :
    Only [.log, .admin, .net, .time, .ses, .store, .media, .fw] s (State.endpoint q f stamp s) := by
  unfold State.endpoint
  repeat' (first
    | with_reducible exact Only.refl _ _ | with_reducible assumption
    | ((with_reducible show areasIn _ _ = true); exact rfl) | (extract_lets +onlyGivenNames _x; first
      | (rename State => _y; refine Only.bring _y ?_ ?_; rotate_left; clear_value _y; intro _; rotate_right; subst _y)
      | (rename _ × State => _y; refine Only.bringSnd _y ?_ ?_; rotate_left; clear_value _y; intro _; rotate_right; subst _y)
      | skip)
    | with_reducible apply Only.ite | (apply Only.into; first
      | with_reducible apply State.pauseWhilePaused_only
      | with_reducible apply State.count_only
      | with_reducible apply State.activity_only
      | with_reducible apply State.storeFrame_only
      | with_reducible apply State.receive_only
      | with_reducible apply State.handOn_only
      | with_reducible apply State.receiveIp4_only
      | with_reducible apply State.receiveIp6_only))

theorem State.forward_only (q : Port) (f : Frame) (bytes : Bytes) (s : State) :
    Only [.net] s (State.forward q f bytes s) := by
  unfold State.forward
  repeat' (first
    | with_reducible exact Only.refl _ _ | with_reducible assumption
    | ((with_reducible show areasIn _ _ = true); exact rfl) | (extract_lets +onlyGivenNames _x; first
      | (rename State => _y; refine Only.bring _y ?_ ?_; rotate_left; clear_value _y; intro _; rotate_right; subst _y)
      | (rename _ × State => _y; refine Only.bringSnd _y ?_ ?_; rotate_left; clear_value _y; intro _; rotate_right; subst _y)
      | skip)
    | with_reducible apply Only.ite | (apply Only.into; first
      | with_reducible apply State.bump_only
      | with_reducible apply State.modPort_only))

theorem State.learn_only (q : Port) (mac : Nat) (s : State) :
    Only [.net] s (State.learn q mac s) := by
  unfold State.learn
  repeat' (first
    | with_reducible exact Only.refl _ _ | with_reducible assumption
    | ((with_reducible show areasIn _ _ = true); exact rfl) | (extract_lets +onlyGivenNames _x; first
      | (rename State => _y; refine Only.bring _y ?_ ?_; rotate_left; clear_value _y; intro _; rotate_right; subst _y)
      | (rename _ × State => _y; refine Only.bringSnd _y ?_ ?_; rotate_left; clear_value _y; intro _; rotate_right; subst _y)
      | skip)
    | with_reducible apply Only.ite | (apply Only.into; first
      | with_reducible apply State.modNet_only
      | with_reducible apply State.count_only)
    | split)

theorem State.bridgeFrame_only (q : Port) (f : Frame) (stamp : Nat) (bytes : Bytes) (s : State) :
    Only [.log, .admin, .net, .time, .ses, .store, .media, .fw] s (State.bridgeFrame q f stamp bytes s) := by
  unfold State.bridgeFrame
  repeat' (first
    | with_reducible exact Only.refl _ _ | with_reducible assumption
    | ((with_reducible show areasIn _ _ = true); exact rfl) | (extract_lets +onlyGivenNames _x; first
      | (rename State => _y; refine Only.bring _y ?_ ?_; rotate_left; clear_value _y; intro _; rotate_right; subst _y)
      | (rename _ × State => _y; refine Only.bringSnd _y ?_ ?_; rotate_left; clear_value _y; intro _; rotate_right; subst _y)
      | skip)
    | with_reducible apply Only.ite | (apply Only.into; first
      | with_reducible apply State.learn_only
      | with_reducible apply State.endpoint_only
      | with_reducible apply State.forward_only
      | with_reducible apply State.count_only)
    | split)

theorem State.scaleAtLinkUp_only (q : Port) (speed : Nat) (s : State) :
    Only [.log, .net] s (State.scaleAtLinkUp q speed s) := by
  unfold State.scaleAtLinkUp
  repeat' (first
    | with_reducible exact Only.refl _ _ | with_reducible assumption
    | ((with_reducible show areasIn _ _ = true); exact rfl) | (extract_lets +onlyGivenNames _x; first
      | (rename State => _y; refine Only.bring _y ?_ ?_; rotate_left; clear_value _y; intro _; rotate_right; subst _y)
      | (rename _ × State => _y; refine Only.bringSnd _y ?_ ?_; rotate_left; clear_value _y; intro _; rotate_right; subst _y)
      | skip)
    | with_reducible apply Only.ite | (apply Only.into; first
      | with_reducible apply State.setSlopes_only
      | with_reducible apply State.event_only))

theorem State.noteDeadline_only (q : Port) (speed : Nat) (s : State) :
    Only [.log] s (State.noteDeadline q speed s) := by
  unfold State.noteDeadline
  repeat' (first
    | with_reducible exact Only.refl _ _ | with_reducible assumption
    | ((with_reducible show areasIn _ _ = true); exact rfl) | with_reducible apply Only.ite
    | (apply Only.into; with_reducible apply State.event_only))

end Sys2Proof.Machine
end

