-- ==== Sys2Proof/Laws/Frames4.lean ====
section
/-!
SUPPORT. What each operation of the machine can touch, one lemma for each, callees before callers; part 4 of 6.
-/
set_option linter.tactic.unusedName false
set_option linter.unusedSimpArgs false
namespace Sys2Proof.Machine

theorem State.bringUp_only (q : Port) (speed : Nat) (resolved : Bool) (s : State) :
    Only [.log, .admin, .net, .time, .ses, .start, .outputs, .fw] s (State.bringUp q speed resolved s) := by
  unfold State.bringUp
  repeat' (first
    | with_reducible exact Only.refl _ _ | with_reducible assumption
    | ((with_reducible show areasIn _ _ = true); exact rfl) | (extract_lets +onlyGivenNames _x; first
      | (rename State => _y; refine Only.bring _y ?_ ?_; rotate_left; clear_value _y; intro _; rotate_right; subst _y)
      | (rename _ × State => _y; refine Only.bringSnd _y ?_ ?_; rotate_left; clear_value _y; intro _; rotate_right; subst _y)
      | skip)
    | with_reducible apply Only.ite | (apply Only.into; first
      | with_reducible apply State.linkDown_only
      | with_reducible apply State.modPort_only
      | with_reducible apply State.noteDeadline_only
      | with_reducible apply State.scaleAtLinkUp_only
      | with_reducible apply State.modNet_only
      | with_reducible apply State.openLimit_only
      | with_reducible apply State.releaseKept_only
      | with_reducible apply State.unsolicited_only
      | with_reducible apply State.gratuitousArp_only
      | with_reducible apply State.sendDawn_only))

theorem State.cacheExpired_only (sid : Nat) (msgId : Nat) (s : State) :
    Only [.clock, .ses] s (State.cacheExpired sid msgId s) := by
  unfold State.cacheExpired
  repeat' (first
    | with_reducible exact Only.refl _ _ | with_reducible assumption
    | ((with_reducible show areasIn _ _ = true); exact rfl) | (apply Only.into; first
      | with_reducible apply State.modSess_only
      | with_reducible apply State.waitUntil_only)
    | split)

theorem State.cancel_only (sid : Nat) (msgId : Nat) (s : State) :
    Only [.log, .net, .time, .ses, .store, .media] s (State.cancel sid msgId s) := by
  unfold State.cancel
  repeat' (first
    | with_reducible exact Only.refl _ _ | with_reducible assumption
    | ((with_reducible show areasIn _ _ = true); exact rfl) | (extract_lets +onlyGivenNames _x; first
      | (rename State => _y; refine Only.bring _y ?_ ?_; rotate_left; clear_value _y; intro _; rotate_right; subst _y)
      | (rename _ × State => _y; refine Only.bringSnd _y ?_ ?_; rotate_left; clear_value _y; intro _; rotate_right; subst _y)
      | skip)
    | with_reducible apply Only.ite | (apply Only.into; first
      | with_reducible apply State.takeMessage_only
      | with_reducible apply State.noteAdmission_only
      | with_reducible apply State.answerCancel_only
      | with_reducible apply State.dropOps_only
      | with_reducible apply State.cancelFlight_only)
    | split)

theorem State.unlatch_only (k : Nat) (s : State) :
    Only [.log] s (State.unlatch k s) := by
  unfold State.unlatch
  repeat' (first
    | with_reducible exact Only.refl _ _ | ((with_reducible show areasIn _ _ = true); exact rfl)
    | (apply Only.into; with_reducible apply State.modLog_only))

theorem State.ch1Fails_only (s : State) :
    Only [.mode, .log, .power, .reg, .start, .outputs] s (State.ch1Fails s) := by
  unfold State.ch1Fails
  repeat' (first
    | with_reducible exact Only.refl _ _ | with_reducible assumption
    | ((with_reducible show areasIn _ _ = true); exact rfl) | (extract_lets +onlyGivenNames _x; first
      | (rename State => _y; refine Only.bring _y ?_ ?_; rotate_left; clear_value _y; intro _; rotate_right; subst _y)
      | (rename _ × State => _y; refine Only.bringSnd _y ?_ ?_; rotate_left; clear_value _y; intro _; rotate_right; subst _y)
      | skip)
    | with_reducible apply Only.ite | (apply Only.into; first
      | with_reducible apply State.modPower_only
      | with_reducible apply State.modReg_only
      | with_reducible apply State.unlatch_only
      | with_reducible apply State.event_only
      | with_reducible apply State.leaveReady_only))

theorem State.setClass_only (c : BankClass) (a : Nat) (uf : Nat) (esr : Nat) (s : State) :
    Only [.log, .power] s (State.setClass c a uf esr s) := by
  unfold State.setClass
  repeat' (first
    | with_reducible exact Only.refl _ _ | with_reducible assumption
    | ((with_reducible show areasIn _ _ = true); exact rfl) | (extract_lets +onlyGivenNames _x; first
      | (rename State => _y; refine Only.bring _y ?_ ?_; rotate_left; clear_value _y; intro _; rotate_right; subst _y)
      | (rename _ × State => _y; refine Only.bringSnd _y ?_ ?_; rotate_left; clear_value _y; intro _; rotate_right; subst _y)
      | skip)
    | with_reducible apply Only.ite | (apply Only.into; first
      | with_reducible apply State.modPower_only
      | with_reducible apply State.unlatch_only
      | with_reducible apply State.event_only)
    | split)

theorem State.chargeJudged_only (bankMv : Nat) (s : State) :
    Only [.mode, .clock, .log, .power, .start, .outputs] s (State.chargeJudged bankMv s) := by
  unfold State.chargeJudged
  repeat' (first
    | with_reducible exact Only.refl _ _ | with_reducible assumption
    | ((with_reducible show areasIn _ _ = true); exact rfl) | (extract_lets +onlyGivenNames _x; first
      | (rename State => _y; refine Only.bring _y ?_ ?_; rotate_left; clear_value _y; intro _; rotate_right; subst _y)
      | (rename _ × State => _y; refine Only.bringSnd _y ?_ ?_; rotate_left; clear_value _y; intro _; rotate_right; subst _y)
      | skip)
    | with_reducible apply Only.ite | (apply Only.into; first
      | with_reducible apply State.modPower_only
      | with_reducible apply State.waitUntil_only
      | with_reducible apply State.leaveReady_only
      | with_reducible apply State.setClass_only)
    | split)

theorem State.restartWarm_only (source : StartSource) (env : StartEnv) (s : State) :
    Only [.mode, .draws, .cfg, .log, .admin, .net, .ses, .store, .power, .reg, .start, .outputs, .media, .journal, .watch, .sec, .fw] s (State.restartWarm source env s) := by
  unfold State.restartWarm
  repeat' (first
    | with_reducible exact Only.refl _ _ | with_reducible assumption
    | ((with_reducible show areasIn _ _ = true); exact rfl) | (apply Only.into; first
      | with_reducible apply State.beginRun_only
      | with_reducible apply State.beginEscalated_only
      | with_reducible apply State.stopRecord_only
      | with_reducible apply State.modFw_only
      | with_reducible apply State.beginWarm_only)
    | split)

theorem State.watchInWarm_only (path : StartPath) (env : StartEnv) (s : State) :
    Only [.mode, .draws, .cfg, .log, .admin, .net, .ses, .store, .power, .reg, .start, .outputs, .media, .journal, .watch, .sec, .fw] s (State.watchInWarm path env s) := by
  unfold State.watchInWarm State.watchStarts
  repeat' (first
    | with_reducible exact Only.refl _ _ | with_reducible assumption
    | ((with_reducible show areasIn _ _ = true); exact rfl) | (extract_lets +onlyGivenNames _x; first
      | (rename State => _y; refine Only.bring _y ?_ ?_; rotate_left; clear_value _y; intro _; rotate_right; subst _y)
      | (rename _ × State => _y; refine Only.bringSnd _y ?_ ?_; rotate_left; clear_value _y; intro _; rotate_right; subst _y)
      | skip)
    | with_reducible apply Only.ite | (apply Only.into; first
      | with_reducible apply State.modWatch_only
      | with_reducible apply State.beginEscalated_only
      | with_reducible apply State.event_only
      | with_reducible apply State.abortJobs_only
      | with_reducible apply State.restartWarm_only)
    | split)

theorem State.watchExpires_only (violator : Option Nat) (env : StartEnv) (s : State) :
    Only [.mode, .clock, .draws, .cfg, .log, .admin, .net, .time, .ses, .store, .power, .reg, .start, .outputs, .media, .journal, .watch, .sec, .fw, .startCount] s (State.watchExpires violator env s) := by
  unfold State.watchExpires State.watchStarts
  repeat' (first
    | with_reducible exact Only.refl _ _ | with_reducible assumption
    | ((with_reducible show areasIn _ _ = true); exact rfl) | (extract_lets +onlyGivenNames _x; first
      | (rename State => _y; refine Only.bring _y ?_ ?_; rotate_left; clear_value _y; intro _; rotate_right; subst _y)
      | (rename _ × State => _y; refine Only.bringSnd _y ?_ ?_; rotate_left; clear_value _y; intro _; rotate_right; subst _y)
      | skip)
    | with_reducible apply Only.ite | (apply Only.into; first
      | with_reducible apply State.modWatch_only
      | with_reducible apply State.event_only
      | with_reducible apply State.runStart_only
      | with_reducible apply State.beginRun_only
      | with_reducible apply State.stopWatch_only
      | with_reducible apply State.abortJobs_only
      | with_reducible apply State.watchInWarm_only
      | with_reducible apply State.beginEscalated_only
      | with_reducible apply State.orderlyStop_only
      | with_reducible apply State.beginWarm_only)
    | split)

theorem State.checkSlots_only (env : StartEnv) (x1 : List Nat) (x2 : State) :
    Only [.mode, .clock, .draws, .cfg, .log, .admin, .net, .time, .ses, .store, .power, .reg, .start, .outputs, .media, .journal, .watch, .sec, .fw, .startCount] x2 (State.checkSlots env x1 x2) := by
  induction x1 generalizing x2 with
  | nil => exact Only.refl _ _
  | cons n rest ih =>
    unfold State.checkSlots
    dsimp only
    refine Only.ite (Only.into (State.watchExpires_only _ _ _) rfl (Only.refl _ _)) (Only.ite
      (Only.into (State.watchExpires_only _ _ _) rfl (Only.refl _ _)) (Only.ite ?_ ?_))
    · exact (Only.into (State.modWatch_only _ _) rfl (Only.refl _ _)).trans (ih _)
    · exact Only.into (State.modWatch_only _ _) rfl (Only.refl _ _)

theorem State.checkIn_only (activity : Nat) (env : StartEnv) (s : State) :
    Only [.mode, .clock, .draws, .cfg, .log, .admin, .net, .time, .ses, .store, .power, .reg, .start, .outputs, .media, .journal, .watch, .sec, .fw, .startCount] s (State.checkIn activity env s) := by
  unfold State.checkIn
  repeat' (first
    | with_reducible exact Only.refl _ _ | with_reducible assumption
    | ((with_reducible show areasIn _ _ = true); exact rfl) | with_reducible apply Only.ite
    | (apply Only.into; with_reducible apply State.checkSlots_only))

theorem State.checkMismatch_only (r : RequestRef) (page : Nat) (s : State) :
    Only [.log, .media] s (State.checkMismatch r page s) := by
  unfold State.checkMismatch
  repeat' (first
    | with_reducible exact Only.refl _ _ | with_reducible assumption
    | ((with_reducible show areasIn _ _ = true); exact rfl) | (extract_lets +onlyGivenNames _x; first
      | (rename State => _y; refine Only.bring _y ?_ ?_; rotate_left; clear_value _y; intro _; rotate_right; subst _y)
      | (rename _ × State => _y; refine Only.bringSnd _y ?_ ?_; rotate_left; clear_value _y; intro _; rotate_right; subst _y)
      | skip)
    | (apply Only.into; first
      | with_reducible apply State.request_only
      | with_reducible apply State.eventFor_only))

theorem State.checkOvercast_only (s : State) :
    Only [.mode, .log, .power, .start, .outputs, .media] s (State.checkOvercast s) := by
  unfold State.checkOvercast
  repeat' (first
    | with_reducible exact Only.refl _ _ | with_reducible assumption
    | ((with_reducible show areasIn _ _ = true); exact rfl) | (extract_lets +onlyGivenNames _x; first
      | (rename State => _y; refine Only.bring _y ?_ ?_; rotate_left; clear_value _y; intro _; rotate_right; subst _y)
      | (rename _ × State => _y; refine Only.bringSnd _y ?_ ?_; rotate_left; clear_value _y; intro _; rotate_right; subst _y)
      | skip)
    | with_reducible apply Only.ite | with_reducible apply Only.when | (apply Only.into; first
      | with_reducible apply State.modMedia_only
      | with_reducible apply State.event_only
      | with_reducible apply State.modStart_only
      | with_reducible apply State.setMode_only
      | with_reducible apply State.modPower_only)
    | split)

theorem State.checkSpace_only (s : State) :
    Only [.log, .media] s (State.checkSpace s) := by
  unfold State.checkSpace
  repeat' (first
    | with_reducible exact Only.refl _ _ | with_reducible assumption
    | ((with_reducible show areasIn _ _ = true); exact rfl) | (extract_lets +onlyGivenNames _x; first
      | (rename State => _y; refine Only.bring _y ?_ ?_; rotate_left; clear_value _y; intro _; rotate_right; subst _y)
      | (rename _ × State => _y; refine Only.bringSnd _y ?_ ?_; rotate_left; clear_value _y; intro _; rotate_right; subst _y)
      | skip)
    | with_reducible apply Only.ite | (apply Only.into; first
      | with_reducible apply State.event_only
      | with_reducible apply State.modMedia_only
      | with_reducible apply State.collectNext_only))

theorem State.checkWarnings_only (s : State) :
    Only [.log, .media] s (State.checkWarnings s) := by
  unfold State.checkWarnings
  repeat' (first
    | with_reducible exact Only.refl _ _ | with_reducible assumption
    | ((with_reducible show areasIn _ _ = true); exact rfl) | (extract_lets +onlyGivenNames _x; first
      | (rename State => _y; refine Only.bring _y ?_ ?_; rotate_left; clear_value _y; intro _; rotate_right; subst _y)
      | (rename _ × State => _y; refine Only.bringSnd _y ?_ ?_; rotate_left; clear_value _y; intro _; rotate_right; subst _y)
      | skip)
    | with_reducible apply Only.ite | (apply Only.into; first
      | with_reducible apply State.event_only
      | with_reducible apply State.modMedia_only))

theorem State.collapsed_only (vin : Nat) (reverse : Bool) (paid : Bool) (s : State) :
    Only [.mode, .log, .admin, .net, .time, .ses, .store, .power, .reg, .start, .outputs, .media, .journal, .watch, .fw] s (State.collapsed vin reverse paid s) := by
  unfold State.collapsed
  repeat' (first
    | with_reducible exact Only.refl _ _ | with_reducible assumption
    | ((with_reducible show areasIn _ _ = true); exact rfl) | with_reducible apply Only.ite
    | (apply Only.into; with_reducible apply State.supplyDusk_only))

theorem State.commit_only (a : Ask) (s : State) :
    Only [.ses] s (State.commit a s) := by
  unfold State.commit
  repeat' (first
    | with_reducible exact Only.refl _ _ | ((with_reducible show areasIn _ _ = true); exact rfl)
    | (apply Only.into; with_reducible apply State.modFlight_only))

theorem State.switchOn_only (s : State) :
    Only [.cfg, .power] s (State.switchOn s) := by
  unfold State.switchOn
  repeat' (first
    | with_reducible exact Only.refl _ _ | with_reducible assumption
    | ((with_reducible show areasIn _ _ = true); exact rfl) | (extract_lets +onlyGivenNames _x; first
      | (rename State => _y; refine Only.bring _y ?_ ?_; rotate_left; clear_value _y; intro _; rotate_right; subst _y)
      | (rename _ × State => _y; refine Only.bringSnd _y ?_ ?_; rotate_left; clear_value _y; intro _; rotate_right; subst _y)
      | skip)
    | (apply Only.into; first
      | with_reducible apply State.modPower_only
      | with_reducible apply State.modCfg_only))

theorem State.cooled_only (env : StartEnv) (s : State) :
    Only [.mode, .clock, .draws, .cfg, .log, .admin, .net, .time, .ses, .store, .power, .reg, .start, .outputs, .media, .journal, .watch, .sec, .fw, .startCount] s (State.cooled env s) := by
  unfold State.cooled
  repeat' (first
    | with_reducible exact Only.refl _ _ | with_reducible assumption
    | ((with_reducible show areasIn _ _ = true); exact rfl) | with_reducible apply Only.ite | (apply Only.into; first
      | with_reducible apply State.runStart_only
      | with_reducible apply State.beginCold_only
      | with_reducible apply State.switchOn_only))

theorem State.setRate_only (ppb : Int) (s : State) :
    Only [.time] s (State.setRate ppb s) := by
  unfold State.setRate
  repeat' (first
    | with_reducible exact Only.refl _ _ | ((with_reducible show areasIn _ _ = true); exact rfl)
    | (apply Only.into; with_reducible apply State.modTime_only))

theorem State.realignGates_only (q : Port) (s : State) :
    Only [.net] s (State.realignGates q s) := by
  unfold State.realignGates
  repeat' (first
    | with_reducible exact Only.refl _ _ | with_reducible assumption
    | ((with_reducible show areasIn _ _ = true); exact rfl) | with_reducible apply Only.ite
    | (apply Only.into; with_reducible apply State.modPort_only))

theorem State.stepTime_only (delta : Int) (s : State) :
    Only [.log, .net, .time] s (State.stepTime delta s) := by
  unfold State.stepTime
  repeat' (first
    | with_reducible exact Only.refl _ _ | with_reducible assumption
    | ((with_reducible show areasIn _ _ = true); exact rfl) | (extract_lets +onlyGivenNames _x; first
      | (rename State => _y; refine Only.bring _y ?_ ?_; rotate_left; clear_value _y; intro _; rotate_right; subst _y)
      | (rename _ × State => _y; refine Only.bringSnd _y ?_ ?_; rotate_left; clear_value _y; intro _; rotate_right; subst _y)
      | skip)
    | with_reducible apply Only.ite | (apply Only.into; first
      | with_reducible apply State.setTime_only
      | with_reducible apply State.realignGates_only
      | with_reducible apply State.event_only)
    | split)

theorem State.correct_only (offset : Int) (s : State) :
    Only [.draws, .log, .net, .time] s (State.correct offset s) := by
  unfold State.correct
  repeat' (first
    | with_reducible exact Only.refl _ _ | with_reducible assumption
    | ((with_reducible show areasIn _ _ = true); exact rfl) | with_reducible apply Only.ite | (apply Only.into; first
      | with_reducible apply State.draw_only
      | (with_reducible apply State.draw_only_eq; assumption)
      | with_reducible apply State.setRate_only
      | with_reducible apply State.stepTime_only)
    | split)

theorem State.countReads_only (n : Nat) (b : BlockId) (s : State) :
    Only [.media] s (State.countReads n b s) := by
  unfold State.countReads
  repeat' (first
    | with_reducible exact Only.refl _ _ | with_reducible assumption
    | ((with_reducible show areasIn _ _ = true); exact rfl) | (extract_lets +onlyGivenNames _x; first
      | (rename State => _y; refine Only.bring _y ?_ ?_; rotate_left; clear_value _y; intro _; rotate_right; subst _y)
      | (rename _ × State => _y; refine Only.bringSnd _y ?_ ?_; rotate_left; clear_value _y; intro _; rotate_right; subst _y)
      | skip)
    | with_reducible apply Only.ite | (apply Only.into; first
      | with_reducible apply State.modMedia_only
      | with_reducible apply State.addOp_only))

theorem State.moveOne_only (gone : Nat → Bool) (p : Placement) (s : State) :
    Only [.media, .journal] s (State.moveOne gone p s) := by
  unfold State.moveOne
  repeat' (first
    | with_reducible exact Only.refl _ _ | with_reducible assumption
    | ((with_reducible show areasIn _ _ = true); exact rfl) | (extract_lets +onlyGivenNames _x; first
      | (rename State => _y; refine Only.bring _y ?_ ?_; rotate_left; clear_value _y; intro _; rotate_right; subst _y)
      | (rename _ × State => _y; refine Only.bringSnd _y ?_ ?_; rotate_left; clear_value _y; intro _; rotate_right; subst _y)
      | skip)
    | with_reducible apply Only.ite | (apply Only.into; first
      | with_reducible apply State.programData_only
      | (with_reducible apply State.programData_only_eq; assumption)
      | with_reducible apply State.countReads_only
      | with_reducible apply State.modMedia_only)
    | (with_reducible apply Only.foldl; (intro _ _)) | split)

theorem State.relocate_only (gone : Nat → Bool) (touches : Nat → Bool) (s : State) :
    Only [.media, .journal] s (State.relocate gone touches s) := by
  unfold State.relocate
  repeat' (first
    | with_reducible exact Only.refl _ _ | with_reducible assumption
    | ((with_reducible show areasIn _ _ = true); exact rfl)
    | (apply Only.into; with_reducible apply State.moveOne_only) | (with_reducible apply Only.foldl; (intro _ _)))

theorem State.failDie_only (d : Nat) (s : State) :
    Only [.mode, .log, .power, .start, .outputs, .media, .journal] s (State.failDie d s) := by
  unfold State.failDie
  repeat' (first
    | with_reducible exact Only.refl _ _ | with_reducible assumption
    | ((with_reducible show areasIn _ _ = true); exact rfl) | (extract_lets +onlyGivenNames _x; first
      | (rename State => _y; refine Only.bring _y ?_ ?_; rotate_left; clear_value _y; intro _; rotate_right; subst _y)
      | (rename _ × State => _y; refine Only.bringSnd _y ?_ ?_; rotate_left; clear_value _y; intro _; rotate_right; subst _y)
      | skip)
    | with_reducible apply Only.ite | (apply Only.into; first
      | with_reducible apply State.modMedia_only
      | with_reducible apply State.modJournal_only
      | with_reducible apply State.event_only
      | with_reducible apply State.fillRow_only
      | with_reducible apply State.relocate_only
      | with_reducible apply State.endVerify_only
      | with_reducible apply State.checkSpace_only
      | with_reducible apply State.checkOvercast_only
      | with_reducible apply State.checkWarnings_only
      | with_reducible apply State.mapChanged_only)
    | (with_reducible apply Only.foldl; (intro _ _)))

theorem State.countFailure_only (d : Nat) (s : State) :
    Only [.mode, .log, .power, .start, .outputs, .media, .journal] s (State.countFailure d s) := by
  unfold State.countFailure
  repeat' (first
    | with_reducible exact Only.refl _ _ | with_reducible assumption
    | ((with_reducible show areasIn _ _ = true); exact rfl) | (extract_lets +onlyGivenNames _x; first
      | (rename State => _y; refine Only.bring _y ?_ ?_; rotate_left; clear_value _y; intro _; rotate_right; subst _y)
      | (rename _ × State => _y; refine Only.bringSnd _y ?_ ?_; rotate_left; clear_value _y; intro _; rotate_right; subst _y)
      | skip)
    | with_reducible apply Only.ite | (apply Only.into; first
      | with_reducible apply State.modMedia_only
      | with_reducible apply State.failDie_only))

theorem State.credentialChanged_only (t : Nat) (s : State) :
    Only [.log, .admin, .ses, .fw] s (State.credentialChanged t s) := by
  unfold State.credentialChanged
  repeat' (first
    | with_reducible exact Only.refl _ _ | with_reducible assumption
    | ((with_reducible show areasIn _ _ = true); exact rfl) | (extract_lets +onlyGivenNames _x; first
      | (rename State => _y; refine Only.bring _y ?_ ?_; rotate_left; clear_value _y; intro _; rotate_right; subst _y)
      | (rename _ × State => _y; refine Only.bringSnd _y ?_ ?_; rotate_left; clear_value _y; intro _; rotate_right; subst _y)
      | skip)
    | (apply Only.into; first
      | with_reducible apply State.event_only
      | with_reducible apply State.removeSess_only)
    | (with_reducible apply Only.foldl; (intro _ _)) | split)

theorem State.creditBit_only (q : Port) (cls : Nat) (s : State) :
    Only [.net] s (State.creditBit q cls s) := by
  unfold State.creditBit
  repeat' (first
    | with_reducible exact Only.refl _ _ | with_reducible assumption
    | ((with_reducible show areasIn _ _ = true); exact rfl) | (extract_lets +onlyGivenNames _x; first
      | (rename State => _y; refine Only.bring _y ?_ ?_; rotate_left; clear_value _y; intro _; rotate_right; subst _y)
      | (rename _ × State => _y; refine Only.bringSnd _y ?_ ?_; rotate_left; clear_value _y; intro _; rotate_right; subst _y)
      | skip)
    | with_reducible apply Only.ite | (apply Only.into; with_reducible apply State.modPort_only) | split)

theorem State.dawnRepeat_only (s : State) :
    Only [.clock, .net, .start, .outputs] s (State.dawnRepeat s) := by
  unfold State.dawnRepeat
  repeat' (first
    | with_reducible exact Only.refl _ _ | with_reducible assumption
    | ((with_reducible show areasIn _ _ = true); exact rfl) | (extract_lets +onlyGivenNames _x; first
      | (rename State => _y; refine Only.bring _y ?_ ?_; rotate_left; clear_value _y; intro _; rotate_right; subst _y)
      | (rename _ × State => _y; refine Only.bringSnd _y ?_ ?_; rotate_left; clear_value _y; intro _; rotate_right; subst _y)
      | skip)
    | with_reducible apply Only.ite | (apply Only.into; first
      | with_reducible apply State.waitUntil_only
      | with_reducible apply State.sendDawn_only
      | with_reducible apply State.modStart_only)
    | split)

theorem State.dawnSolicited_only (s : State) :
    Only [.net] s (State.dawnSolicited s) := by
  unfold State.dawnSolicited
  repeat' (first
    | with_reducible exact Only.refl _ _ | with_reducible assumption
    | ((with_reducible show areasIn _ _ = true); exact rfl) | with_reducible apply Only.ite | (apply Only.into; first
      | with_reducible apply State.takeFrame_only
      | (with_reducible apply State.takeFrame_only_eq; assumption)
      | with_reducible apply State.sendDawn_only
      | with_reducible apply State.modPort_only
      | with_reducible apply State.count_only)
    | split)

theorem State.retire_only (b : BlockId) (s : State) :
    Only [.mode, .log, .power, .start, .outputs, .media, .journal] s (State.retire b s) := by
  unfold State.retire
  repeat' (first
    | with_reducible exact Only.refl _ _ | with_reducible assumption
    | ((with_reducible show areasIn _ _ = true); exact rfl) | (extract_lets +onlyGivenNames _x; first
      | (rename State => _y; refine Only.bring _y ?_ ?_; rotate_left; clear_value _y; intro _; rotate_right; subst _y)
      | (rename _ × State => _y; refine Only.bringSnd _y ?_ ?_; rotate_left; clear_value _y; intro _; rotate_right; subst _y)
      | skip)
    | with_reducible apply Only.ite | (apply Only.into; first
      | with_reducible apply State.modMedia_only
      | with_reducible apply State.fillRow_only
      | with_reducible apply State.relocate_only
      | with_reducible apply State.modJournal_only
      | with_reducible apply State.checkOvercast_only
      | with_reducible apply State.checkWarnings_only
      | with_reducible apply State.mapChanged_only
      | with_reducible apply State.event_only)
    | (with_reducible apply Only.foldl; (intro _ _)) | split | dsimp +zetaDelta only)

theorem State.track_only (b : BlockId) (index : Nat) (s : State) :
    Only [.media] s (State.track b index s) := by
  unfold State.track
  repeat' (first
    | with_reducible exact Only.refl _ _ | with_reducible assumption
    | ((with_reducible show areasIn _ _ = true); exact rfl)
    | (apply Only.into; with_reducible apply State.modMedia_only) | split)

theorem State.noteDifficult_only (b : BlockId) (step : Nat) (index : Nat) (s : State) :
    Only [.media] s (State.noteDifficult b step index s) := by
  unfold State.noteDifficult
  repeat' (first
    | with_reducible exact Only.refl _ _ | with_reducible assumption
    | ((with_reducible show areasIn _ _ = true); exact rfl) | with_reducible apply Only.ite
    | with_reducible apply Only.when | (apply Only.into; first
      | with_reducible apply State.track_only
      | with_reducible apply State.addOp_only))

theorem State.countPages_only (o : DieOp) (step : Nat) (index : Nat) (s : State) :
    Only [.media] s (State.countPages o step index s) := by
  unfold State.countPages
  repeat' (first
    | with_reducible exact Only.refl _ _ | with_reducible assumption
    | ((with_reducible show areasIn _ _ = true); exact rfl) | (extract_lets +onlyGivenNames _x; first
      | (rename State => _y; refine Only.bring _y ?_ ?_; rotate_left; clear_value _y; intro _; rotate_right; subst _y)
      | (rename _ × State => _y; refine Only.bringSnd _y ?_ ?_; rotate_left; clear_value _y; intro _; rotate_right; subst _y)
      | skip)
    | (apply Only.into; with_reducible apply State.countReads_only) | (with_reducible apply Only.foldl; (intro _ _)))

theorem State.scopeDone_only (sc : Scope) (s : State) :
    Only [.media, .journal] s (State.scopeDone sc s) := by
  unfold State.scopeDone
  repeat' (first
    | with_reducible exact Only.refl _ _ | with_reducible assumption
    | ((with_reducible show areasIn _ _ = true); exact rfl) | (extract_lets +onlyGivenNames _x; first
      | (rename State => _y; refine Only.bring _y ?_ ?_; rotate_left; clear_value _y; intro _; rotate_right; subst _y)
      | (rename _ × State => _y; refine Only.bringSnd _y ?_ ?_; rotate_left; clear_value _y; intro _; rotate_right; subst _y)
      | skip)
    | with_reducible apply Only.ite | (apply Only.into; first
      | with_reducible apply State.mapChanged_only
      | with_reducible apply State.modMedia_only)
    | (with_reducible apply Only.foldl; (intro _ _)) | split)

theorem State.moveNext_only (sc : Scope) (s : State) :
    Only [.media, .journal] s (State.moveNext sc s) := by
  unfold State.moveNext
  repeat' (first
    | with_reducible exact Only.refl _ _ | with_reducible assumption
    | ((with_reducible show areasIn _ _ = true); exact rfl) | with_reducible apply Only.ite | (apply Only.into; first
      | with_reducible apply State.scopeDone_only
      | with_reducible apply State.addOp_only)
    | split)

theorem State.endRead_only (o : DieOp) (step : Nat) (index : Nat) (corrected : Nat) (s : State) :
    Only [.mode, .log, .power, .start, .outputs, .media, .journal] s (State.endRead o step index corrected s) := by
  unfold State.endRead
  repeat' (first
    | with_reducible exact Only.refl _ _ | with_reducible assumption
    | ((with_reducible show areasIn _ _ = true); exact rfl) | (extract_lets +onlyGivenNames _x; first
      | (rename State => _y; refine Only.bring _y ?_ ?_; rotate_left; clear_value _y; intro _; rotate_right; subst _y)
      | (rename _ × State => _y; refine Only.bringSnd _y ?_ ?_; rotate_left; clear_value _y; intro _; rotate_right; subst _y)
      | skip)
    | with_reducible apply Only.ite | with_reducible apply Only.when | (apply Only.into; first
      | with_reducible apply State.noteDifficult_only
      | with_reducible apply State.countPages_only
      | with_reducible apply State.retire_only
      | with_reducible apply State.endVerify_only
      | with_reducible apply State.track_only
      | with_reducible apply State.moveNext_only
      | with_reducible apply State.modMedia_only
      | with_reducible apply State.addOp_only)
    | split)

theorem State.endErase_only (b : BlockId) (s : State) :
    Only [.media] s (State.endErase b s) := by
  unfold State.endErase
  repeat' (first
    | with_reducible exact Only.refl _ _ | with_reducible assumption
    | ((with_reducible show areasIn _ _ = true); exact rfl) | (extract_lets +onlyGivenNames _x; first
      | (rename State => _y; refine Only.bring _y ?_ ?_; rotate_left; clear_value _y; intro _; rotate_right; subst _y)
      | (rename _ × State => _y; refine Only.bringSnd _y ?_ ?_; rotate_left; clear_value _y; intro _; rotate_right; subst _y)
      | skip)
    | (apply Only.into; with_reducible apply State.modMedia_only))

theorem State.requestDrain_only (id : Nat) (s : State) :
    Only [.media] s (State.requestDrain id s) := by
  unfold State.requestDrain
  repeat' (first
    | with_reducible exact Only.refl _ _ | with_reducible assumption
    | ((with_reducible show areasIn _ _ = true); exact rfl)
    | (apply Only.into; with_reducible apply State.request_only) | split)

theorem State.programFailed_only (id : Nat) (addr : Nat) (s : State) :
    Only [.log, .store, .media] s (State.programFailed id addr s) := by
  unfold State.programFailed
  repeat' (first
    | with_reducible exact Only.refl _ _ | with_reducible assumption
    | ((with_reducible show areasIn _ _ = true); exact rfl) | (extract_lets +onlyGivenNames _x; first
      | (rename State => _y; refine Only.bring _y ?_ ?_; rotate_left; clear_value _y; intro _; rotate_right; subst _y)
      | (rename _ × State => _y; refine Only.bringSnd _y ?_ ?_; rotate_left; clear_value _y; intro _; rotate_right; subst _y)
      | skip)
    | with_reducible apply Only.ite | (apply Only.into; first
      | with_reducible apply State.modStore_only
      | with_reducible apply State.event_only
      | with_reducible apply State.requestDrain_only)
    | split)

theorem State.losePage_only (r : Option RequestRef) (addr : Nat) (s : State) :
    Only [.mode, .log, .power, .start, .outputs, .media, .journal] s (State.losePage r addr s) := by
  unfold State.losePage
  repeat' (first
    | with_reducible exact Only.refl _ _ | with_reducible assumption
    | ((with_reducible show areasIn _ _ = true); exact rfl) | (extract_lets +onlyGivenNames _x; first
      | (rename State => _y; refine Only.bring _y ?_ ?_; rotate_left; clear_value _y; intro _; rotate_right; subst _y)
      | (rename _ × State => _y; refine Only.bringSnd _y ?_ ?_; rotate_left; clear_value _y; intro _; rotate_right; subst _y)
      | skip)
    | with_reducible apply Only.ite | (apply Only.into; first
      | with_reducible apply State.eventFor_only
      | with_reducible apply State.modMedia_only
      | with_reducible apply State.retire_only))

theorem State.moveDone_only (sc : Scope) (s : State) :
    Only [.media, .journal] s (State.moveDone sc s) := by
  unfold State.moveDone
  repeat' (first
    | with_reducible exact Only.refl _ _ | with_reducible assumption
    | ((with_reducible show areasIn _ _ = true); exact rfl) | (apply Only.into; first
      | with_reducible apply State.scopeDone_only
      | with_reducible apply State.moveNext_only
      | with_reducible apply State.moveOne_only)
    | split)

theorem State.endOp_only (o : DieOp) (r : DieResult) (s : State) :
    Only [.mode, .log, .store, .power, .start, .outputs, .media, .journal] s (State.endOp o r s) := by
  unfold State.endOp
  repeat' (first
    | with_reducible exact Only.refl _ _ | with_reducible assumption
    | ((with_reducible show areasIn _ _ = true); exact rfl) | (extract_lets +onlyGivenNames _x; first
      | (rename State => _y; refine Only.bring _y ?_ ?_; rotate_left; clear_value _y; intro _; rotate_right; subst _y)
      | (rename _ × State => _y; refine Only.bringSnd _y ?_ ?_; rotate_left; clear_value _y; intro _; rotate_right; subst _y)
      | skip)
    | (apply Only.into; first
      | with_reducible apply State.modMedia_only
      | with_reducible apply State.endRead_only
      | with_reducible apply State.countPages_only
      | with_reducible apply State.countFailure_only
      | with_reducible apply State.losePage_only
      | with_reducible apply State.endVerify_only
      | with_reducible apply State.moveDone_only
      | with_reducible apply State.retire_only
      | with_reducible apply State.programFailed_only
      | with_reducible apply State.moveNext_only
      | with_reducible apply State.endErase_only)
    | split)

theorem State.levelNext_only (s : State) :
    Only [.media] s (State.levelNext s) := by
  unfold State.levelNext
  repeat' (first
    | with_reducible exact Only.refl _ _ | with_reducible assumption
    | ((with_reducible show areasIn _ _ = true); exact rfl) | (extract_lets +onlyGivenNames _x; first
      | (rename State => _y; refine Only.bring _y ?_ ?_; rotate_left; clear_value _y; intro _; rotate_right; subst _y)
      | (rename _ × State => _y; refine Only.bringSnd _y ?_ ?_; rotate_left; clear_value _y; intro _; rotate_right; subst _y)
      | skip)
    | with_reducible apply Only.ite | (apply Only.into; with_reducible apply State.addOp_only) | split)

theorem State.finishOp_only (o : DieOp) (s : State) :
    Only [.media] s (State.finishOp o s) := by
  unfold State.finishOp
  repeat' (first
    | with_reducible exact Only.refl _ _ | ((with_reducible show areasIn _ _ = true); exact rfl)
    | (apply Only.into; with_reducible apply State.modMedia_only))

theorem State.mediaSettles_only (s : State) :
    Only [.log, .media] s (State.mediaSettles s) := by
  unfold State.mediaSettles
  repeat' (first
    | with_reducible exact Only.refl _ _ | ((with_reducible show areasIn _ _ = true); exact rfl)
    | (apply Only.into; first
      | with_reducible apply State.kickAll_only
      | with_reducible apply State.levelNext_only
      | with_reducible apply State.checkSpace_only
      | with_reducible apply State.checkWarnings_only))

theorem State.dieComplete_only (die : Nat) (r : DieResult) (s : State) :
    Only [.mode, .log, .store, .power, .start, .outputs, .media, .journal] s (State.dieComplete die r s) := by
  unfold State.dieComplete
  repeat' (first
    | with_reducible exact Only.refl _ _ | with_reducible assumption
    | ((with_reducible show areasIn _ _ = true); exact rfl) | (extract_lets +onlyGivenNames _x; first
      | (rename State => _y; refine Only.bring _y ?_ ?_; rotate_left; clear_value _y; intro _; rotate_right; subst _y)
      | (rename _ × State => _y; refine Only.bringSnd _y ?_ ?_; rotate_left; clear_value _y; intro _; rotate_right; subst _y)
      | skip)
    | with_reducible apply Only.ite | (apply Only.into; first
      | with_reducible apply State.finishOp_only
      | with_reducible apply State.kickAll_only
      | with_reducible apply State.modMedia_only
      | with_reducible apply State.mediaSettles_only
      | with_reducible apply State.endOp_only)
    | split)

theorem State.waitForTimeout_only (die : Nat) (s : State) :
    Only [.clock] s (State.waitForTimeout die s) := by
  unfold State.waitForTimeout
  repeat' (first
    | with_reducible exact Only.refl _ _ | with_reducible assumption
    | ((with_reducible show areasIn _ _ = true); exact rfl)
    | (apply Only.into; with_reducible apply State.waitUntil_only) | split)

theorem State.timedOut_only (o : DieOp) (s : State) :
    Only [.mode, .log, .store, .power, .start, .outputs, .media, .journal] s (State.timedOut o s) := by
  unfold State.timedOut
  repeat' (first
    | with_reducible exact Only.refl _ _ | with_reducible assumption
    | ((with_reducible show areasIn _ _ = true); exact rfl) | (extract_lets +onlyGivenNames _x; first
      | (rename State => _y; refine Only.bring _y ?_ ?_; rotate_left; clear_value _y; intro _; rotate_right; subst _y)
      | (rename _ × State => _y; refine Only.bringSnd _y ?_ ?_; rotate_left; clear_value _y; intro _; rotate_right; subst _y)
      | skip)
    | (apply Only.into; first
      | with_reducible apply State.endOp_only
      | with_reducible apply State.countFailure_only
      | with_reducible apply State.retire_only
      | with_reducible apply State.endVerify_only)
    | split)

theorem State.dieTimeout_only (die : Nat) (ready : Bool) (s : State) :
    Only [.mode, .clock, .log, .store, .power, .start, .outputs, .media, .journal] s (State.dieTimeout die ready s) := by
  unfold State.dieTimeout
  repeat' (first
    | with_reducible exact Only.refl _ _ | with_reducible assumption
    | ((with_reducible show areasIn _ _ = true); exact rfl) | (extract_lets +onlyGivenNames _x; first
      | (rename State => _y; refine Only.bring _y ?_ ?_; rotate_left; clear_value _y; intro _; rotate_right; subst _y)
      | (rename _ × State => _y; refine Only.bringSnd _y ?_ ?_; rotate_left; clear_value _y; intro _; rotate_right; subst _y)
      | skip)
    | with_reducible apply Only.ite | (apply Only.into; first
      | with_reducible apply State.waitForTimeout_only
      | with_reducible apply State.modMedia_only
      | with_reducible apply State.kickAll_only
      | with_reducible apply State.failDie_only
      | with_reducible apply State.mediaSettles_only
      | with_reducible apply State.timedOut_only
      | with_reducible apply State.finishOp_only)
    | split)

theorem State.refusePackage_only (code : Nat) (s : State) :
    Only [.log, .fw] s (State.refusePackage code s) := by
  unfold State.refusePackage
  repeat' (first
    | with_reducible exact Only.refl _ _ | ((with_reducible show areasIn _ _ = true); exact rfl)
    | (apply Only.into; first
      | with_reducible apply State.event_only
      | with_reducible apply State.modFw_only))

theorem State.downloadTimeout_only (s : State) :
    Only [.clock, .log, .watch, .fw] s (State.downloadTimeout s) := by
  unfold State.downloadTimeout
  repeat' (first
    | with_reducible exact Only.refl _ _ | with_reducible assumption
    | ((with_reducible show areasIn _ _ = true); exact rfl) | (apply Only.into; first
      | with_reducible apply State.refusePackage_only
      | with_reducible apply State.abortJobs_only
      | with_reducible apply State.waitUntil_only)
    | split)

theorem State.stirSegments_only (s : State) :
    Only [.ses] s (State.stirSegments s) := by
  unfold State.stirSegments
  repeat' (first
    | with_reducible exact Only.refl _ _ | ((with_reducible show areasIn _ _ = true); exact rfl)
    | (apply Only.into; with_reducible apply State.modSes_only))

theorem State.drainExtent_only (id : Nat) (pages : Nat) (s : State) :
    Only [.mode, .log, .ses, .store, .start, .outputs, .media, .journal] s (State.drainExtent id pages s) := by
  unfold State.drainExtent
  repeat' (first
    | with_reducible exact Only.refl _ _ | with_reducible assumption
    | ((with_reducible show areasIn _ _ = true); exact rfl) | (extract_lets +onlyGivenNames _x; first
      | (rename State => _y; refine Only.bring _y ?_ ?_; rotate_left; clear_value _y; intro _; rotate_right; subst _y)
      | (rename _ × State => _y; refine Only.bringSnd _y ?_ ?_; rotate_left; clear_value _y; intro _; rotate_right; subst _y)
      | skip)
    | with_reducible apply Only.ite | (apply Only.into; first
      | with_reducible apply State.programExtent_only
      | (with_reducible apply State.programExtent_only_eq; assumption)
      | with_reducible apply State.mapChanged_only
      | with_reducible apply State.place_only
      | with_reducible apply State.stirSegments_only
      | with_reducible apply State.endOps_only
      | with_reducible apply State.modStore_only
      | with_reducible apply State.kickAll_only
      | with_reducible apply State.checkSpace_only
      | with_reducible apply State.leaveReady_only)
    | split)

theorem State.echoed_only (v6 : Bool) (s : State) :
    Only [.net] s (State.echoed v6 s) := by
  unfold State.echoed
  repeat' (first
    | with_reducible exact Only.refl _ _ | with_reducible assumption
    | ((with_reducible show areasIn _ _ = true); exact rfl) | (extract_lets +onlyGivenNames _x; first
      | (rename State => _y; refine Only.bring _y ?_ ?_; rotate_left; clear_value _y; intro _; rotate_right; subst _y)
      | (rename _ × State => _y; refine Only.bringSnd _y ?_ ?_; rotate_left; clear_value _y; intro _; rotate_right; subst _y)
      | skip)
    | with_reducible apply Only.ite | (apply Only.into; first
      | with_reducible apply State.takeFrame_only
      | (with_reducible apply State.takeFrame_only_eq; assumption)
      | with_reducible apply State.modPort_only
      | with_reducible apply State.bump_only
      | with_reducible apply State.sendRaw_only)
    | split)

theorem formedOk_only (result : Nat) (version : Nat) (s : State) :
    Only [] s (formedOk result version s).state := by
  unfold formedOk
  repeat' (first
    | with_reducible exact Only.refl _ _ | ((with_reducible show areasIn _ _ = true); exact rfl))

theorem State.formAbort_only (s : State) :
    Only [.log, .power, .reg, .watch, .fw] s (State.formAbort s).state := by
  unfold State.formAbort
  repeat' (first
    | with_reducible exact Only.refl _ _ | with_reducible assumption
    | ((with_reducible show areasIn _ _ = true); exact rfl) | (extract_lets +onlyGivenNames _x; first
      | (rename State => _y; refine Only.bring _y ?_ ?_; rotate_left; clear_value _y; intro _; rotate_right; subst _y)
      | (rename _ × State => _y; refine Only.bringSnd _y ?_ ?_; rotate_left; clear_value _y; intro _; rotate_right; subst _y)
      | skip)
    | with_reducible apply Only.ite | (apply Only.into; first
      | with_reducible apply State.refusePackage_only
      | with_reducible apply State.abortJobs_only
      | with_reducible apply formedOk_only
      | with_reducible apply State.beginFallback_only))

theorem State.formBegin_only (sid : Nat) (op : AdminOp) (s : State) :
    Only [.fw] s (State.formBegin sid op s).state := by
  unfold State.formBegin
  repeat' (first
    | with_reducible exact Only.refl _ _ | with_reducible assumption
    | ((with_reducible show areasIn _ _ = true); exact rfl) | (extract_lets +onlyGivenNames _x; first
      | (rename State => _y; refine Only.bring _y ?_ ?_; rotate_left; clear_value _y; intro _; rotate_right; subst _y)
      | (rename _ × State => _y; refine Only.bringSnd _y ?_ ?_; rotate_left; clear_value _y; intro _; rotate_right; subst _y)
      | skip)
    | (apply Only.into; first
      | with_reducible apply formedOk_only
      | with_reducible apply State.modFw_only))

theorem refused_only (r : Refused) (version : Nat) (s : State) :
    Only [] s (refused r version s).state := by
  unfold refused
  repeat' (first
    | with_reducible exact Only.refl _ _ | ((with_reducible show areasIn _ _ = true); exact rfl))

theorem State.formData_only (op : AdminOp) (s : State) :
    Only [.log, .fw] s (State.formData op s).state := by
  unfold State.formData
  repeat' (first
    | with_reducible exact Only.refl _ _ | with_reducible assumption
    | ((with_reducible show areasIn _ _ = true); exact rfl) | (extract_lets +onlyGivenNames _x; first
      | (rename State => _y; refine Only.bring _y ?_ ?_; rotate_left; clear_value _y; intro _; rotate_right; subst _y)
      | (rename _ × State => _y; refine Only.bringSnd _y ?_ ?_; rotate_left; clear_value _y; intro _; rotate_right; subst _y)
      | skip)
    | with_reducible apply Only.ite | (apply Only.into; first
      | with_reducible apply refused_only
      | with_reducible apply State.refusePackage_only
      | with_reducible apply State.modFw_only
      | with_reducible apply formedOk_only)
    | split)

theorem State.formVerify_only (s : State) :
    Only [.log, .fw] s (State.formVerify s).state := by
  unfold State.formVerify
  repeat' (first
    | with_reducible exact Only.refl _ _ | with_reducible assumption
    | ((with_reducible show areasIn _ _ = true); exact rfl) | with_reducible apply Only.ite | (apply Only.into; first
      | with_reducible apply refused_only
      | with_reducible apply State.refusePackage_only
      | with_reducible apply formedOk_only
      | with_reducible apply State.modFw_only)
    | split)

theorem State.formConfirm_only (s : State) :
    Only [.log, .fw] s (State.formConfirm s).state := by
  unfold State.formConfirm
  repeat' (first
    | with_reducible exact Only.refl _ _ | with_reducible assumption
    | ((with_reducible show areasIn _ _ = true); exact rfl) | (extract_lets +onlyGivenNames _x; first
      | (rename State => _y; refine Only.bring _y ?_ ?_; rotate_left; clear_value _y; intro _; rotate_right; subst _y)
      | (rename _ × State => _y; refine Only.bringSnd _y ?_ ?_; rotate_left; clear_value _y; intro _; rotate_right; subst _y)
      | skip)
    | with_reducible apply Only.ite | (apply Only.into; first
      | with_reducible apply formedOk_only
      | with_reducible apply State.event_only
      | with_reducible apply State.writeCommit_only)
    | (with_reducible apply Only.foldl; (intro _ _)) | split | dsimp +zetaDelta only)

theorem State.formFirmware_only (sid : Nat) (op : AdminOp) (s : State) :
    Only [.log, .power, .reg, .watch, .fw] s (State.formFirmware sid op s).state := by
  unfold State.formFirmware
  repeat' (first
    | with_reducible exact Only.refl _ _ | with_reducible assumption
    | ((with_reducible show areasIn _ _ = true); exact rfl) | with_reducible apply Only.ite | (apply Only.into; first
      | with_reducible apply refused_only
      | with_reducible apply State.formBegin_only
      | with_reducible apply State.formData_only
      | with_reducible apply State.formVerify_only
      | with_reducible apply State.formConfirm_only
      | with_reducible apply State.formAbort_only
      | with_reducible apply formedOk_only)
    | split)

theorem State.formSetCredential_only (kH2d : Bytes) (msgId : Nat) (op : AdminOp) (s : State) :
    Only [.log, .admin, .ses, .sec, .fw] s (State.formSetCredential kH2d msgId op s).state := by
  unfold State.formSetCredential
  repeat' (first
    | with_reducible exact Only.refl _ _ | with_reducible assumption
    | ((with_reducible show areasIn _ _ = true); exact rfl) | (extract_lets +onlyGivenNames _x; first
      | (rename State => _y; refine Only.bring _y ?_ ?_; rotate_left; clear_value _y; intro _; rotate_right; subst _y)
      | (rename _ × State => _y; refine Only.bringSnd _y ?_ ?_; rotate_left; clear_value _y; intro _; rotate_right; subst _y)
      | skip)
    | (apply Only.into; first
      | with_reducible apply refused_only
      | with_reducible apply State.modSec_only
      | with_reducible apply formedOk_only
      | with_reducible apply State.credentialChanged_only)
    | split)

theorem State.eraseTenantData_only (t : Nat) (s : State) :
    Only [.draws, .log, .store, .media, .journal, .sec] s (State.eraseTenantData t s) := by
  unfold State.eraseTenantData
  repeat' (first
    | with_reducible exact Only.refl _ _ | with_reducible assumption
    | ((with_reducible show areasIn _ _ = true); exact rfl) | (extract_lets +onlyGivenNames _x; first
      | (rename State => _y; refine Only.bring _y ?_ ?_; rotate_left; clear_value _y; intro _; rotate_right; subst _y)
      | (rename _ × State => _y; refine Only.bringSnd _y ?_ ?_; rotate_left; clear_value _y; intro _; rotate_right; subst _y)
      | skip)
    | (apply Only.into; first
      | with_reducible apply State.dropOps_only
      | with_reducible apply State.modStore_only
      | with_reducible apply State.modMedia_only
      | with_reducible apply State.random_only
      | (with_reducible apply State.random_only_eq; assumption)
      | with_reducible apply State.writeEntry_only
      | with_reducible apply State.modSec_only)
    | split)

theorem State.eraseTenantSessions_only (t : Nat) (s : State) :
    Only [.log, .admin, .net, .ses, .fw] s (State.eraseTenantSessions t s) := by
  unfold State.eraseTenantSessions
  repeat' (first
    | with_reducible exact Only.refl _ _ | with_reducible assumption
    | ((with_reducible show areasIn _ _ = true); exact rfl) | (extract_lets +onlyGivenNames _x; first
      | (rename State => _y; refine Only.bring _y ?_ ?_; rotate_left; clear_value _y; intro _; rotate_right; subst _y)
      | (rename _ × State => _y; refine Only.bringSnd _y ?_ ?_; rotate_left; clear_value _y; intro _; rotate_right; subst _y)
      | skip)
    | with_reducible apply Only.ite | (apply Only.into; first
      | with_reducible apply State.modPort_only
      | with_reducible apply State.say_only
      | with_reducible apply State.event_only
      | with_reducible apply State.removeSess_only
      | with_reducible apply State.release_only)
    | (with_reducible apply Only.foldl; (intro _ _)) | split)

theorem State.formErase_only (op : AdminOp) (s : State) :
    Only [.draws, .log, .admin, .net, .ses, .store, .media, .journal, .sec, .fw] s (State.formErase op s).state := by
  unfold State.formErase
  repeat' (first
    | with_reducible exact Only.refl _ _ | ((with_reducible show areasIn _ _ = true); exact rfl)
    | (apply Only.into; first
      | with_reducible apply formedOk_only
      | with_reducible apply State.eraseTenantData_only
      | with_reducible apply State.eraseTenantSessions_only))

theorem State.enterTop_only (m : Mode) (s : State) :
    Only [.mode, .log, .net, .power, .start, .outputs, .media] s (State.enterTop m s) := by
  unfold State.enterTop
  repeat' (first
    | with_reducible exact Only.refl _ _ | with_reducible assumption
    | ((with_reducible show areasIn _ _ = true); exact rfl) | (extract_lets +onlyGivenNames _x; first
      | (rename State => _y; refine Only.bring _y ?_ ?_; rotate_left; clear_value _y; intro _; rotate_right; subst _y)
      | (rename _ × State => _y; refine Only.bringSnd _y ?_ ?_; rotate_left; clear_value _y; intro _; rotate_right; subst _y)
      | skip)
    | with_reducible apply Only.when | (apply Only.into; first
      | with_reducible apply State.modMedia_only
      | with_reducible apply State.modStart_only
      | with_reducible apply State.enter_only
      | with_reducible apply State.event_only
      | with_reducible apply State.beginSeries_only
      | with_reducible apply State.modPower_only))

theorem State.refillPins_only (s : State) :
    Only [.store] s (State.refillPins s) := by
  unfold State.refillPins
  repeat' (first
    | with_reducible exact Only.refl _ _ | ((with_reducible show areasIn _ _ = true); exact rfl)
    | (apply Only.into; with_reducible apply State.modStore_only))

theorem State.unlockDrive_only (s : State) :
    Only [.mode, .log, .net, .store, .power, .start, .outputs, .media, .sec] s (State.unlockDrive s) := by
  unfold State.unlockDrive
  repeat' (first
    | with_reducible exact Only.refl _ _ | with_reducible assumption
    | ((with_reducible show areasIn _ _ = true); exact rfl) | (extract_lets +onlyGivenNames _x; first
      | (rename State => _y; refine Only.bring _y ?_ ?_; rotate_left; clear_value _y; intro _; rotate_right; subst _y)
      | (rename _ × State => _y; refine Only.bringSnd _y ?_ ?_; rotate_left; clear_value _y; intro _; rotate_right; subst _y)
      | skip)
    | (apply Only.into; first
      | with_reducible apply State.event_only
      | with_reducible apply State.modSec_only
      | with_reducible apply State.refillPins_only
      | with_reducible apply State.enter_only
      | with_reducible apply State.enterTop_only
      | with_reducible apply State.beginSeries_only
      | with_reducible apply State.modStart_only)
    | split)

theorem State.formUnlock_only (s : State) :
    Only [.mode, .log, .net, .store, .power, .start, .outputs, .media, .sec] s (State.formUnlock s).state := by
  unfold State.formUnlock
  repeat' (first
    | with_reducible exact Only.refl _ _ | with_reducible assumption
    | ((with_reducible show areasIn _ _ = true); exact rfl) | (extract_lets +onlyGivenNames _x; first
      | (rename State => _y; refine Only.bring _y ?_ ?_; rotate_left; clear_value _y; intro _; rotate_right; subst _y)
      | (rename _ × State => _y; refine Only.bringSnd _y ?_ ?_; rotate_left; clear_value _y; intro _; rotate_right; subst _y)
      | skip)
    | with_reducible apply Only.ite | (apply Only.into; first
      | with_reducible apply State.unlockDrive_only
      | with_reducible apply formedOk_only))

theorem State.formResetCredential_only (op : AdminOp) (s : State) :
    Only [.log, .admin, .ses, .sec, .fw] s (State.formResetCredential op s).state := by
  unfold State.formResetCredential
  repeat' (first
    | with_reducible exact Only.refl _ _ | with_reducible assumption
    | ((with_reducible show areasIn _ _ = true); exact rfl) | (extract_lets +onlyGivenNames _x; first
      | (rename State => _y; refine Only.bring _y ?_ ?_; rotate_left; clear_value _y; intro _; rotate_right; subst _y)
      | (rename _ × State => _y; refine Only.bringSnd _y ?_ ?_; rotate_left; clear_value _y; intro _; rotate_right; subst _y)
      | skip)
    | with_reducible apply Only.ite | (apply Only.into; first
      | with_reducible apply State.credentialChanged_only
      | with_reducible apply State.modSec_only
      | with_reducible apply formedOk_only))

theorem State.formSecurity_only (kH2d : Bytes) (msgId : Nat) (op : AdminOp) (s : State) :
    Only [.mode, .draws, .log, .admin, .net, .ses, .store, .power, .start, .outputs, .media, .journal, .sec, .fw] s (State.formSecurity kH2d msgId op s).state := by
  unfold State.formSecurity
  repeat' (first
    | with_reducible exact Only.refl _ _ | with_reducible assumption
    | ((with_reducible show areasIn _ _ = true); exact rfl) | (apply Only.into; first
      | with_reducible apply refused_only
      | with_reducible apply formedOk_only
      | with_reducible apply State.formUnlock_only
      | with_reducible apply State.formSetCredential_only
      | with_reducible apply State.formResetCredential_only
      | with_reducible apply State.formErase_only)
    | split)

theorem State.snapshotResets_only (id : Nat) (s : State) :
    Only [.admin, .net, .reg] s (State.snapshotResets id s) := by
  unfold State.snapshotResets
  repeat' (first
    | with_reducible exact Only.refl _ _ | with_reducible assumption
    | ((with_reducible show areasIn _ _ = true); exact rfl) | (apply Only.into; first
      | with_reducible apply State.modNet_only
      | with_reducible apply State.modAdmin_only
      | with_reducible apply State.modReg_only)
    | split)

theorem State.takeSnapshot_only (session : Nat) (page : Nat) (bytes : Bytes) (s : State) :
    Only [.admin] s (State.takeSnapshot session page bytes s).2 := by
  unfold State.takeSnapshot
  repeat' (first
    | with_reducible exact Only.refl _ _ | with_reducible assumption
    | ((with_reducible show areasIn _ _ = true); exact rfl) | (extract_lets +onlyGivenNames _x; first
      | (rename State => _y; refine Only.bring _y ?_ ?_; rotate_left; clear_value _y; intro _; rotate_right; subst _y)
      | (rename _ × State => _y; refine Only.bringSnd _y ?_ ?_; rotate_left; clear_value _y; intro _; rotate_right; subst _y)
      | skip)
    | (apply Only.into; with_reducible apply State.modAdmin_only))

theorem State.takeSnapshot_only_eq {session : Nat} {page : Nat} {bytes : Bytes} {s : State} {p : _} {t : State} (h : State.takeSnapshot session page bytes s = (p, t)) :
    Only [.admin] s t := by
  have k := State.takeSnapshot_only session page bytes s
  rw [h] at k
  exact k

theorem State.formSnapshot_only (sid : Nat) (op : AdminOp) (s : State) :
    Only [.admin, .net, .reg] s (State.formSnapshot sid op s).state := by
  unfold State.formSnapshot
  repeat' (first
    | with_reducible exact Only.refl _ _ | with_reducible assumption
    | ((with_reducible show areasIn _ _ = true); exact rfl) | (apply Only.into; first
      | with_reducible apply refused_only
      | with_reducible apply State.takeSnapshot_only
      | (with_reducible apply State.takeSnapshot_only_eq; assumption)
      | with_reducible apply formedOk_only
      | with_reducible apply State.snapshotResets_only)
    | split)

theorem State.formClear_only (op : AdminOp) (s : State) :
    Only [.log] s (State.formClear op s).state := by
  unfold State.formClear
  repeat' (first
    | with_reducible exact Only.refl _ _ | with_reducible assumption
    | ((with_reducible show areasIn _ _ = true); exact rfl) | (extract_lets +onlyGivenNames _x; first
      | (rename State => _y; refine Only.bring _y ?_ ?_; rotate_left; clear_value _y; intro _; rotate_right; subst _y)
      | (rename _ × State => _y; refine Only.bringSnd _y ?_ ?_; rotate_left; clear_value _y; intro _; rotate_right; subst _y)
      | skip)
    | (apply Only.into; first
      | with_reducible apply State.modLog_only
      | with_reducible apply formedOk_only))

theorem State.formSleep_only (s : State) :
    Only [.log, .power, .reg] s (State.formSleep s).state := by
  unfold State.formSleep
  repeat' (first
    | with_reducible exact Only.refl _ _ | with_reducible assumption
    | ((with_reducible show areasIn _ _ = true); exact rfl) | (apply Only.into; first
      | with_reducible apply refused_only
      | with_reducible apply formedOk_only
      | with_reducible apply State.modPower_only
      | with_reducible apply State.abortTest_only)
    | split)

theorem State.formGetLog_only (sid : Nat) (op : AdminOp) (s : State) :
    Only [] s (State.formGetLog sid op s).state := by
  unfold State.formGetLog
  repeat' (first
    | with_reducible exact Only.refl _ _ | with_reducible assumption
    | ((with_reducible show areasIn _ _ = true); exact rfl) | (apply Only.into; with_reducible apply refused_only)
    | split)

end Sys2Proof.Machine
end

