-- ==== Sys2Proof/Laws/Frames5.lean ====
section
/-!
SUPPORT. What each operation of the machine can touch, one lemma for each, callees before callers; part 5 of 6.
-/
set_option linter.tactic.unusedName false
set_option linter.unusedSimpArgs false
namespace Sys2Proof.Machine

theorem State.featureApplied_only (was : DriveConfig) (id : Nat) (scope : Nat) (s : State) :
    Only [.net] s (State.featureApplied was id scope s) := by
  unfold State.featureApplied
  repeat' (first
    | with_reducible exact Only.refl _ _ | with_reducible assumption
    | ((with_reducible show areasIn _ _ = true); exact rfl) | (extract_lets +onlyGivenNames _x; first
      | (rename State => _y; refine Only.bring _y ?_ ?_; rotate_left; clear_value _y; intro _; rotate_right; subst _y)
      | (rename _ × State => _y; refine Only.bringSnd _y ?_ ?_; rotate_left; clear_value _y; intro _; rotate_right; subst _y)
      | skip)
    | with_reducible apply Only.ite | (apply Only.into; first
      | with_reducible apply State.switchShapers_only
      | with_reducible apply State.setSlopes_only))

theorem State.formSetFeature_only (op : AdminOp) (s : State) :
    Only [.cfg, .net] s (State.formSetFeature op s).state := by
  unfold State.formSetFeature
  repeat' (first
    | with_reducible exact Only.refl _ _ | with_reducible assumption
    | ((with_reducible show areasIn _ _ = true); exact rfl) | (apply Only.into; first
      | with_reducible apply refused_only
      | with_reducible apply formedOk_only
      | with_reducible apply State.featureApplied_only
      | with_reducible apply State.modCfg_only)
    | split)

theorem State.formIdentify_only (op : AdminOp) (s : State) :
    Only [] s (State.formIdentify op s).state := by
  unfold State.formIdentify
  repeat' (first
    | with_reducible exact Only.refl _ _ | ((with_reducible show areasIn _ _ = true); exact rfl))

theorem State.formGetFeature_only (op : AdminOp) (s : State) :
    Only [] s (State.formGetFeature op s).state := by
  unfold State.formGetFeature
  repeat' (first
    | with_reducible exact Only.refl _ _ | with_reducible assumption
    | ((with_reducible show areasIn _ _ = true); exact rfl) | (apply Only.into; first
      | with_reducible apply refused_only
      | with_reducible apply formedOk_only)
    | split)

theorem State.formPlain_only (sid : Nat) (gen : Nat) (op : AdminOp) (s : State) :
    Only [.cfg, .log, .admin, .net, .power, .reg] s (State.formPlain sid gen op s).state := by
  unfold State.formPlain
  repeat' (first
    | with_reducible exact Only.refl _ _ | with_reducible assumption
    | ((with_reducible show areasIn _ _ = true); exact rfl) | (apply Only.into; first
      | with_reducible apply refused_only
      | with_reducible apply State.formIdentify_only
      | with_reducible apply State.formGetLog_only
      | with_reducible apply State.formSnapshot_only
      | with_reducible apply State.formGetFeature_only
      | with_reducible apply State.formSetFeature_only
      | with_reducible apply State.formSleep_only
      | with_reducible apply State.formClear_only
      | with_reducible apply formedOk_only)
    | split)

theorem State.formOp_only (x : Sess) (msgId : Nat) (op : AdminOp) (s : State) :
    Only [.mode, .draws, .cfg, .log, .admin, .net, .ses, .store, .power, .reg, .start, .outputs, .media, .journal, .watch, .sec, .fw] s (State.formOp x msgId op s).state := by
  unfold State.formOp
  repeat' (first
    | with_reducible exact Only.refl _ _ | with_reducible assumption
    | ((with_reducible show areasIn _ _ = true); exact rfl) | (extract_lets +onlyGivenNames _x; first
      | (rename State => _y; refine Only.bring _y ?_ ?_; rotate_left; clear_value _y; intro _; rotate_right; subst _y)
      | (rename _ × State => _y; refine Only.bringSnd _y ?_ ?_; rotate_left; clear_value _y; intro _; rotate_right; subst _y)
      | skip)
    | with_reducible apply Only.ite | (apply Only.into; first
      | with_reducible apply State.formFirmware_only
      | with_reducible apply State.formSecurity_only
      | with_reducible apply State.formPlain_only)
    | (with_reducible apply Only.foldl; (intro _ _)) | split | dsimp +zetaDelta only)

theorem State.formEntry_only (e : EpEntry) (s : State) :
    Only [.mode, .draws, .cfg, .log, .admin, .net, .ses, .store, .power, .reg, .start, .outputs, .media, .journal, .watch, .sec, .fw] s (State.formEntry e s).2.2 := by
  unfold State.formEntry
  repeat' (first
    | with_reducible exact Only.refl _ _ | with_reducible assumption
    | ((with_reducible show areasIn _ _ = true); exact rfl) | (extract_lets +onlyGivenNames _x; first
      | (rename State => _y; refine Only.bring _y ?_ ?_; rotate_left; clear_value _y; intro _; rotate_right; subst _y)
      | (rename _ × State => _y; refine Only.bringSnd _y ?_ ?_; rotate_left; clear_value _y; intro _; rotate_right; subst _y)
      | skip)
    | with_reducible apply Only.ite | (apply Only.into; first
      | with_reducible apply State.formOp_only
      | with_reducible apply State.modSess_only
      | with_reducible apply State.errorAnswer_only)
    | split)

theorem State.formEntry_only_eq {e : EpEntry} {s : State} {p : _} {t : State} {o : _} (h : State.formEntry e s = (p, o, t)) :
    Only [.mode, .draws, .cfg, .log, .admin, .net, .ses, .store, .power, .reg, .start, .outputs, .media, .journal, .watch, .sec, .fw] s t := by
  have k := State.formEntry_only e s
  rw [h] at k
  exact k

theorem State.preview_only (q : Port) (s : State) :
    Only [.mode, .draws, .cfg, .log, .admin, .net, .ses, .store, .power, .reg, .start, .outputs, .media, .journal, .watch, .sec, .fw] s (State.preview q s) := by
  unfold State.preview
  repeat' (first
    | with_reducible exact Only.refl _ _ | ((with_reducible show areasIn _ _ = true); exact rfl)
    | (apply Only.into; first
      | with_reducible apply State.modPort_only
      | with_reducible apply State.formEntry_only
      | (with_reducible apply State.formEntry_only_eq; assumption)))

theorem State.frameSent_only (q : Port) (s : State) :
    Only [.clock, .net] s (State.frameSent q s) := by
  unfold State.frameSent
  repeat' (first
    | with_reducible exact Only.refl _ _ | with_reducible assumption
    | ((with_reducible show areasIn _ _ = true); exact rfl) | (extract_lets +onlyGivenNames _x; first
      | (rename State => _y; refine Only.bring _y ?_ ?_; rotate_left; clear_value _y; intro _; rotate_right; subst _y)
      | (rename _ × State => _y; refine Only.bringSnd _y ?_ ?_; rotate_left; clear_value _y; intro _; rotate_right; subst _y)
      | skip)
    | (apply Only.into; first
      | with_reducible apply State.modPort_only
      | with_reducible apply State.waitUntil_only
      | with_reducible apply State.bump_only
      | with_reducible apply State.activity_only
      | with_reducible apply State.count_only)
    | split)

theorem State.holdBack_only (q : Port) (s : State) :
    Only [.net, .ses] s (State.holdBack q s) := by
  unfold State.holdBack
  repeat' (first
    | with_reducible exact Only.refl _ _ | with_reducible assumption
    | ((with_reducible show areasIn _ _ = true); exact rfl) | with_reducible apply Only.ite
    | (apply Only.into; with_reducible apply State.keepCompletions_only))

theorem State.gptpSelected_only (q : Port) (f : GptpFrame) (s : State) :
    Only [.net, .time] s (State.gptpSelected q f s) := by
  unfold State.gptpSelected
  repeat' (first
    | with_reducible exact Only.refl _ _ | with_reducible assumption
    | ((with_reducible show areasIn _ _ = true); exact rfl) | (extract_lets +onlyGivenNames _x; first
      | (rename State => _y; refine Only.bring _y ?_ ?_; rotate_left; clear_value _y; intro _; rotate_right; subst _y)
      | (rename _ × State => _y; refine Only.bringSnd _y ?_ ?_; rotate_left; clear_value _y; intro _; rotate_right; subst _y)
      | skip)
    | with_reducible apply Only.ite | (apply Only.into; first
      | with_reducible apply State.modGptp_only
      | with_reducible apply State.sendGptp_only)
    | split)

theorem State.measure_only (q : Port) (e : EpEntry) (sid : Nat) (s : State) :
    Only [.log, .admin, .net, .ses] s (State.measure q e sid s) := by
  unfold State.measure
  repeat' (first
    | with_reducible exact Only.refl _ _ | with_reducible assumption
    | ((with_reducible show areasIn _ _ = true); exact rfl) | (extract_lets +onlyGivenNames _x; first
      | (rename State => _y; refine Only.bring _y ?_ ?_; rotate_left; clear_value _y; intro _; rotate_right; subst _y)
      | (rename _ × State => _y; refine Only.bringSnd _y ?_ ?_; rotate_left; clear_value _y; intro _; rotate_right; subst _y)
      | skip)
    | with_reducible apply Only.ite | (apply Only.into; first
      | with_reducible apply State.bump_only
      | with_reducible apply State.modAdmin_only
      | with_reducible apply State.modSess_only
      | with_reducible apply State.event_only
      | with_reducible apply State.modPort_only)
    | split)

theorem State.seqSpent_only (sid : Nat) (s : State) :
    Only [.log, .admin, .net, .ses, .store, .fw] s (State.seqSpent sid s) := by
  unfold State.seqSpent
  repeat' (first
    | with_reducible exact Only.refl _ _ | with_reducible assumption
    | ((with_reducible show areasIn _ _ = true); exact rfl) | with_reducible apply Only.ite
    | (apply Only.into; with_reducible apply State.dropSession_only) | split)

theorem State.messageSelected_only (q : Port) (e : EpEntry) (m : LyMsg) (last : Bool) (s : State) :
    Only [.log, .admin, .net, .ses, .store, .fw] s (State.messageSelected q e m last s) := by
  unfold State.messageSelected
  repeat' (first
    | with_reducible exact Only.refl _ _ | with_reducible assumption
    | ((with_reducible show areasIn _ _ = true); exact rfl) | (extract_lets +onlyGivenNames _x; first
      | (rename State => _y; refine Only.bring _y ?_ ?_; rotate_left; clear_value _y; intro _; rotate_right; subst _y)
      | (rename _ × State => _y; refine Only.bringSnd _y ?_ ?_; rotate_left; clear_value _y; intro _; rotate_right; subst _y)
      | skip)
    | with_reducible apply Only.when | (apply Only.into; first
      | with_reducible apply State.measure_only
      | with_reducible apply State.modFlight_only
      | with_reducible apply State.seqSpent_only
      | with_reducible apply State.messageOver_only
      | with_reducible apply State.cacheAnswer_only))

theorem State.refill_only (q : Port) (s : State) :
    Only [.net] s (State.refill q s) := by
  unfold State.refill
  repeat' (first
    | with_reducible exact Only.refl _ _ | ((with_reducible show areasIn _ _ = true); exact rfl)
    | (apply Only.into; with_reducible apply State.modPort_only))

theorem State.selectEntry_only (q : Port) (k : Nat) (s : State) :
    Only [.mode, .clock, .draws, .cfg, .log, .admin, .net, .time, .ses, .store, .power, .reg, .start, .outputs, .media, .journal, .watch, .sec, .fw, .startCount] s (State.selectEntry q k s) := by
  unfold State.selectEntry
  repeat' (first
    | with_reducible exact Only.refl _ _ | with_reducible assumption
    | ((with_reducible show areasIn _ _ = true); exact rfl) | (extract_lets +onlyGivenNames _x; first
      | (rename State => _y; refine Only.bring _y ?_ ?_; rotate_left; clear_value _y; intro _; rotate_right; subst _y)
      | (rename _ × State => _y; refine Only.bringSnd _y ?_ ?_; rotate_left; clear_value _y; intro _; rotate_right; subst _y)
      | skip)
    | with_reducible apply Only.ite | (apply Only.into; first
      | with_reducible apply State.modPort_only
      | with_reducible apply State.formEntry_only
      | (with_reducible apply State.formEntry_only_eq; assumption)
      | with_reducible apply State.refill_only
      | with_reducible apply State.messageSelected_only
      | with_reducible apply State.settleCloses_only
      | with_reducible apply State.afterOp_only)
    | split)

theorem State.select_only (q : Port) (x : Pick) (s : State) :
    Only [.mode, .clock, .draws, .cfg, .log, .admin, .net, .time, .ses, .store, .power, .reg, .start, .outputs, .media, .journal, .watch, .sec, .fw, .startCount] s (State.select q x s) := by
  unfold State.select
  repeat' (first
    | with_reducible exact Only.refl _ _ | with_reducible assumption
    | ((with_reducible show areasIn _ _ = true); exact rfl) | (extract_lets +onlyGivenNames _x; first
      | (rename State => _y; refine Only.bring _y ?_ ?_; rotate_left; clear_value _y; intro _; rotate_right; subst _y)
      | (rename _ × State => _y; refine Only.bringSnd _y ?_ ?_; rotate_left; clear_value _y; intro _; rotate_right; subst _y)
      | skip)
    | (apply Only.into; first
      | with_reducible apply State.modPort_only
      | with_reducible apply State.gptpSelected_only
      | with_reducible apply State.selectEntry_only)
    | split)

theorem State.idlePort_only (q : Port) (s : State) :
    Only [.mode, .clock, .draws, .cfg, .log, .admin, .net, .time, .ses, .store, .power, .reg, .start, .outputs, .media, .journal, .watch, .sec, .fw, .startCount] s (State.idlePort q s) := by
  unfold State.idlePort
  repeat' (first
    | with_reducible exact Only.refl _ _ | with_reducible assumption
    | ((with_reducible show areasIn _ _ = true); exact rfl) | (extract_lets +onlyGivenNames _x; first
      | (rename State => _y; refine Only.bring _y ?_ ?_; rotate_left; clear_value _y; intro _; rotate_right; subst _y)
      | (rename _ × State => _y; refine Only.bringSnd _y ?_ ?_; rotate_left; clear_value _y; intro _; rotate_right; subst _y)
      | skip)
    | (apply Only.into; first
      | with_reducible apply State.holdBack_only
      | with_reducible apply State.frameSent_only
      | with_reducible apply State.preview_only
      | with_reducible apply State.select_only)
    | split)

theorem State.fragmentPoint_only (q : Port) (sent : Nat) (s : State) :
    Only [.mode, .clock, .draws, .cfg, .log, .admin, .net, .ses, .store, .power, .reg, .start, .outputs, .media, .journal, .watch, .sec, .fw] s (State.fragmentPoint q sent s) := by
  unfold State.fragmentPoint
  repeat' (first
    | with_reducible exact Only.refl _ _ | with_reducible assumption
    | ((with_reducible show areasIn _ _ = true); exact rfl) | (extract_lets +onlyGivenNames _x; first
      | (rename State => _y; refine Only.bring _y ?_ ?_; rotate_left; clear_value _y; intro _; rotate_right; subst _y)
      | (rename _ × State => _y; refine Only.bringSnd _y ?_ ?_; rotate_left; clear_value _y; intro _; rotate_right; subst _y)
      | skip)
    | with_reducible apply Only.ite | (apply Only.into; first
      | with_reducible apply State.preview_only
      | with_reducible apply State.modPort_only
      | with_reducible apply State.waitUntil_only)
    | split)

theorem State.egress_only (q : Port) (sent : Option Nat) (s : State) :
    Only [.mode, .clock, .draws, .cfg, .log, .admin, .net, .time, .ses, .store, .power, .reg, .start, .outputs, .media, .journal, .watch, .sec, .fw, .startCount] s (State.egress q sent s) := by
  unfold State.egress
  repeat' (first
    | with_reducible exact Only.refl _ _ | with_reducible assumption
    | ((with_reducible show areasIn _ _ = true); exact rfl) | with_reducible apply Only.ite | (apply Only.into; first
      | with_reducible apply State.idlePort_only
      | with_reducible apply State.fragmentPoint_only)
    | split)

theorem State.endRangeDelete_only (a : Ask) (status : Nat) (reason : Nat) (b : AnswerBody) (s : State) :
    Only [.log, .net, .ses] s (State.endRangeDelete a status reason b s) := by
  unfold State.endRangeDelete
  repeat' (first
    | with_reducible exact Only.refl _ _ | with_reducible assumption
    | ((with_reducible show areasIn _ _ = true); exact rfl) | with_reducible apply Only.ite | (apply Only.into; first
      | with_reducible apply State.finishLy1_only
      | with_reducible apply State.fail_only
      | with_reducible apply State.finish_only)
    | split)

theorem State.epTimeout_only (q : Port) (s : State) :
    Only [.clock, .log, .admin, .net, .ses, .fw] s (State.epTimeout q s) := by
  unfold State.epTimeout
  repeat' (first
    | with_reducible exact Only.refl _ _ | with_reducible assumption
    | ((with_reducible show areasIn _ _ = true); exact rfl) | (extract_lets +onlyGivenNames _x; first
      | (rename State => _y; refine Only.bring _y ?_ ?_; rotate_left; clear_value _y; intro _; rotate_right; subst _y)
      | (rename _ × State => _y; refine Only.bringSnd _y ?_ ?_; rotate_left; clear_value _y; intro _; rotate_right; subst _y)
      | skip)
    | (apply Only.into; first
      | with_reducible apply State.bumps_only
      | with_reducible apply State.modPort_only
      | with_reducible apply State.waitUntil_only
      | with_reducible apply State.refill_only
      | with_reducible apply State.settleCloses_only
      | with_reducible apply State.lost_only)
    | split)

theorem State.expirePin_only (t : Nat) (k : Bytes) (admitAt : Nat) (s : State) :
    Only [.store] s (State.expirePin t k admitAt s) := by
  unfold State.expirePin
  repeat' (first
    | with_reducible exact Only.refl _ _ | with_reducible assumption
    | ((with_reducible show areasIn _ _ = true); exact rfl)
    | (apply Only.into; with_reducible apply State.modStore_only) | split)

theorem State.takeRequest_only (sid : Nat) (msgId : Nat) (ly1 : Bool) (ops : List Nat) (s : State) :
    Only [.log, .net, .time, .ses] s (State.takeRequest sid msgId ly1 ops s).2 := by
  unfold State.takeRequest
  repeat' (first
    | with_reducible exact Only.refl _ _ | with_reducible assumption
    | ((with_reducible show areasIn _ _ = true); exact rfl) | with_reducible apply Only.ite | (apply Only.into; first
      | with_reducible apply State.judgeRequest_only
      | (with_reducible apply State.judgeRequest_only_eq; assumption)
      | with_reducible apply State.takeMessage_only)
    | split)

theorem State.takeRequest_only_eq {sid : Nat} {msgId : Nat} {ly1 : Bool} {ops : List Nat} {s : State} {p : _} {t : State} (h : State.takeRequest sid msgId ly1 ops s = (p, t)) :
    Only [.log, .net, .time, .ses] s t := by
  have k := State.takeRequest_only sid msgId ly1 ops s
  rw [h] at k
  exact k

theorem State.touchDownload_only (sid : Nat) (s : State) :
    Only [.fw] s (State.touchDownload sid s) := by
  unfold State.touchDownload
  repeat' (first
    | with_reducible exact Only.refl _ _ | with_reducible assumption
    | ((with_reducible show areasIn _ _ = true); exact rfl) | with_reducible apply Only.ite
    | (apply Only.into; with_reducible apply State.modFw_only))

theorem State.flush_only (a : Ask) (s : State) :
    Only [.log, .net, .ses] s (State.flush a s) := by
  unfold State.flush
  repeat' (first
    | with_reducible exact Only.refl _ _ | with_reducible assumption
    | ((with_reducible show areasIn _ _ = true); exact rfl) | (extract_lets +onlyGivenNames _x; first
      | (rename State => _y; refine Only.bring _y ?_ ?_; rotate_left; clear_value _y; intro _; rotate_right; subst _y)
      | (rename _ × State => _y; refine Only.bringSnd _y ?_ ?_; rotate_left; clear_value _y; intro _; rotate_right; subst _y)
      | skip)
    | (apply Only.into; first
      | with_reducible apply State.settleCloses_only
      | with_reducible apply State.modFlight_only)
    | split)

theorem State.onWire_only (q : Port) (length : Nat) (s : State) :
    Only [.clock, .net] s (State.onWire q length s) := by
  unfold State.onWire
  repeat' (first
    | with_reducible exact Only.refl _ _ | with_reducible assumption
    | ((with_reducible show areasIn _ _ = true); exact rfl) | (extract_lets +onlyGivenNames _x; first
      | (rename State => _y; refine Only.bring _y ?_ ?_; rotate_left; clear_value _y; intro _; rotate_right; subst _y)
      | (rename _ × State => _y; refine Only.bringSnd _y ?_ ?_; rotate_left; clear_value _y; intro _; rotate_right; subst _y)
      | skip)
    | (apply Only.into; first
      | with_reducible apply State.waitUntil_only
      | with_reducible apply State.modPort_only))

theorem State.judgeFrame_only (q : Port) (bad : Bool) (begun : Nat) (bytes : Bytes) (s : State) :
    Only [.log, .admin, .net, .time, .ses, .store, .media, .fw] s (State.judgeFrame q bad begun bytes s) := by
  unfold State.judgeFrame
  repeat' (first
    | with_reducible exact Only.refl _ _ | with_reducible assumption
    | ((with_reducible show areasIn _ _ = true); exact rfl) | (extract_lets +onlyGivenNames _x; first
      | (rename State => _y; refine Only.bring _y ?_ ?_; rotate_left; clear_value _y; intro _; rotate_right; subst _y)
      | (rename _ × State => _y; refine Only.bringSnd _y ?_ ?_; rotate_left; clear_value _y; intro _; rotate_right; subst _y)
      | skip)
    | with_reducible apply Only.ite | (apply Only.into; first
      | with_reducible apply State.bump_only
      | with_reducible apply State.event_only
      | with_reducible apply State.modPort_only
      | with_reducible apply State.handOn_only
      | with_reducible apply State.bridgeFrame_only))

theorem State.frameReceived_only (q : Port) (pkt : MPacket) (err : RxError) (bytes : Bytes) (s : State) :
    Only [.clock, .log, .admin, .net, .time, .ses, .store, .media, .fw] s (State.frameReceived q pkt err bytes s) := by
  unfold State.frameReceived
  repeat' (first
    | with_reducible exact Only.refl _ _ | with_reducible assumption
    | ((with_reducible show areasIn _ _ = true); exact rfl) | (extract_lets +onlyGivenNames _x; first
      | (rename State => _y; refine Only.bring _y ?_ ?_; rotate_left; clear_value _y; intro _; rotate_right; subst _y)
      | (rename _ × State => _y; refine Only.bringSnd _y ?_ ?_; rotate_left; clear_value _y; intro _; rotate_right; subst _y)
      | skip)
    | with_reducible apply Only.ite | with_reducible apply Only.when | (apply Only.into; first
      | with_reducible apply State.onWire_only
      | with_reducible apply State.modPort_only
      | with_reducible apply State.bump_only
      | with_reducible apply State.judgeFrame_only)
    | split)

theorem State.freeStaged_only (sid : Nat) (d : Nat) (a : Assembly) (s : State) :
    Only [.net, .ses] s (State.freeStaged sid d a s) := by
  unfold State.freeStaged
  repeat' (first
    | with_reducible exact Only.refl _ _ | with_reducible assumption
    | ((with_reducible show areasIn _ _ = true); exact rfl) | with_reducible apply Only.ite | (apply Only.into; first
      | with_reducible apply State.release_only
      | with_reducible apply State.modSess_only)
    | split)

theorem State.fwdTimeout_only (q : Port) (s : State) :
    Only [.clock, .net] s (State.fwdTimeout q s) := by
  unfold State.fwdTimeout
  repeat' (first
    | with_reducible exact Only.refl _ _ | with_reducible assumption
    | ((with_reducible show areasIn _ _ = true); exact rfl) | (apply Only.into; first
      | with_reducible apply State.bump_only
      | with_reducible apply State.modPort_only
      | with_reducible apply State.waitUntil_only)
    | split)

theorem State.waitTime_only (ns : Nat) (s : State) :
    Only [.clock] s (State.waitTime ns s) := by
  unfold State.waitTime
  repeat' (first
    | with_reducible exact Only.refl _ _ | with_reducible assumption
    | ((with_reducible show areasIn _ _ = true); exact rfl) | (extract_lets +onlyGivenNames _x; first
      | (rename State => _y; refine Only.bring _y ?_ ?_; rotate_left; clear_value _y; intro _; rotate_right; subst _y)
      | (rename _ × State => _y; refine Only.bringSnd _y ?_ ?_; rotate_left; clear_value _y; intro _; rotate_right; subst _y)
      | skip)
    | (simp only [Only.updated]; with_reducible refine Updated.of ?_ rfl ?_ ?_ ?_ ?_ ?_ ?_ ?_ ?_ ?_ ?_ ?_ ?_ ?_ ?_ ?_ ?_ ?_ ?_ ?_ ?_)
    | with_reducible exact .inr rfl | exact .inl rfl)

theorem State.gateStart_only (q : Port) (s : State) :
    Only [.clock, .net] s (State.gateStart q s) := by
  unfold State.gateStart
  repeat' (first
    | with_reducible exact Only.refl _ _ | with_reducible assumption
    | ((with_reducible show areasIn _ _ = true); exact rfl) | (extract_lets +onlyGivenNames _x; first
      | (rename State => _y; refine Only.bring _y ?_ ?_; rotate_left; clear_value _y; intro _; rotate_right; subst _y)
      | (rename _ × State => _y; refine Only.bringSnd _y ?_ ?_; rotate_left; clear_value _y; intro _; rotate_right; subst _y)
      | skip)
    | with_reducible apply Only.ite | (apply Only.into; first
      | with_reducible apply State.waitTime_only
      | with_reducible apply State.modPort_only))

theorem State.gatewayTimer_only (q : Port) (s : State) :
    Only [.clock, .net] s (State.gatewayTimer q s) := by
  unfold State.gatewayTimer
  repeat' (first
    | with_reducible exact Only.refl _ _ | with_reducible assumption
    | ((with_reducible show areasIn _ _ = true); exact rfl) | (apply Only.into; first
      | with_reducible apply State.askGateway_only
      | with_reducible apply State.waitUntil_only)
    | split)

theorem State.syncHeard_only (q : Port) (seq : Nat) (origin : Nat) (corr : Int) (rate : Int) (interval : Int) (receipt : Nat) (s : State) :
    Only [.draws, .log, .net, .time] s (State.syncHeard q seq origin corr rate interval receipt s) := by
  unfold State.syncHeard
  repeat' (first
    | with_reducible exact Only.refl _ _ | with_reducible assumption
    | ((with_reducible show areasIn _ _ = true); exact rfl) | (extract_lets +onlyGivenNames _x; first
      | (rename State => _y; refine Only.bring _y ?_ ?_; rotate_left; clear_value _y; intro _; rotate_right; subst _y)
      | (rename _ × State => _y; refine Only.bringSnd _y ?_ ?_; rotate_left; clear_value _y; intro _; rotate_right; subst _y)
      | skip)
    | with_reducible apply Only.ite | (apply Only.into; first
      | with_reducible apply State.modGptp_only
      | with_reducible apply State.modTime_only
      | with_reducible apply State.correct_only
      | with_reducible apply State.setSynced_only
      | with_reducible apply State.sendGptp_only))

theorem State.gptpReceived_only (s : State) :
    Only [.draws, .log, .net, .time] s (State.gptpReceived s) := by
  unfold State.gptpReceived
  repeat' (first
    | with_reducible exact Only.refl _ _ | with_reducible assumption
    | ((with_reducible show areasIn _ _ = true); exact rfl) | (extract_lets +onlyGivenNames _x; first
      | (rename State => _y; refine Only.bring _y ?_ ?_; rotate_left; clear_value _y; intro _; rotate_right; subst _y)
      | (rename _ × State => _y; refine Only.bringSnd _y ?_ ?_; rotate_left; clear_value _y; intro _; rotate_right; subst _y)
      | skip)
    | with_reducible apply Only.ite | (apply Only.into; first
      | with_reducible apply State.takeFrame_only
      | (with_reducible apply State.takeFrame_only_eq; assumption)
      | with_reducible apply State.sendGptp_only
      | with_reducible apply State.modGptp_only
      | with_reducible apply State.selectMaster_only
      | with_reducible apply State.syncHeard_only)
    | split)

theorem State.graftBack_only (cause : Nat) (ns : Nat) (loaded : Bool) (s : State) :
    Only [.log, .fw] s (State.graftBack cause ns loaded s) := by
  unfold State.graftBack
  repeat' (first
    | with_reducible exact Only.refl _ _ | with_reducible assumption
    | ((with_reducible show areasIn _ _ = true); exact rfl) | (extract_lets +onlyGivenNames _x; first
      | (rename State => _y; refine Only.bring _y ?_ ?_; rotate_left; clear_value _y; intro _; rotate_right; subst _y)
      | (rename _ × State => _y; refine Only.bringSnd _y ?_ ?_; rotate_left; clear_value _y; intro _; rotate_right; subst _y)
      | skip)
    | with_reducible apply Only.ite | (apply Only.into; first
      | with_reducible apply State.modFw_only
      | with_reducible apply State.event_only
      | with_reducible apply State.commitFallback_only)
    | split)

theorem State.graftDone_only (e : Sess) (f : Flight) (p : Package) (ns : Nat) (s : State) :
    Only [.log, .net, .ses, .fw] s (State.graftDone e f p ns s) := by
  unfold State.graftDone
  repeat' (first
    | with_reducible exact Only.refl _ _ | with_reducible assumption
    | ((with_reducible show areasIn _ _ = true); exact rfl) | (extract_lets +onlyGivenNames _x; first
      | (rename State => _y; refine Only.bring _y ?_ ?_; rotate_left; clear_value _y; intro _; rotate_right; subst _y)
      | (rename _ × State => _y; refine Only.bringSnd _y ?_ ?_; rotate_left; clear_value _y; intro _; rotate_right; subst _y)
      | skip)
    | (apply Only.into; first
      | with_reducible apply State.commitTrial_only
      | with_reducible apply State.modFw_only
      | with_reducible apply State.modFlight_only
      | with_reducible apply State.event_only
      | with_reducible apply State.finish_only))

theorem State.graftFails_only (e : Sess) (f : Flight) (s : State) :
    Only [.log, .net, .ses, .fw] s (State.graftFails e f s) := by
  unfold State.graftFails
  repeat' (first
    | with_reducible exact Only.refl _ _ | with_reducible assumption
    | ((with_reducible show areasIn _ _ = true); exact rfl) | (extract_lets +onlyGivenNames _x; first
      | (rename State => _y; refine Only.bring _y ?_ ?_; rotate_left; clear_value _y; intro _; rotate_right; subst _y)
      | (rename _ × State => _y; refine Only.bringSnd _y ?_ ?_; rotate_left; clear_value _y; intro _; rotate_right; subst _y)
      | skip)
    | (apply Only.into; first
      | with_reducible apply State.markFailed_only
      | with_reducible apply State.modFw_only
      | with_reducible apply State.finish_only
      | with_reducible apply State.event_only))

theorem State.handover_only (loaded : Bool) (ns : Nat) (s : State) :
    Only [.log, .net, .ses, .fw] s (State.handover loaded ns s) := by
  unfold State.handover
  repeat' (first
    | with_reducible exact Only.refl _ _ | with_reducible assumption
    | ((with_reducible show areasIn _ _ = true); exact rfl) | (extract_lets +onlyGivenNames _x; first
      | (rename State => _y; refine Only.bring _y ?_ ?_; rotate_left; clear_value _y; intro _; rotate_right; subst _y)
      | (rename _ × State => _y; refine Only.bringSnd _y ?_ ?_; rotate_left; clear_value _y; intro _; rotate_right; subst _y)
      | skip)
    | with_reducible apply Only.ite | (apply Only.into; first
      | with_reducible apply State.graftBack_only
      | with_reducible apply State.graftDone_only
      | with_reducible apply State.graftFails_only
      | with_reducible apply State.modFw_only)
    | split)

theorem State.handshakeExpired_only (sid : Nat) (s : State) :
    Only [.clock, .log, .admin, .ses, .fw] s (State.handshakeExpired sid s) := by
  unfold State.handshakeExpired
  repeat' (first
    | with_reducible exact Only.refl _ _ | with_reducible assumption
    | ((with_reducible show areasIn _ _ = true); exact rfl) | (apply Only.into; first
      | with_reducible apply State.removeSess_only
      | with_reducible apply State.waitUntil_only)
    | split)

theorem State.verifyFails_only (code : Nat) (e : Sess) (f : Flight) (s : State) :
    Only [.log, .net, .ses, .watch, .fw] s (State.verifyFails code e f s) := by
  unfold State.verifyFails
  repeat' (first
    | with_reducible exact Only.refl _ _ | with_reducible assumption
    | ((with_reducible show areasIn _ _ = true); exact rfl) | (apply Only.into; first
      | with_reducible apply State.finish_only
      | with_reducible apply State.refusePackage_only
      | with_reducible apply State.abortJobs_only)
    | split)

theorem State.hashesPass_only (e : Sess) (f : Flight) (d : Download) (s : State) :
    Only [.log, .net, .ses, .watch, .fw] s (State.hashesPass e f d s) := by
  unfold State.hashesPass
  repeat' (first
    | with_reducible exact Only.refl _ _ | with_reducible assumption
    | ((with_reducible show areasIn _ _ = true); exact rfl) | (extract_lets +onlyGivenNames _x; first
      | (rename State => _y; refine Only.bring _y ?_ ?_; rotate_left; clear_value _y; intro _; rotate_right; subst _y)
      | (rename _ × State => _y; refine Only.bringSnd _y ?_ ?_; rotate_left; clear_value _y; intro _; rotate_right; subst _y)
      | skip)
    | with_reducible apply Only.ite | (apply Only.into; first
      | with_reducible apply State.verifyFails_only
      | with_reducible apply State.writeCommit_only
      | with_reducible apply State.modFw_only
      | with_reducible apply State.sayAdmin_only))

theorem State.stageExtent_only (c : Change) (bytes : Nat) (off : Nat) (len : Nat) (base : Option (Nat × Nat)) (part : Nat) (s : State) :
    Only [.store, .media] s (State.stageExtent c bytes off len base part s) := by
  unfold State.stageExtent
  repeat' (first
    | with_reducible exact Only.refl _ _ | with_reducible assumption
    | ((with_reducible show areasIn _ _ = true); exact rfl) | (extract_lets +onlyGivenNames _x; first
      | (rename State => _y; refine Only.bring _y ?_ ?_; rotate_left; clear_value _y; intro _; rotate_right; subst _y)
      | (rename _ × State => _y; refine Only.bringSnd _y ?_ ?_; rotate_left; clear_value _y; intro _; rotate_right; subst _y)
      | skip)
    | (apply Only.into; first
      | with_reducible apply State.requestDrain_only
      | with_reducible apply State.modMedia_only
      | with_reducible apply State.modStore_only))

theorem State.takeBucket_only (c : Charge) (s : State) :
    Only [.reg] s (State.takeBucket c s) := by
  unfold State.takeBucket
  repeat' (first
    | with_reducible exact Only.refl _ _ | with_reducible assumption
    | ((with_reducible show areasIn _ _ = true); exact rfl) | (extract_lets +onlyGivenNames _x; first
      | (rename State => _y; refine Only.bring _y ?_ ?_; rotate_left; clear_value _y; intro _; rotate_right; subst _y)
      | (rename _ × State => _y; refine Only.bringSnd _y ?_ ?_; rotate_left; clear_value _y; intro _; rotate_right; subst _y)
      | skip)
    | with_reducible apply Only.ite
    | (simp only [Only.updated]; with_reducible refine Updated.of ?_ rfl ?_ ?_ ?_ ?_ ?_ ?_ ?_ ?_ ?_ ?_ ?_ ?_ ?_ ?_ ?_ ?_ ?_ ?_ ?_ ?_)
    | with_reducible exact .inr rfl | exact .inl rfl)

theorem State.hostWrote_only (s : State) :
    Only [.store, .media] s (State.hostWrote s) := by
  unfold State.hostWrote
  repeat' (first
    | with_reducible exact Only.refl _ _ | with_reducible assumption
    | ((with_reducible show areasIn _ _ = true); exact rfl) | with_reducible apply Only.when | (apply Only.into; first
      | with_reducible apply State.modStore_only
      | with_reducible apply State.modMedia_only
      | with_reducible apply State.dropOps_only))

theorem State.windbreak_only {c : Charge} {s t : State} (h : s.windbreak c = .ok t) : Only [.store, .reg, .media] s t := by
  unfold State.windbreak at h
  split at h
  · injection h with h
    subst h
    exact Only.into (State.hostWrote_only _) rfl (Only.into (State.takeBucket_only _ _) rfl (Only.refl _ _))
  · cases h
  · cases h

theorem State.runRangeDelete_only (e : Sess) (f : Flight) (start : Bytes) (end_ : Option Bytes) (most : Nat) (s : State) :
    Only [.log, .net, .ses, .store, .reg, .media] s (State.runRangeDelete e f start end_ most s) := by
  unfold State.runRangeDelete
  repeat' (first
    | with_reducible exact Only.refl _ _ | with_reducible assumption
    | ((with_reducible show areasIn _ _ = true); exact rfl) | (extract_lets +onlyGivenNames _x; first
      | (rename State => _y; refine Only.bring _y ?_ ?_; rotate_left; clear_value _y; intro _; rotate_right; subst _y)
      | (rename _ × State => _y; refine Only.bringSnd _y ?_ ?_; rotate_left; clear_value _y; intro _; rotate_right; subst _y)
      | skip)
    | (apply Only.into; first
      | with_reducible apply State.modSes_only
      | (with_reducible apply State.windbreak_only; assumption)
      | with_reducible apply State.endRangeDelete_only
      | with_reducible apply State.modStore_only
      | with_reducible apply State.commit_only
      | with_reducible apply State.expireRange_only
      | with_reducible apply State.stageExtent_only)
    | split)

theorem State.loseVersion_only (r : RequestRef) (t : Nat) (k : Bytes) (num : Nat) (s : State) :
    Only [.mode, .log, .power, .start, .outputs, .media, .journal] s (State.loseVersion r t k num s) := by
  unfold State.loseVersion
  repeat' (first
    | with_reducible exact Only.refl _ _ | with_reducible assumption
    | ((with_reducible show areasIn _ _ = true); exact rfl) | with_reducible apply Only.ite
    | (apply Only.into; with_reducible apply State.losePage_only) | split)

theorem State.keepInStart_only (s : State) :
    Only [.log, .net, .ses, .store, .media, .journal] s (State.keepInStart s) := by
  unfold State.keepInStart
  repeat' (first
    | with_reducible exact Only.refl _ _ | with_reducible assumption
    | ((with_reducible show areasIn _ _ = true); exact rfl) | with_reducible apply Only.ite | (apply Only.into; first
      | with_reducible apply State.keepCompletions_only
      | with_reducible apply State.drainNow_only))

theorem State.tookRead_only (sid : Nat) (msgId : Nat) (step : Nat) (s : State) :
    Only [.media] s (State.tookRead sid msgId step s) := by
  unfold State.tookRead
  repeat' (first
    | with_reducible exact Only.refl _ _ | with_reducible assumption
    | ((with_reducible show areasIn _ _ = true); exact rfl) | (apply Only.into; first
      | with_reducible apply State.dropOps_only
      | with_reducible apply State.countPages_only)
    | split)

theorem State.endHeld_only (sid : Nat) (msgId : Nat) (o : MediaOutcome) (s : State) :
    Only [.mode, .log, .net, .ses, .store, .power, .reg, .start, .outputs, .media, .journal] s (State.endHeld sid msgId o s) := by
  unfold State.endHeld
  repeat' (first
    | with_reducible exact Only.refl _ _ | with_reducible assumption
    | ((with_reducible show areasIn _ _ = true); exact rfl) | (extract_lets +onlyGivenNames _x; first
      | (rename State => _y; refine Only.bring _y ?_ ?_; rotate_left; clear_value _y; intro _; rotate_right; subst _y)
      | (rename _ × State => _y; refine Only.bringSnd _y ?_ ?_; rotate_left; clear_value _y; intro _; rotate_right; subst _y)
      | skip)
    | with_reducible apply Only.ite | with_reducible apply Only.when | (apply Only.into; first
      | with_reducible apply State.tookRead_only
      | with_reducible apply State.loseVersion_only
      | with_reducible apply State.finish_only
      | with_reducible apply State.modStore_only
      | with_reducible apply State.modSes_only
      | with_reducible apply State.runRangeDelete_only)
    | split)

theorem State.heldComplete_only (sid : Nat) (msgId : Nat) (o : MediaOutcome) (s : State) :
    Only [.mode, .log, .net, .ses, .store, .power, .reg, .start, .outputs, .media, .journal] s (State.heldComplete sid msgId o s) := by
  unfold State.heldComplete
  repeat' (first
    | with_reducible exact Only.refl _ _ | ((with_reducible show areasIn _ _ = true); exact rfl)
    | (apply Only.into; first
      | with_reducible apply State.keepInStart_only
      | with_reducible apply State.endHeld_only))

theorem State.historyInterval_only (mean : Int) (s : State) :
    Only [.clock, .admin] s (State.historyInterval mean s) := by
  unfold State.historyInterval
  repeat' (first
    | with_reducible exact Only.refl _ _ | with_reducible assumption
    | ((with_reducible show areasIn _ _ = true); exact rfl) | (extract_lets +onlyGivenNames _x; first
      | (rename State => _y; refine Only.bring _y ?_ ?_; rotate_left; clear_value _y; intro _; rotate_right; subst _y)
      | (rename _ × State => _y; refine Only.bringSnd _y ?_ ?_; rotate_left; clear_value _y; intro _; rotate_right; subst _y)
      | skip)
    | with_reducible apply Only.ite | (apply Only.into; first
      | with_reducible apply State.waitUntil_only
      | with_reducible apply State.modAdmin_only))

theorem State.holdReset_only (reference : Bool) (env : StartEnv) (s : State) :
    Only [.mode, .draws, .cfg, .log, .admin, .net, .time, .ses, .store, .power, .reg, .start, .outputs, .media, .journal, .watch, .sec, .fw] s (State.holdReset reference env s) := by
  unfold State.holdReset
  repeat' (first
    | with_reducible exact Only.refl _ _ | with_reducible assumption
    | ((with_reducible show areasIn _ _ = true); exact rfl) | with_reducible apply Only.ite | (apply Only.into; first
      | with_reducible apply State.modStart_only
      | with_reducible apply State.coldClear_only))

theorem State.switchOff_only (s : State) :
    Only [.mode, .net, .time, .ses, .store, .power, .reg, .start, .outputs, .media, .watch, .sec] s (State.switchOff s) := by
  unfold State.switchOff
  repeat' (first
    | with_reducible exact Only.refl _ _ | with_reducible assumption
    | ((with_reducible show areasIn _ _ = true); exact rfl) | (extract_lets +onlyGivenNames _x; first
      | (rename State => _y; refine Only.bring _y ?_ ?_; rotate_left; clear_value _y; intro _; rotate_right; subst _y)
      | (rename _ × State => _y; refine Only.bringSnd _y ?_ ?_; rotate_left; clear_value _y; intro _; rotate_right; subst _y)
      | skip)
    | (simp only [Only.updated]; with_reducible refine Updated.of ?_ rfl ?_ ?_ ?_ ?_ ?_ ?_ ?_ ?_ ?_ ?_ ?_ ?_ ?_ ?_ ?_ ?_ ?_ ?_ ?_ ?_)
    | with_reducible exact .inr rfl | exact .inl rfl)

theorem State.leaveDusk_only (s : State) :
    Only [.power] s (State.leaveDusk s) := by
  unfold State.leaveDusk
  repeat' (first
    | with_reducible exact Only.refl _ _ | with_reducible assumption
    | ((with_reducible show areasIn _ _ = true); exact rfl)
    | (apply Only.into; with_reducible apply State.modPower_only) | split)

theorem State.holdEnds_only (resetLow : Bool) (vinSeen : Bool) (env : StartEnv) (s : State) :
    Only [.mode, .clock, .draws, .cfg, .log, .admin, .net, .time, .ses, .store, .power, .reg, .start, .outputs, .media, .journal, .watch, .sec, .fw, .startCount] s (State.holdEnds resetLow vinSeen env s) := by
  unfold State.holdEnds
  repeat' (first
    | with_reducible exact Only.refl _ _ | with_reducible assumption
    | ((with_reducible show areasIn _ _ = true); exact rfl) | (extract_lets +onlyGivenNames _x; first
      | (rename State => _y; refine Only.bring _y ?_ ?_; rotate_left; clear_value _y; intro _; rotate_right; subst _y)
      | (rename _ × State => _y; refine Only.bringSnd _y ?_ ?_; rotate_left; clear_value _y; intro _; rotate_right; subst _y)
      | skip)
    | with_reducible apply Only.ite | (apply Only.into; first
      | with_reducible apply State.leaveDusk_only
      | with_reducible apply State.finishDusk_only
      | with_reducible apply State.switchOff_only
      | with_reducible apply State.runStart_only
      | with_reducible apply State.beginCold_only
      | with_reducible apply State.holdReset_only
      | with_reducible apply State.beginRun_only
      | with_reducible apply State.modPower_only
      | with_reducible apply State.modReg_only
      | with_reducible apply State.setMode_only
      | with_reducible apply State.waitUntil_only)
    | split)

theorem State.jobEnds_only (j : ScanJob) (s : State) :
    Only [.log, .net, .ses, .watch, .fw] s (State.jobEnds j s) := by
  unfold State.jobEnds
  repeat' (first
    | with_reducible exact Only.refl _ _ | with_reducible assumption
    | ((with_reducible show areasIn _ _ = true); exact rfl) | (extract_lets +onlyGivenNames _x; first
      | (rename State => _y; refine Only.bring _y ?_ ?_; rotate_left; clear_value _y; intro _; rotate_right; subst _y)
      | (rename _ × State => _y; refine Only.bringSnd _y ?_ ?_; rotate_left; clear_value _y; intro _; rotate_right; subst _y)
      | skip)
    | with_reducible apply Only.ite | (apply Only.into; first
      | with_reducible apply State.modWatch_only
      | with_reducible apply State.abortJobs_only
      | with_reducible apply State.verifyFails_only
      | with_reducible apply State.hashesPass_only)
    | split)

theorem State.waitForFlush_only (s : State) :
    Only [.clock] s (State.waitForFlush s) := by
  unfold State.waitForFlush
  repeat' (first
    | with_reducible exact Only.refl _ _ | with_reducible assumption
    | ((with_reducible show areasIn _ _ = true); exact rfl) | with_reducible apply Only.ite
    | (apply Only.into; with_reducible apply State.waitUntil_only) | split)

theorem State.journalFlush_only (s : State) :
    Only [.clock, .log, .store, .media, .journal] s (State.journalFlush s) := by
  unfold State.journalFlush
  repeat' (first
    | with_reducible exact Only.refl _ _ | with_reducible assumption
    | ((with_reducible show areasIn _ _ = true); exact rfl) | (extract_lets +onlyGivenNames _x; first
      | (rename State => _y; refine Only.bring _y ?_ ?_; rotate_left; clear_value _y; intro _; rotate_right; subst _y)
      | (rename _ × State => _y; refine Only.bringSnd _y ?_ ?_; rotate_left; clear_value _y; intro _; rotate_right; subst _y)
      | skip)
    | with_reducible apply Only.ite | (apply Only.into; first
      | with_reducible apply State.writeEntry_only
      | with_reducible apply State.waitForFlush_only
      | with_reducible apply State.kickAll_only))

theorem State.judgeLoop_only (r : TamperReading) (s : State) :
    Only [.draws] s (State.judgeLoop r s).2 := by
  unfold State.judgeLoop
  repeat' (first
    | with_reducible exact Only.refl _ _ | with_reducible assumption
    | ((with_reducible show areasIn _ _ = true); exact rfl) | with_reducible apply Only.ite | (apply Only.into; first
      | with_reducible apply State.draw_only
      | (with_reducible apply State.draw_only_eq; assumption))
    | split)

theorem State.judgeLoop_only_eq {r : TamperReading} {s : State} {p : _} {t : State} (h : State.judgeLoop r s = (p, t)) :
    Only [.draws] s t := by
  have k := State.judgeLoop_only r s
  rw [h] at k
  exact k

theorem State.keepalive_only (sid : Nat) (msgId : Nat) (s : State) :
    Only [.log, .net, .time, .ses] s (State.keepalive sid msgId s) := by
  unfold State.keepalive
  repeat' (first
    | with_reducible exact Only.refl _ _ | with_reducible assumption
    | ((with_reducible show areasIn _ _ = true); exact rfl) | (extract_lets +onlyGivenNames _x; first
      | (rename State => _y; refine Only.bring _y ?_ ?_; rotate_left; clear_value _y; intro _; rotate_right; subst _y)
      | (rename _ × State => _y; refine Only.bringSnd _y ?_ ?_; rotate_left; clear_value _y; intro _; rotate_right; subst _y)
      | skip)
    | (apply Only.into; first
      | with_reducible apply State.takeRequest_only
      | (with_reducible apply State.takeRequest_only_eq; assumption)
      | with_reducible apply State.fail_only
      | with_reducible apply State.finish_only)
    | split)

theorem State.riskEntered_only (j : Int) (s : State) :
    Only [.log, .admin, .power] s (State.riskEntered j s) := by
  unfold State.riskEntered
  repeat' (first
    | with_reducible exact Only.refl _ _ | with_reducible assumption
    | ((with_reducible show areasIn _ _ = true); exact rfl) | with_reducible apply Only.ite | (apply Only.into; first
      | with_reducible apply State.event_only
      | with_reducible apply State.modAdmin_only
      | with_reducible apply State.modPower_only))

theorem State.risk_only (j : Int) (pace : Bool) (s : State) :
    Only [.log, .admin, .power] s (State.risk j pace s) := by
  unfold State.risk
  repeat' (first
    | with_reducible exact Only.refl _ _ | with_reducible assumption
    | ((with_reducible show areasIn _ _ = true); exact rfl) | (extract_lets +onlyGivenNames _x; first
      | (rename State => _y; refine Only.bring _y ?_ ?_; rotate_left; clear_value _y; intro _; rotate_right; subst _y)
      | (rename _ × State => _y; refine Only.bringSnd _y ?_ ?_; rotate_left; clear_value _y; intro _; rotate_right; subst _y)
      | skip)
    | with_reducible apply Only.ite | (apply Only.into; first
      | with_reducible apply State.modPower_only
      | with_reducible apply State.noteJunction_only
      | with_reducible apply State.riskEntered_only))

theorem State.lapse_only (j : Int) (pace : Bool) (s : State) :
    Only [.log, .admin, .power] s (State.lapse j pace s) := by
  unfold State.lapse
  repeat' (first
    | with_reducible exact Only.refl _ _ | with_reducible assumption
    | ((with_reducible show areasIn _ _ = true); exact rfl) | (extract_lets +onlyGivenNames _x; first
      | (rename State => _y; refine Only.bring _y ?_ ?_; rotate_left; clear_value _y; intro _; rotate_right; subst _y)
      | (rename _ × State => _y; refine Only.bringSnd _y ?_ ?_; rotate_left; clear_value _y; intro _; rotate_right; subst _y)
      | skip)
    | with_reducible apply Only.ite | (apply Only.into; first
      | with_reducible apply State.risk_only
      | with_reducible apply State.event_only
      | with_reducible apply State.modPower_only))

theorem State.limitClose_only (s : State) :
    Only [.clock, .start, .outputs] s (State.limitClose s) := by
  unfold State.limitClose
  repeat' (first
    | with_reducible exact Only.refl _ _ | with_reducible assumption
    | ((with_reducible show areasIn _ _ = true); exact rfl) | (apply Only.into; first
      | with_reducible apply State.modStart_only
      | with_reducible apply State.waitUntil_only)
    | split)

theorem State.linkUp_only (q : Port) (speed : Nat) (resolved : Bool) (s : State) :
    Only [.log, .admin, .net, .time, .ses, .start, .outputs, .fw] s (State.linkUp q speed resolved s) := by
  unfold State.linkUp
  repeat' (first
    | with_reducible exact Only.refl _ _ | with_reducible assumption
    | ((with_reducible show areasIn _ _ = true); exact rfl) | with_reducible apply Only.ite
    | (apply Only.into; with_reducible apply State.bringUp_only))

theorem State.lockDrained_only (s : State) :
    Only [.log, .store, .media, .journal, .sec] s (State.lockDrained s) := by
  unfold State.lockDrained
  repeat' (first
    | with_reducible exact Only.refl _ _ | with_reducible assumption
    | ((with_reducible show areasIn _ _ = true); exact rfl) | with_reducible apply Only.ite | (apply Only.into; first
      | with_reducible apply State.modStore_only
      | with_reducible apply State.modSec_only
      | with_reducible apply State.drainNow_only))

theorem State.lockGrant_only (s : State) :
    Only [.ses, .store] s (State.lockGrant s) := by
  unfold State.lockGrant
  repeat' (first
    | with_reducible exact Only.refl _ _ | ((with_reducible show areasIn _ _ = true); exact rfl)
    | (apply Only.into; with_reducible apply State.examine_only))

theorem State.openImage_only (a : Ask) (s : State) :
    Only [.draws, .ses] s (State.openImage a s) := by
  unfold State.openImage
  repeat' (first
    | with_reducible exact Only.refl _ _ | with_reducible assumption
    | ((with_reducible show areasIn _ _ = true); exact rfl) | (extract_lets +onlyGivenNames _x; first
      | (rename State => _y; refine Only.bring _y ?_ ?_; rotate_left; clear_value _y; intro _; rotate_right; subst _y)
      | (rename _ × State => _y; refine Only.bringSnd _y ?_ ?_; rotate_left; clear_value _y; intro _; rotate_right; subst _y)
      | skip)
    | with_reducible apply Only.ite | (apply Only.into; first
      | with_reducible apply State.draw_only
      | (with_reducible apply State.draw_only_eq; assumption)
      | with_reducible apply State.modSess_only)
    | split)

theorem State.refuseLy1_only (a : Ask) (status : Nat) (reason : Nat) (range : Bool) (s : State) :
    Only [.draws, .log, .net, .ses] s (State.refuseLy1 a status reason range s) := by
  unfold State.refuseLy1
  repeat' (first
    | with_reducible exact Only.refl _ _ | with_reducible assumption
    | ((with_reducible show areasIn _ _ = true); exact rfl) | with_reducible apply Only.ite | (apply Only.into; first
      | with_reducible apply State.say_only
      | with_reducible apply State.modFlight_only
      | with_reducible apply State.openImage_only
      | with_reducible apply State.finishLy1_only)
    | split)

theorem State.ndReceived_only (s : State) :
    Only [.log, .net] s (State.ndReceived s) := by
  unfold State.ndReceived
  repeat' (first
    | with_reducible exact Only.refl _ _ | with_reducible assumption
    | ((with_reducible show areasIn _ _ = true); exact rfl) | (extract_lets +onlyGivenNames _x; first
      | (rename State => _y; refine Only.bring _y ?_ ?_; rotate_left; clear_value _y; intro _; rotate_right; subst _y)
      | (rename _ × State => _y; refine Only.bringSnd _y ?_ ?_; rotate_left; clear_value _y; intro _; rotate_right; subst _y)
      | skip)
    | with_reducible apply Only.ite | (apply Only.into; first
      | with_reducible apply State.takeFrame_only
      | (with_reducible apply State.takeFrame_only_eq; assumption)
      | with_reducible apply State.conflict_only
      | with_reducible apply State.sendRaw_only)
    | split)

theorem State.noteBank_only (mv : Nat) (s : State) :
    Only [.power, .reg, .journal] s (State.noteBank mv s) := by
  unfold State.noteBank
  repeat' (first
    | with_reducible exact Only.refl _ _ | with_reducible assumption
    | ((with_reducible show areasIn _ _ = true); exact rfl) | (extract_lets +onlyGivenNames _x; first
      | (rename State => _y; refine Only.bring _y ?_ ?_; rotate_left; clear_value _y; intro _; rotate_right; subst _y)
      | (rename _ × State => _y; refine Only.bringSnd _y ?_ ?_; rotate_left; clear_value _y; intro _; rotate_right; subst _y)
      | skip)
    | with_reducible apply Only.ite | (apply Only.into; first
      | with_reducible apply State.modPower_only
      | with_reducible apply State.modReg_only
      | with_reducible apply State.modJournal_only))

theorem State.oscillated_only (ch : Nat) (o : OscEvent) (s : State) :
    Only [.log] s (State.oscillated ch o s) := by
  unfold State.oscillated
  repeat' (first
    | with_reducible exact Only.refl _ _ | with_reducible assumption
    | ((with_reducible show areasIn _ _ = true); exact rfl) | (apply Only.into; with_reducible apply State.event_only)
    | split)

theorem State.overheated_only (junction : Int) (paid : Bool) (s : State) :
    Only [.mode, .log, .admin, .net, .time, .ses, .store, .power, .reg, .start, .outputs, .media, .journal, .watch, .fw] s (State.overheated junction paid s) := by
  unfold State.overheated
  repeat' (first
    | with_reducible exact Only.refl _ _ | with_reducible assumption
    | ((with_reducible show areasIn _ _ = true); exact rfl) | (extract_lets +onlyGivenNames _x; first
      | (rename State => _y; refine Only.bring _y ?_ ?_; rotate_left; clear_value _y; intro _; rotate_right; subst _y)
      | (rename _ × State => _y; refine Only.bringSnd _y ?_ ?_; rotate_left; clear_value _y; intro _; rotate_right; subst _y)
      | skip)
    | with_reducible apply Only.ite | (apply Only.into; first
      | with_reducible apply State.modPower_only
      | with_reducible apply State.noteJunction_only
      | with_reducible apply State.modAdmin_only
      | with_reducible apply State.commitDusk_only
      | with_reducible apply State.deferEvent_only))

theorem State.overvolted_only (vin : Nat) (paid : Bool) (s : State) :
    Only [.mode, .log, .admin, .net, .time, .ses, .store, .power, .reg, .start, .outputs, .media, .journal, .watch, .fw] s (State.overvolted vin paid s) := by
  unfold State.overvolted
  repeat' (first
    | with_reducible exact Only.refl _ _ | with_reducible assumption
    | ((with_reducible show areasIn _ _ = true); exact rfl) | with_reducible apply Only.ite
    | (apply Only.into; with_reducible apply State.supplyDusk_only))

theorem State.pauseAgain_only (q : Port) (s : State) :
    Only [.clock, .net] s (State.pauseAgain q s) := by
  unfold State.pauseAgain
  repeat' (first
    | with_reducible exact Only.refl _ _ | with_reducible assumption
    | ((with_reducible show areasIn _ _ = true); exact rfl) | (extract_lets +onlyGivenNames _x; first
      | (rename State => _y; refine Only.bring _y ?_ ?_; rotate_left; clear_value _y; intro _; rotate_right; subst _y)
      | (rename _ × State => _y; refine Only.bringSnd _y ?_ ?_; rotate_left; clear_value _y; intro _; rotate_right; subst _y)
      | skip)
    | (apply Only.into; first
      | with_reducible apply State.waitUntil_only
      | with_reducible apply State.modPort_only)
    | split)

theorem State.pauseOver_only (q : Port) (s : State) :
    Only [.clock, .net] s (State.pauseOver q s) := by
  unfold State.pauseOver
  repeat' (first
    | with_reducible exact Only.refl _ _ | with_reducible assumption
    | ((with_reducible show areasIn _ _ = true); exact rfl) | (apply Only.into; first
      | with_reducible apply State.modPort_only
      | with_reducible apply State.waitUntil_only)
    | split)

theorem State.pauseReceived_only (s : State) :
    Only [.net] s (State.pauseReceived s) := by
  unfold State.pauseReceived
  repeat' (first
    | with_reducible exact Only.refl _ _ | with_reducible assumption
    | ((with_reducible show areasIn _ _ = true); exact rfl) | (extract_lets +onlyGivenNames _x; first
      | (rename State => _y; refine Only.bring _y ?_ ?_; rotate_left; clear_value _y; intro _; rotate_right; subst _y)
      | (rename _ × State => _y; refine Only.bringSnd _y ?_ ?_; rotate_left; clear_value _y; intro _; rotate_right; subst _y)
      | skip)
    | with_reducible apply Only.ite | (apply Only.into; first
      | with_reducible apply State.takeFrame_only
      | (with_reducible apply State.takeFrame_only_eq; assumption)
      | with_reducible apply State.modPort_only)
    | split)

theorem State.pdelayRequest_only (s : State) :
    Only [.clock, .net, .time] s (State.pdelayRequest s) := by
  unfold State.pdelayRequest
  repeat' (first
    | with_reducible exact Only.refl _ _ | with_reducible assumption
    | ((with_reducible show areasIn _ _ = true); exact rfl) | (extract_lets +onlyGivenNames _x; first
      | (rename State => _y; refine Only.bring _y ?_ ?_; rotate_left; clear_value _y; intro _; rotate_right; subst _y)
      | (rename _ × State => _y; refine Only.bringSnd _y ?_ ?_; rotate_left; clear_value _y; intro _; rotate_right; subst _y)
      | skip)
    | with_reducible apply Only.ite | with_reducible apply Only.when | (apply Only.into; first
      | with_reducible apply State.waitUntil_only
      | with_reducible apply State.sendGptp_only
      | with_reducible apply State.modGptp_only
      | with_reducible apply State.modTime_only))

theorem State.warned_only (cause : BraceCause) (s : State) :
    Only [.mode, .log, .power, .reg] s (State.warned cause s) := by
  unfold State.warned
  repeat' (first
    | with_reducible exact Only.refl _ _ | with_reducible assumption
    | ((with_reducible show areasIn _ _ = true); exact rfl) | (apply Only.into; first
      | with_reducible apply State.event_only
      | with_reducible apply State.modPower_only
      | with_reducible apply State.enterBrace_only)
    | split)

theorem State.pfwWarned_only (s : State) :
    Only [.mode, .log, .power, .reg] s (State.pfwWarned s) := by
  unfold State.pfwWarned
  repeat' (first
    | with_reducible exact Only.refl _ _ | with_reducible assumption
    | ((with_reducible show areasIn _ _ = true); exact rfl) | with_reducible apply Only.ite | (apply Only.into; first
      | with_reducible apply State.warned_only
      | with_reducible apply State.modPower_only))

theorem State.plainRow_only (opcode : Nat) (sid : Nat) (msgId : Nat) (s : State) :
    Only [.draws, .log, .net, .time, .ses] s (State.plainRow opcode sid msgId s) := by
  unfold State.plainRow
  repeat' (first
    | with_reducible exact Only.refl _ _ | with_reducible assumption
    | ((with_reducible show areasIn _ _ = true); exact rfl) | (extract_lets +onlyGivenNames _x; first
      | (rename State => _y; refine Only.bring _y ?_ ?_; rotate_left; clear_value _y; intro _; rotate_right; subst _y)
      | (rename _ × State => _y; refine Only.bringSnd _y ?_ ?_; rotate_left; clear_value _y; intro _; rotate_right; subst _y)
      | skip)
    | (apply Only.into; first
      | with_reducible apply State.takeRequest_only
      | (with_reducible apply State.takeRequest_only_eq; assumption)
      | with_reducible apply State.finish_only
      | with_reducible apply State.askAdmin_only)
    | split)

theorem State.portCloses_only (env : StartEnv) (s : State) :
    Only [.mode, .clock, .draws, .cfg, .log, .admin, .net, .time, .ses, .store, .power, .reg, .start, .outputs, .media, .journal, .watch, .sec, .fw, .startCount] s (State.portCloses env s) := by
  unfold State.portCloses
  repeat' (first
    | with_reducible exact Only.refl _ _ | with_reducible assumption
    | ((with_reducible show areasIn _ _ = true); exact rfl) | (extract_lets +onlyGivenNames _x; first
      | (rename State => _y; refine Only.bring _y ?_ ?_; rotate_left; clear_value _y; intro _; rotate_right; subst _y)
      | (rename _ × State => _y; refine Only.bringSnd _y ?_ ?_; rotate_left; clear_value _y; intro _; rotate_right; subst _y)
      | skip)
    | with_reducible apply Only.ite | (apply Only.into; first
      | with_reducible apply State.modStart_only
      | with_reducible apply State.runStart_only
      | with_reducible apply State.beginCold_only
      | with_reducible apply State.stopRecord_only
      | with_reducible apply State.quiesce_only
      | with_reducible apply State.modSec_only
      | with_reducible apply State.startWatch_only))

end Sys2Proof.Machine
end

