-- ==== Sys2Proof/Laws/Frames6.lean ====
section
/-!
SUPPORT. What each operation of the machine can touch, one lemma for each, callees before callers; part 6 of 6.
-/
set_option linter.tactic.unusedName false
set_option linter.unusedSimpArgs false
namespace Sys2Proof.Machine

theorem State.sealForPort_only (s : State) :
    Only [.mode, .draws, .log, .admin, .net, .ses, .store, .power, .reg, .start, .outputs, .media, .journal, .sec, .fw] s (State.sealForPort s) := by
  unfold State.sealForPort
  repeat' (first
    | with_reducible exact Only.refl _ _ | with_reducible assumption
    | ((with_reducible show areasIn _ _ = true); exact rfl) | with_reducible apply Only.ite | (apply Only.into; first
      | with_reducible apply State.eraseAll_only
      | with_reducible apply State.event_only
      | with_reducible apply State.sealErased_only
      | with_reducible apply State.enter_only))

theorem State.portOpens_only (s : State) :
    Only [.mode, .draws, .log, .admin, .net, .ses, .store, .power, .reg, .start, .outputs, .media, .journal, .watch, .sec, .fw] s (State.portOpens s) := by
  unfold State.portOpens
  repeat' (first
    | with_reducible exact Only.refl _ _ | with_reducible assumption
    | ((with_reducible show areasIn _ _ = true); exact rfl) | (extract_lets +onlyGivenNames _x; first
      | (rename State => _y; refine Only.bring _y ?_ ?_; rotate_left; clear_value _y; intro _; rotate_right; subst _y)
      | (rename _ × State => _y; refine Only.bringSnd _y ?_ ?_; rotate_left; clear_value _y; intro _; rotate_right; subst _y)
      | skip)
    | with_reducible apply Only.ite | (apply Only.into; first
      | with_reducible apply State.awaken_only
      | with_reducible apply State.stopWatch_only
      | with_reducible apply State.sealForPort_only
      | with_reducible apply State.modStart_only))

theorem State.ppsReject_only (s : State) :
    Only [.net, .time] s (State.ppsReject s) := by
  unfold State.ppsReject
  repeat' (first
    | with_reducible exact Only.refl _ _ | with_reducible assumption
    | ((with_reducible show areasIn _ _ = true); exact rfl) | with_reducible apply Only.ite | (apply Only.into; first
      | with_reducible apply State.modTime_only
      | with_reducible apply State.count_only))

theorem State.ppsUse_only (stamp : Nat) (s : State) :
    Only [.draws, .log, .net, .time] s (State.ppsUse stamp s) := by
  unfold State.ppsUse
  repeat' (first
    | with_reducible exact Only.refl _ _ | with_reducible assumption
    | ((with_reducible show areasIn _ _ = true); exact rfl) | (extract_lets +onlyGivenNames _x; first
      | (rename State => _y; refine Only.bring _y ?_ ?_; rotate_left; clear_value _y; intro _; rotate_right; subst _y)
      | (rename _ × State => _y; refine Only.bringSnd _y ?_ ?_; rotate_left; clear_value _y; intro _; rotate_right; subst _y)
      | skip)
    | with_reducible apply Only.ite | (apply Only.into; first
      | with_reducible apply State.modTime_only
      | with_reducible apply State.stepTime_only
      | with_reducible apply State.ppsReject_only
      | with_reducible apply State.correct_only)
    | split)

theorem State.ppsEdge_only (lowNs : Nat) (highNs : Nat) (s : State) :
    Only [.clock, .draws, .log, .net, .time] s (State.ppsEdge lowNs highNs s) := by
  unfold State.ppsEdge
  repeat' (first
    | with_reducible exact Only.refl _ _ | with_reducible assumption
    | ((with_reducible show areasIn _ _ = true); exact rfl) | (extract_lets +onlyGivenNames _x; first
      | (rename State => _y; refine Only.bring _y ?_ ?_; rotate_left; clear_value _y; intro _; rotate_right; subst _y)
      | (rename _ × State => _y; refine Only.bringSnd _y ?_ ?_; rotate_left; clear_value _y; intro _; rotate_right; subst _y)
      | skip)
    | with_reducible apply Only.ite | (apply Only.into; first
      | with_reducible apply State.count_only
      | with_reducible apply State.ppsUse_only
      | with_reducible apply State.modTime_only
      | with_reducible apply State.waitUntil_only))

theorem State.ppsFall_only (s : State) :
    Only [.clock, .time] s (State.ppsFall s) := by
  unfold State.ppsFall
  repeat' (first
    | with_reducible exact Only.refl _ _ | with_reducible assumption
    | ((with_reducible show areasIn _ _ = true); exact rfl) | (apply Only.into; first
      | with_reducible apply State.modTime_only
      | with_reducible apply State.waitUntil_only)
    | split)

theorem State.ppsOut_only (s : State) :
    Only [.clock, .time] s (State.ppsOut s) := by
  unfold State.ppsOut
  repeat' (first
    | with_reducible exact Only.refl _ _ | with_reducible assumption
    | ((with_reducible show areasIn _ _ = true); exact rfl) | (extract_lets +onlyGivenNames _x; first
      | (rename State => _y; refine Only.bring _y ?_ ?_; rotate_left; clear_value _y; intro _; rotate_right; subst _y)
      | (rename _ × State => _y; refine Only.bringSnd _y ?_ ?_; rotate_left; clear_value _y; intro _; rotate_right; subst _y)
      | skip)
    | with_reducible apply Only.ite | (apply Only.into; first
      | with_reducible apply State.waitTime_only
      | with_reducible apply State.modTime_only)
    | split)

theorem State.promote_only (op : Nat) (s : State) :
    Only [.clock, .media] s (State.promote op s) := by
  unfold State.promote
  repeat' (first
    | with_reducible exact Only.refl _ _ | with_reducible assumption
    | ((with_reducible show areasIn _ _ = true); exact rfl) | with_reducible apply Only.ite | (apply Only.into; first
      | with_reducible apply State.modMedia_only
      | with_reducible apply State.waitUntil_only)
    | split)

theorem State.readFails_only (a : Ask) (p : Ly1Body) (i : Nat) (s : State) :
    Only [.log, .net, .ses] s (State.readFails a p i s) := by
  unfold State.readFails
  repeat' (first
    | with_reducible exact Only.refl _ _ | with_reducible assumption
    | ((with_reducible show areasIn _ _ = true); exact rfl) | (extract_lets +onlyGivenNames _x; first
      | (rename State => _y; refine Only.bring _y ?_ ?_; rotate_left; clear_value _y; intro _; rotate_right; subst _y)
      | (rename _ × State => _y; refine Only.bringSnd _y ?_ ?_; rotate_left; clear_value _y; intro _; rotate_right; subst _y)
      | skip)
    | (apply Only.into; with_reducible apply State.finishLy1_only))

theorem State.readKnown_only (lost : Option Nat) (a : Ask) (p : Ly1Body) (s : State) :
    Only [.log, .net, .ses] s (State.readKnown lost a p s) := by
  unfold State.readKnown
  repeat' (first
    | with_reducible exact Only.refl _ _ | with_reducible assumption
    | ((with_reducible show areasIn _ _ = true); exact rfl) | (apply Only.into; first
      | with_reducible apply State.readFails_only
      | with_reducible apply State.finishLy1_only)
    | split)

theorem State.hardSector_only (a : Ask) (p : Ly1Body) (s : State) (h : Nat × Nat × Nat) :
    Only [.media] s (State.hardSector a p s h) := by
  unfold State.hardSector
  repeat' (first
    | with_reducible exact Only.refl _ _ | with_reducible assumption
    | ((with_reducible show areasIn _ _ = true); exact rfl) | (extract_lets +onlyGivenNames _x; first
      | (rename State => _y; refine Only.bring _y ?_ ?_; rotate_left; clear_value _y; intro _; rotate_right; subst _y)
      | (rename _ × State => _y; refine Only.bringSnd _y ?_ ?_; rotate_left; clear_value _y; intro _; rotate_right; subst _y)
      | skip)
    | with_reducible apply Only.ite | (apply Only.into; first
      | with_reducible apply State.kick_only
      | with_reducible apply State.noteDifficult_only
      | with_reducible apply State.countReads_only)
    | split)

theorem State.countSectors_only (a : Ask) (p : Ly1Body) (n : Nat) (s : State) :
    Only [.media] s (State.countSectors a p n s) := by
  unfold State.countSectors
  repeat' (first
    | with_reducible exact Only.refl _ _ | with_reducible assumption
    | ((with_reducible show areasIn _ _ = true); exact rfl) | with_reducible apply Only.ite
    | (apply Only.into; with_reducible apply State.countReads_only) | (with_reducible apply Only.foldl; (intro _ _)))

theorem State.readSectors_only (o : SectorOutcome) (a : Ask) (p : Ly1Body) (s : State) :
    Only [.mode, .log, .net, .ses, .power, .start, .outputs, .media, .journal] s (State.readSectors o a p s) := by
  unfold State.readSectors
  repeat' (first
    | with_reducible exact Only.refl _ _ | with_reducible assumption
    | ((with_reducible show areasIn _ _ = true); exact rfl) | (extract_lets +onlyGivenNames _x; first
      | (rename State => _y; refine Only.bring _y ?_ ?_; rotate_left; clear_value _y; intro _; rotate_right; subst _y)
      | (rename _ × State => _y; refine Only.bringSnd _y ?_ ?_; rotate_left; clear_value _y; intro _; rotate_right; subst _y)
      | skip)
    | with_reducible apply Only.ite | (apply Only.into; first
      | with_reducible apply State.readKnown_only
      | with_reducible apply State.hardSector_only
      | with_reducible apply State.countSectors_only
      | with_reducible apply State.loseVersion_only
      | with_reducible apply State.readFails_only
      | with_reducible apply State.checkMismatch_only)
    | (with_reducible apply Only.foldl; (intro _ _)) | split)

theorem State.readyEntry_only (s : State) :
    Only [.mode, .log, .net, .power, .start, .outputs, .media] s (State.readyEntry s) := by
  unfold State.readyEntry
  repeat' (first
    | with_reducible exact Only.refl _ _ | with_reducible assumption
    | ((with_reducible show areasIn _ _ = true); exact rfl) | with_reducible apply Only.ite
    | (apply Only.into; with_reducible apply State.enterTop_only) | split)

theorem State.rearm_only (s : State) :
    Only [.clock, .power] s (State.rearm s) := by
  unfold State.rearm
  repeat' (first
    | with_reducible exact Only.refl _ _ | with_reducible assumption
    | ((with_reducible show areasIn _ _ = true); exact rfl) | (extract_lets +onlyGivenNames _x; first
      | (rename State => _y; refine Only.bring _y ?_ ?_; rotate_left; clear_value _y; intro _; rotate_right; subst _y)
      | (rename _ × State => _y; refine Only.bringSnd _y ?_ ?_; rotate_left; clear_value _y; intro _; rotate_right; subst _y)
      | skip)
    | with_reducible apply Only.ite | (apply Only.into; first
      | with_reducible apply State.modPower_only
      | with_reducible apply State.waitUntil_only)
    | split)

theorem State.referenceBack_only (env : StartEnv) (s : State) :
    Only [.mode, .clock, .draws, .cfg, .log, .admin, .net, .time, .ses, .store, .power, .reg, .start, .outputs, .media, .journal, .watch, .sec, .fw, .startCount] s (State.referenceBack env s) := by
  unfold State.referenceBack
  repeat' (first
    | with_reducible exact Only.refl _ _ | with_reducible assumption
    | ((with_reducible show areasIn _ _ = true); exact rfl) | (extract_lets +onlyGivenNames _x; first
      | (rename State => _y; refine Only.bring _y ?_ ?_; rotate_left; clear_value _y; intro _; rotate_right; subst _y)
      | (rename _ × State => _y; refine Only.bringSnd _y ?_ ?_; rotate_left; clear_value _y; intro _; rotate_right; subst _y)
      | skip)
    | with_reducible apply Only.ite | (apply Only.into; first
      | with_reducible apply State.modPower_only
      | with_reducible apply State.runStart_only
      | with_reducible apply State.beginCold_only))

theorem State.referenceLost_only (paid : Bool) (s : State) :
    Only [.mode, .log, .admin, .net, .time, .ses, .store, .power, .reg, .start, .outputs, .media, .journal, .watch, .fw] s (State.referenceLost paid s) := by
  unfold State.referenceLost
  repeat' (first
    | with_reducible exact Only.refl _ _ | with_reducible assumption
    | ((with_reducible show areasIn _ _ = true); exact rfl) | (extract_lets +onlyGivenNames _x; first
      | (rename State => _y; refine Only.bring _y ?_ ?_; rotate_left; clear_value _y; intro _; rotate_right; subst _y)
      | (rename _ × State => _y; refine Only.bringSnd _y ?_ ?_; rotate_left; clear_value _y; intro _; rotate_right; subst _y)
      | skip)
    | with_reducible apply Only.ite | (apply Only.into; first
      | with_reducible apply State.modPower_only
      | with_reducible apply State.commitDusk_only
      | with_reducible apply State.deferEvent_only))

theorem State.resetHeld_only (s : State) :
    Only [.mode, .clock, .draws, .cfg, .log, .admin, .net, .time, .ses, .store, .power, .reg, .start, .outputs, .media, .journal, .watch, .sec, .fw] s (State.resetHeld s) := by
  unfold State.resetHeld
  repeat' (first
    | with_reducible exact Only.refl _ _ | with_reducible assumption
    | ((with_reducible show areasIn _ _ = true); exact rfl) | with_reducible apply Only.ite | (apply Only.into; first
      | with_reducible apply State.modStart_only
      | with_reducible apply State.coldClear_only
      | with_reducible apply State.waitUntil_only)
    | split)

theorem State.resetReleased_only (env : StartEnv) (s : State) :
    Only [.mode, .clock, .draws, .cfg, .log, .admin, .net, .time, .ses, .store, .power, .reg, .start, .outputs, .media, .journal, .watch, .sec, .fw, .startCount] s (State.resetReleased env s) := by
  unfold State.resetReleased
  repeat' (first
    | with_reducible exact Only.refl _ _ | with_reducible assumption
    | ((with_reducible show areasIn _ _ = true); exact rfl) | (extract_lets +onlyGivenNames _x; first
      | (rename State => _y; refine Only.bring _y ?_ ?_; rotate_left; clear_value _y; intro _; rotate_right; subst _y)
      | (rename _ × State => _y; refine Only.bringSnd _y ?_ ?_; rotate_left; clear_value _y; intro _; rotate_right; subst _y)
      | skip)
    | with_reducible apply Only.ite | (apply Only.into; first
      | with_reducible apply State.resetHeld_only
      | with_reducible apply State.modStart_only
      | with_reducible apply State.runStart_only
      | with_reducible apply State.beginCold_only
      | with_reducible apply State.beginRun_only
      | with_reducible apply State.restartWarm_only)
    | split)

theorem State.noteResetLow_only (s : State) :
    Only [.start, .outputs] s (State.noteResetLow s) := by
  unfold State.noteResetLow
  repeat' (first
    | with_reducible exact Only.refl _ _ | ((with_reducible show areasIn _ _ = true); exact rfl)
    | (apply Only.into; with_reducible apply State.modStart_only))

theorem State.resetSeen_only (s : State) :
    Only [.mode, .clock, .draws, .cfg, .log, .admin, .net, .time, .ses, .store, .power, .reg, .start, .outputs, .media, .journal, .watch, .sec, .fw, .startCount] s (State.resetSeen s) := by
  unfold State.resetSeen
  repeat' (first
    | with_reducible exact Only.refl _ _ | with_reducible assumption
    | ((with_reducible show areasIn _ _ = true); exact rfl) | with_reducible apply Only.ite | (apply Only.into; first
      | with_reducible apply State.holdEnds_only
      | with_reducible apply State.noteResetLow_only
      | with_reducible apply State.orderlyStop_only)
    | split)

theorem State.retryProgram_only (id : Nat) (s : State) :
    Only [.clock, .store, .media] s (State.retryProgram id s) := by
  unfold State.retryProgram
  repeat' (first
    | with_reducible exact Only.refl _ _ | with_reducible assumption
    | ((with_reducible show areasIn _ _ = true); exact rfl) | with_reducible apply Only.ite | (apply Only.into; first
      | with_reducible apply State.requestDrain_only
      | with_reducible apply State.modStore_only
      | with_reducible apply State.waitUntil_only)
    | split)

theorem State.riskCleared_only (j : Int) (s : State) :
    Only [.log, .admin, .power] s (State.riskCleared j s) := by
  unfold State.riskCleared
  repeat' (first
    | with_reducible exact Only.refl _ _ | with_reducible assumption
    | ((with_reducible show areasIn _ _ = true); exact rfl) | with_reducible apply Only.ite | (apply Only.into; first
      | with_reducible apply State.event_only
      | with_reducible apply State.modPower_only
      | with_reducible apply State.noteJunction_only))

theorem State.runBegin_only (a : Ask) (op : AdminOp) (s : State) :
    Only [.draws, .log, .net, .ses, .fw] s (State.runBegin a op s) := by
  unfold State.runBegin
  repeat' (first
    | with_reducible exact Only.refl _ _ | with_reducible assumption
    | ((with_reducible show areasIn _ _ = true); exact rfl) | with_reducible apply Only.ite | (apply Only.into; first
      | with_reducible apply State.finish_only
      | with_reducible apply State.refusePackage_only
      | with_reducible apply State.askAdmin_only)
    | split)

theorem State.runDelete_only (x : Admitted) (s : State) :
    Only [.log, .net, .ses, .store, .reg, .media] s (State.runDelete x s) := by
  unfold State.runDelete
  repeat' (first
    | with_reducible exact Only.refl _ _ | with_reducible assumption
    | ((with_reducible show areasIn _ _ = true); exact rfl) | (extract_lets +onlyGivenNames _x; first
      | (rename State => _y; refine Only.bring _y ?_ ?_; rotate_left; clear_value _y; intro _; rotate_right; subst _y)
      | (rename _ × State => _y; refine Only.bringSnd _y ?_ ?_; rotate_left; clear_value _y; intro _; rotate_right; subst _y)
      | skip)
    | with_reducible apply Only.ite | (apply Only.into; first
      | with_reducible apply State.expirePin_only
      | with_reducible apply State.fail_only
      | (with_reducible apply State.windbreak_only; assumption)
      | with_reducible apply State.modStore_only
      | with_reducible apply State.commit_only
      | with_reducible apply State.finish_only
      | with_reducible apply State.stageExtent_only)
    | split)

theorem State.runGet_only (x : Admitted) (s : State) :
    Only [.draws, .log, .net, .ses, .store, .media] s (State.runGet x s) := by
  unfold State.runGet
  repeat' (first
    | with_reducible exact Only.refl _ _ | with_reducible assumption
    | ((with_reducible show areasIn _ _ = true); exact rfl) | (extract_lets +onlyGivenNames _x; first
      | (rename State => _y; refine Only.bring _y ?_ ?_; rotate_left; clear_value _y; intro _; rotate_right; subst _y)
      | (rename _ × State => _y; refine Only.bringSnd _y ?_ ?_; rotate_left; clear_value _y; intro _; rotate_right; subst _y)
      | skip)
    | with_reducible apply Only.ite | (apply Only.into; first
      | with_reducible apply State.expirePin_only
      | with_reducible apply State.fail_only
      | with_reducible apply State.finish_only
      | with_reducible apply State.hold_only
      | with_reducible apply State.requestRead_only)
    | split)

theorem State.runGraft_only (a : Ask) (x1 : AdminOp) (s : State) :
    Only [.draws, .log, .net, .ses, .power, .reg, .fw] s (State.runGraft a x1 s) := by
  unfold State.runGraft
  repeat' (first
    | with_reducible exact Only.refl _ _ | with_reducible assumption
    | ((with_reducible show areasIn _ _ = true); exact rfl) | (apply Only.into; first
      | with_reducible apply State.startWork_only
      | (with_reducible apply State.startWork_only_eq; assumption)
      | with_reducible apply State.modFw_only
      | with_reducible apply State.abortTest_only)
    | split)

theorem State.runPin_only (x : Admitted) (s : State) :
    Only [.draws, .log, .net, .ses, .store, .media, .journal] s (State.runPin x s) := by
  unfold State.runPin
  repeat' (first
    | with_reducible exact Only.refl _ _ | with_reducible assumption
    | ((with_reducible show areasIn _ _ = true); exact rfl) | (extract_lets +onlyGivenNames _x; first
      | (rename State => _y; refine Only.bring _y ?_ ?_; rotate_left; clear_value _y; intro _; rotate_right; subst _y)
      | (rename _ × State => _y; refine Only.bringSnd _y ?_ ?_; rotate_left; clear_value _y; intro _; rotate_right; subst _y)
      | skip)
    | with_reducible apply Only.ite | (apply Only.into; first
      | with_reducible apply State.expirePin_only
      | with_reducible apply State.modFlight_only
      | with_reducible apply State.fail_only
      | with_reducible apply State.finish_only
      | with_reducible apply State.mapChanged_only
      | with_reducible apply State.modStore_only
      | with_reducible apply State.hold_only
      | with_reducible apply State.requestRead_only)
    | split)

theorem State.runRange_only (del : Bool) (x : Admitted) (s : State) :
    Only [.draws, .log, .net, .ses, .store] s (State.runRange del x s) := by
  unfold State.runRange
  repeat' (first
    | with_reducible exact Only.refl _ _ | with_reducible assumption
    | ((with_reducible show areasIn _ _ = true); exact rfl) | (extract_lets +onlyGivenNames _x; first
      | (rename State => _y; refine Only.bring _y ?_ ?_; rotate_left; clear_value _y; intro _; rotate_right; subst _y)
      | (rename _ × State => _y; refine Only.bringSnd _y ?_ ?_; rotate_left; clear_value _y; intro _; rotate_right; subst _y)
      | skip)
    | with_reducible apply Only.ite | (apply Only.into; first
      | with_reducible apply State.fail_only
      | with_reducible apply State.finish_only
      | with_reducible apply State.askLock_only)
    | split)

theorem State.runUnpin_only (x : Admitted) (s : State) :
    Only [.log, .net, .ses, .store, .journal] s (State.runUnpin x s) := by
  unfold State.runUnpin
  repeat' (first
    | with_reducible exact Only.refl _ _ | with_reducible assumption
    | ((with_reducible show areasIn _ _ = true); exact rfl) | (extract_lets +onlyGivenNames _x; first
      | (rename State => _y; refine Only.bring _y ?_ ?_; rotate_left; clear_value _y; intro _; rotate_right; subst _y)
      | (rename _ × State => _y; refine Only.bringSnd _y ?_ ?_; rotate_left; clear_value _y; intro _; rotate_right; subst _y)
      | skip)
    | (apply Only.into; first
      | with_reducible apply State.fail_only
      | with_reducible apply State.mapChanged_only
      | with_reducible apply State.modStore_only
      | with_reducible apply State.finish_only
      | with_reducible apply State.modFlight_only)
    | split)

theorem State.runVerify_only (a : Ask) (op : AdminOp) (s : State) :
    Only [.draws, .log, .net, .ses, .watch, .fw] s (State.runVerify a op s) := by
  unfold State.runVerify
  repeat' (first
    | with_reducible exact Only.refl _ _ | with_reducible assumption
    | ((with_reducible show areasIn _ _ = true); exact rfl) | (extract_lets +onlyGivenNames _x; first
      | (rename State => _y; refine Only.bring _y ?_ ?_; rotate_left; clear_value _y; intro _; rotate_right; subst _y)
      | (rename _ × State => _y; refine Only.bringSnd _y ?_ ?_; rotate_left; clear_value _y; intro _; rotate_right; subst _y)
      | skip)
    | (apply Only.into; first
      | with_reducible apply State.finish_only
      | with_reducible apply State.refusePackage_only
      | with_reducible apply State.startWork_only
      | (with_reducible apply State.startWork_only_eq; assumption)
      | with_reducible apply State.submitVerify_only
      | with_reducible apply State.modFw_only
      | with_reducible apply State.abortJobs_only)
    | split)

theorem State.storeVersion_only (t : Nat) (k : Bytes) (v : Version) (c : Change) (bytes : Nat) (off : Nat) (base : Option (Nat × Nat)) (s : State) :
    Only [.store, .media] s (State.storeVersion t k v c bytes off base s) := by
  unfold State.storeVersion
  repeat' (first
    | with_reducible exact Only.refl _ _ | ((with_reducible show areasIn _ _ = true); exact rfl)
    | (apply Only.into; first
      | with_reducible apply State.stageExtent_only
      | with_reducible apply State.modStore_only))

theorem State.runWrite_only (append : Bool) (early : Bool) (x : Admitted) (poison : Option Nat) (s : State) :
    Only [.log, .net, .ses, .store, .reg, .media] s (State.runWrite append early x poison s) := by
  unfold State.runWrite
  repeat' (first
    | with_reducible exact Only.refl _ _ | with_reducible assumption
    | ((with_reducible show areasIn _ _ = true); exact rfl) | (extract_lets +onlyGivenNames _x; first
      | (rename State => _y; refine Only.bring _y ?_ ?_; rotate_left; clear_value _y; intro _; rotate_right; subst _y)
      | (rename _ × State => _y; refine Only.bringSnd _y ?_ ?_; rotate_left; clear_value _y; intro _; rotate_right; subst _y)
      | skip)
    | with_reducible apply Only.ite | (apply Only.into; first
      | with_reducible apply State.expirePin_only
      | with_reducible apply State.fail_only
      | (with_reducible apply State.windbreak_only; assumption)
      | with_reducible apply State.finish_only
      | with_reducible apply State.eventFor_only
      | with_reducible apply State.commit_only
      | with_reducible apply State.storeVersion_only
      | with_reducible apply State.modFlight_only)
    | split)

theorem State.sampleCh0_only (pace : Int) (s : State) :
    Only [.log, .reg] s (State.sampleCh0 pace s) := by
  unfold State.sampleCh0
  repeat' (first
    | with_reducible exact Only.refl _ _ | with_reducible assumption
    | ((with_reducible show areasIn _ _ = true); exact rfl) | (extract_lets +onlyGivenNames _x; first
      | (rename State => _y; refine Only.bring _y ?_ ?_; rotate_left; clear_value _y; intro _; rotate_right; subst _y)
      | (rename _ × State => _y; refine Only.bringSnd _y ?_ ?_; rotate_left; clear_value _y; intro _; rotate_right; subst _y)
      | skip)
    | with_reducible apply Only.ite | (apply Only.into; first
      | with_reducible apply State.oscillated_only
      | with_reducible apply State.modReg_only)
    | split)

theorem State.noteRate_only (s : State) :
    Only [.reg] s (State.noteRate s) := by
  unfold State.noteRate
  repeat' (first
    | with_reducible exact Only.refl _ _ | ((with_reducible show areasIn _ _ = true); exact rfl)
    | (apply Only.into; with_reducible apply State.modReg_only))

theorem State.chargeSample_only (mv : Nat) (s : State) :
    Only [.mode, .log, .power, .reg, .start, .outputs] s (State.chargeSample mv s) := by
  unfold State.chargeSample
  repeat' (first
    | with_reducible exact Only.refl _ _ | with_reducible assumption
    | ((with_reducible show areasIn _ _ = true); exact rfl) | (extract_lets +onlyGivenNames _x; first
      | (rename State => _y; refine Only.bring _y ?_ ?_; rotate_left; clear_value _y; intro _; rotate_right; subst _y)
      | (rename _ × State => _y; refine Only.bringSnd _y ?_ ?_; rotate_left; clear_value _y; intro _; rotate_right; subst _y)
      | skip)
    | with_reducible apply Only.ite | (apply Only.into; first
      | with_reducible apply State.oscillated_only
      | with_reducible apply State.modReg_only
      | with_reducible apply State.ch1Fails_only)
    | split)

theorem State.sampleCh1_only (mv : Nat) (s : State) :
    Only [.mode, .log, .power, .reg, .start, .outputs, .journal] s (State.sampleCh1 mv s) := by
  unfold State.sampleCh1
  repeat' (first
    | with_reducible exact Only.refl _ _ | with_reducible assumption
    | ((with_reducible show areasIn _ _ = true); exact rfl) | (extract_lets +onlyGivenNames _x; first
      | (rename State => _y; refine Only.bring _y ?_ ?_; rotate_left; clear_value _y; intro _; rotate_right; subst _y)
      | (rename _ × State => _y; refine Only.bringSnd _y ?_ ?_; rotate_left; clear_value _y; intro _; rotate_right; subst _y)
      | skip)
    | with_reducible apply Only.ite | (apply Only.into; first
      | with_reducible apply State.noteBank_only
      | with_reducible apply State.noteRate_only
      | with_reducible apply State.chargeSample_only))

theorem State.sampleLoops_only (junction : Int) (pace : Int) (s : State) :
    Only [.log, .admin, .ses, .power, .reg] s (State.sampleLoops junction pace s) := by
  unfold State.sampleLoops
  repeat' (first
    | with_reducible exact Only.refl _ _ | with_reducible assumption
    | ((with_reducible show areasIn _ _ = true); exact rfl) | (extract_lets +onlyGivenNames _x; first
      | (rename State => _y; refine Only.bring _y ?_ ?_; rotate_left; clear_value _y; intro _; rotate_right; subst _y)
      | (rename _ × State => _y; refine Only.bringSnd _y ?_ ?_; rotate_left; clear_value _y; intro _; rotate_right; subst _y)
      | skip)
    | with_reducible apply Only.ite | (apply Only.into; first
      | with_reducible apply State.noteJunction_only
      | with_reducible apply State.stirSegments_only
      | with_reducible apply State.oscillated_only
      | with_reducible apply State.modReg_only)
    | (with_reducible apply Only.foldl; (intro _ _)))

theorem State.sampleRate_only (mv : Nat) (s : State) :
    Only [.reg] s (State.sampleRate mv s) := by
  unfold State.sampleRate
  repeat' (first
    | with_reducible exact Only.refl _ _ | with_reducible assumption
    | ((with_reducible show areasIn _ _ = true); exact rfl) | with_reducible apply Only.ite | (apply Only.into; first
      | with_reducible apply State.modReg_only
      | with_reducible apply State.noteRate_only))

theorem State.scanComplete_only (own : Option (Nat × Bool)) (s : State) :
    Only [.log, .net, .ses, .watch, .fw] s (State.scanComplete own s) := by
  unfold State.scanComplete
  repeat' (first
    | with_reducible exact Only.refl _ _ | with_reducible assumption
    | ((with_reducible show areasIn _ _ = true); exact rfl) | with_reducible apply Only.ite | (apply Only.into; first
      | with_reducible apply State.event_only
      | with_reducible apply State.jobEnds_only)
    | split)

theorem State.scrubDue_only (b : BlockId) (s : State) :
    Only [.clock, .media] s (State.scrubDue b s) := by
  unfold State.scrubDue
  repeat' (first
    | with_reducible exact Only.refl _ _ | with_reducible assumption
    | ((with_reducible show areasIn _ _ = true); exact rfl) | (extract_lets +onlyGivenNames _x; first
      | (rename State => _y; refine Only.bring _y ?_ ?_; rotate_left; clear_value _y; intro _; rotate_right; subst _y)
      | (rename _ × State => _y; refine Only.bringSnd _y ?_ ?_; rotate_left; clear_value _y; intro _; rotate_right; subst _y)
      | skip)
    | with_reducible apply Only.ite | (apply Only.into; first
      | with_reducible apply State.addOp_only
      | with_reducible apply State.waitUntil_only
      | with_reducible apply State.kick_only
      | with_reducible apply State.modMedia_only)
    | split)

theorem State.securityRow_only (opcode : Nat) (sid : Nat) (msgId : Nat) (s : State) :
    Only [.draws, .log, .net, .time, .ses] s (State.securityRow opcode sid msgId s) := by
  unfold State.securityRow
  repeat' (first
    | with_reducible exact Only.refl _ _ | with_reducible assumption
    | ((with_reducible show areasIn _ _ = true); exact rfl) | (extract_lets +onlyGivenNames _x; first
      | (rename State => _y; refine Only.bring _y ?_ ?_; rotate_left; clear_value _y; intro _; rotate_right; subst _y)
      | (rename _ × State => _y; refine Only.bringSnd _y ?_ ?_; rotate_left; clear_value _y; intro _; rotate_right; subst _y)
      | skip)
    | (apply Only.into; first
      | with_reducible apply State.takeRequest_only
      | (with_reducible apply State.takeRequest_only_eq; assumption)
      | with_reducible apply State.finish_only
      | with_reducible apply State.askAdmin_only)
    | split)

theorem State.segmentCut_only (sid : Nat) (msgId : Nat) (s : State) :
    Only [.clock, .log, .net, .ses, .store, .reg, .media] s (State.segmentCut sid msgId s) := by
  unfold State.segmentCut
  repeat' (first
    | with_reducible exact Only.refl _ _ | with_reducible assumption
    | ((with_reducible show areasIn _ _ = true); exact rfl) | (extract_lets +onlyGivenNames _x; first
      | (rename State => _y; refine Only.bring _y ?_ ?_; rotate_left; clear_value _y; intro _; rotate_right; subst _y)
      | (rename _ × State => _y; refine Only.bringSnd _y ?_ ?_; rotate_left; clear_value _y; intro _; rotate_right; subst _y)
      | skip)
    | with_reducible apply Only.ite | (apply Only.into; first
      | with_reducible apply State.waitUntil_only
      | with_reducible apply State.cutWrite_only
      | (with_reducible apply State.windbreak_only; assumption))
    | split)

theorem State.stageSegment_only (e : Sess) (a : Assembly) (f : Flight) (k : Bytes) (v : Version) (base : Option (Nat × Nat)) (n : Nat) (s : State) :
    Only [.log, .net, .ses, .store, .media] s (State.stageSegment e a f k v base n s) := by
  unfold State.stageSegment
  repeat' (first
    | with_reducible exact Only.refl _ _ | with_reducible assumption
    | ((with_reducible show areasIn _ _ = true); exact rfl) | (extract_lets +onlyGivenNames _x; first
      | (rename State => _y; refine Only.bring _y ?_ ?_; rotate_left; clear_value _y; intro _; rotate_right; subst _y)
      | (rename _ × State => _y; refine Only.bringSnd _y ?_ ?_; rotate_left; clear_value _y; intro _; rotate_right; subst _y)
      | skip)
    | with_reducible apply Only.ite | (apply Only.into; first
      | with_reducible apply State.stageExtent_only
      | with_reducible apply State.putOpen_only
      | with_reducible apply State.freeStaged_only
      | with_reducible apply State.finish_only
      | with_reducible apply State.takeMessage_only
      | with_reducible apply State.modFlight_only
      | with_reducible apply State.wake_only))

theorem State.holdSegment_only (o : Open) (status : Nat) (reason : Nat) (retry : Nat) (s : State) :
    Only [.ses] s (State.holdSegment o status reason retry s) := by
  unfold State.holdSegment
  repeat' (first
    | with_reducible exact Only.refl _ _ | with_reducible assumption
    | ((with_reducible show areasIn _ _ = true); exact rfl) | (extract_lets +onlyGivenNames _x; first
      | (rename State => _y; refine Only.bring _y ?_ ?_; rotate_left; clear_value _y; intro _; rotate_right; subst _y)
      | (rename _ × State => _y; refine Only.bringSnd _y ?_ ?_; rotate_left; clear_value _y; intro _; rotate_right; subst _y)
      | skip)
    | with_reducible apply Only.ite | (apply Only.into; with_reducible apply State.modSess_only))

theorem State.judgeSegment_only (o : Open) (n : Nat) (poison : Option Nat) (s : State) :
    Only [.log, .net, .ses, .store, .reg, .media] s (State.judgeSegment o n poison s) := by
  unfold State.judgeSegment
  repeat' (first
    | with_reducible exact Only.refl _ _ | with_reducible assumption
    | ((with_reducible show areasIn _ _ = true); exact rfl) | (apply Only.into; first
      | (with_reducible apply State.windbreak_only; assumption)
      | with_reducible apply State.cutWrite_only
      | with_reducible apply State.holdSegment_only
      | with_reducible apply State.eventFor_only
      | with_reducible apply State.stageSegment_only)
    | split)

theorem State.segmentStage_only (sid : Nat) (msgId : Nat) (poison : Option Nat) (s : State) :
    Only [.clock, .log, .net, .ses, .store, .reg, .media, .journal] s (State.segmentStage sid msgId poison s) := by
  unfold State.segmentStage
  repeat' (first
    | with_reducible exact Only.refl _ _ | with_reducible assumption
    | ((with_reducible show areasIn _ _ = true); exact rfl) | with_reducible apply Only.ite | (apply Only.into; first
      | with_reducible apply State.keepInStart_only
      | with_reducible apply State.judgeSegment_only
      | with_reducible apply State.waitUntil_only)
    | split)

theorem State.sessionClose_only (s : State) :
    Only [.log, .net, .time, .ses, .store] s (State.sessionClose s) := by
  unfold State.sessionClose
  repeat' (first
    | with_reducible exact Only.refl _ _ | with_reducible assumption
    | ((with_reducible show areasIn _ _ = true); exact rfl) | (extract_lets +onlyGivenNames _x; first
      | (rename State => _y; refine Only.bring _y ?_ ?_; rotate_left; clear_value _y; intro _; rotate_right; subst _y)
      | (rename _ × State => _y; refine Only.bringSnd _y ?_ ?_; rotate_left; clear_value _y; intro _; rotate_right; subst _y)
      | skip)
    | with_reducible apply Only.ite | (apply Only.into; first
      | with_reducible apply State.takeFrame_only
      | (with_reducible apply State.takeFrame_only_eq; assumption)
      | with_reducible apply State.noteAdmission_only
      | with_reducible apply State.modSess_only
      | with_reducible apply State.dropAssemblies_only
      | with_reducible apply State.settleCloses_only
      | with_reducible apply State.cancelAll_only)
    | split)

theorem State.sessionConfirm_only (tampered : Bool) (s : State) :
    Only [.log, .admin, .net, .ses, .fw] s (State.sessionConfirm tampered s) := by
  unfold State.sessionConfirm
  repeat' (first
    | with_reducible exact Only.refl _ _ | with_reducible assumption
    | ((with_reducible show areasIn _ _ = true); exact rfl) | (extract_lets +onlyGivenNames _x; first
      | (rename State => _y; refine Only.bring _y ?_ ?_; rotate_left; clear_value _y; intro _; rotate_right; subst _y)
      | (rename _ × State => _y; refine Only.bringSnd _y ?_ ?_; rotate_left; clear_value _y; intro _; rotate_right; subst _y)
      | skip)
    | with_reducible apply Only.ite | (apply Only.into; first
      | with_reducible apply State.takeFrame_only
      | (with_reducible apply State.takeFrame_only_eq; assumption)
      | with_reducible apply State.sayRefusal_only
      | with_reducible apply State.removeSess_only
      | with_reducible apply State.answerConfirm_only
      | with_reducible apply State.modSess_only
      | with_reducible apply State.count_only)
    | split)

theorem State.sessionOpen_only (tampered : Bool) (s : State) :
    Only [.draws, .net, .ses] s (State.sessionOpen tampered s) := by
  unfold State.sessionOpen
  repeat' (first
    | with_reducible exact Only.refl _ _ | with_reducible assumption
    | ((with_reducible show areasIn _ _ = true); exact rfl) | (extract_lets +onlyGivenNames _x; first
      | (rename State => _y; refine Only.bring _y ?_ ?_; rotate_left; clear_value _y; intro _; rotate_right; subst _y)
      | (rename _ × State => _y; refine Only.bringSnd _y ?_ ?_; rotate_left; clear_value _y; intro _; rotate_right; subst _y)
      | skip)
    | with_reducible apply Only.ite | (apply Only.into; first
      | with_reducible apply State.takeFrame_only
      | (with_reducible apply State.takeFrame_only_eq; assumption)
      | with_reducible apply State.sayRefusal_only
      | with_reducible apply State.accept_only)
    | split)

theorem State.sgmiiStatus_only (q : Port) (up : Bool) (speed : Nat) (full : Bool) (s : State) :
    Only [.log, .admin, .net, .time, .ses, .start, .outputs, .fw] s (State.sgmiiStatus q up speed full s) := by
  unfold State.sgmiiStatus
  repeat' (first
    | with_reducible exact Only.refl _ _ | with_reducible assumption
    | ((with_reducible show areasIn _ _ = true); exact rfl) | (extract_lets +onlyGivenNames _x; first
      | (rename State => _y; refine Only.bring _y ?_ ?_; rotate_left; clear_value _y; intro _; rotate_right; subst _y)
      | (rename _ × State => _y; refine Only.bringSnd _y ?_ ?_; rotate_left; clear_value _y; intro _; rotate_right; subst _y)
      | skip)
    | with_reducible apply Only.ite | (apply Only.into; first
      | with_reducible apply State.modPort_only
      | with_reducible apply State.linkDown_only
      | with_reducible apply State.event_only
      | with_reducible apply State.bringUp_only))

theorem State.wakeUp_only (source : Nat) (s : State) :
    Only [.mode, .log, .admin, .net, .ses, .store, .power, .reg, .start, .outputs, .media, .watch] s (State.wakeUp source s) := by
  unfold State.wakeUp
  repeat' (first
    | with_reducible exact Only.refl _ _ | with_reducible assumption
    | ((with_reducible show areasIn _ _ = true); exact rfl) | (extract_lets +onlyGivenNames _x; first
      | (rename State => _y; refine Only.bring _y ?_ ?_; rotate_left; clear_value _y; intro _; rotate_right; subst _y)
      | (rename _ × State => _y; refine Only.bringSnd _y ?_ ?_; rotate_left; clear_value _y; intro _; rotate_right; subst _y)
      | skip)
    | with_reducible apply Only.ite | (apply Only.into; first
      | with_reducible apply State.awaken_only
      | with_reducible apply State.beginSeries_only
      | with_reducible apply State.setMode_only
      | with_reducible apply State.kickAll_only)
    | split)

theorem State.sleepNow_only (m : Mode) (s : State) :
    Only [.mode, .log, .net, .store, .power, .reg, .start, .outputs, .media, .journal, .watch] s (State.sleepNow m s) := by
  unfold State.sleepNow
  repeat' (first
    | with_reducible exact Only.refl _ _ | with_reducible assumption
    | ((with_reducible show areasIn _ _ = true); exact rfl) | (extract_lets +onlyGivenNames _x; first
      | (rename State => _y; refine Only.bring _y ?_ ?_; rotate_left; clear_value _y; intro _; rotate_right; subst _y)
      | (rename _ × State => _y; refine Only.bringSnd _y ?_ ?_; rotate_left; clear_value _y; intro _; rotate_right; subst _y)
      | skip)
    | (apply Only.into; first
      | with_reducible apply State.writeEntry_only
      | with_reducible apply State.drainNow_only
      | with_reducible apply State.stopWatch_only
      | with_reducible apply State.abortJobs_only
      | with_reducible apply State.modNet_only
      | with_reducible apply State.modReg_only
      | with_reducible apply State.modStart_only
      | with_reducible apply State.event_only
      | with_reducible apply State.modPower_only
      | with_reducible apply State.setMode_only))

theorem State.sleepComplete_only (wakeHigh : Bool) (s : State) :
    Only [.mode, .log, .admin, .net, .ses, .store, .power, .reg, .start, .outputs, .media, .journal, .watch] s (State.sleepComplete wakeHigh s) := by
  unfold State.sleepComplete
  repeat' (first
    | with_reducible exact Only.refl _ _ | with_reducible assumption
    | ((with_reducible show areasIn _ _ = true); exact rfl) | (extract_lets +onlyGivenNames _x; first
      | (rename State => _y; refine Only.bring _y ?_ ?_; rotate_left; clear_value _y; intro _; rotate_right; subst _y)
      | (rename _ × State => _y; refine Only.bringSnd _y ?_ ?_; rotate_left; clear_value _y; intro _; rotate_right; subst _y)
      | skip)
    | with_reducible apply Only.ite | (apply Only.into; first
      | with_reducible apply State.sleepNow_only
      | with_reducible apply State.wakeUp_only)
    | split)

theorem State.snapshotExpired_only (id : Nat) (s : State) :
    Only [.clock, .admin] s (State.snapshotExpired id s) := by
  unfold State.snapshotExpired
  repeat' (first
    | with_reducible exact Only.refl _ _ | with_reducible assumption
    | ((with_reducible show areasIn _ _ = true); exact rfl) | (apply Only.into; first
      | with_reducible apply State.modAdmin_only
      | with_reducible apply State.waitUntil_only)
    | split)

theorem State.statusRead_only (a : Ask) (p : Ly1Body) (s : State) :
    Only [.net, .ses] s (State.statusRead a p s) := by
  unfold State.statusRead
  repeat' (first
    | with_reducible exact Only.refl _ _ | with_reducible assumption
    | ((with_reducible show areasIn _ _ = true); exact rfl) | (extract_lets +onlyGivenNames _x; first
      | (rename State => _y; refine Only.bring _y ?_ ?_; rotate_left; clear_value _y; intro _; rotate_right; subst _y)
      | (rename _ × State => _y; refine Only.bringSnd _y ?_ ?_; rotate_left; clear_value _y; intro _; rotate_right; subst _y)
      | skip)
    | with_reducible apply Only.ite | (apply Only.into; first
      | with_reducible apply State.say_only
      | with_reducible apply State.modFlight_only))

theorem State.storeSector_only (a : Ask) (n : Nat) (bytes : Bytes) (s : State) :
    Only [.store, .media] s (State.storeSector a n bytes s) := by
  unfold State.storeSector
  repeat' (first
    | with_reducible exact Only.refl _ _ | with_reducible assumption
    | ((with_reducible show areasIn _ _ = true); exact rfl) | (extract_lets +onlyGivenNames _x; first
      | (rename State => _y; refine Only.bring _y ?_ ?_; rotate_left; clear_value _y; intro _; rotate_right; subst _y)
      | (rename _ × State => _y; refine Only.bringSnd _y ?_ ?_; rotate_left; clear_value _y; intro _; rotate_right; subst _y)
      | skip)
    | (apply Only.into; first
      | with_reducible apply State.expirePin_only
      | with_reducible apply State.storeVersion_only))

theorem State.storeSectors_only (a : Ask) (p : Ly1Body) (n : Nat) (s : State) :
    Only [.store, .media] s (State.storeSectors a p n s) := by
  unfold State.storeSectors
  repeat' (first
    | with_reducible exact Only.refl _ _ | with_reducible assumption
    | ((with_reducible show areasIn _ _ = true); exact rfl)
    | (apply Only.into; with_reducible apply State.storeSector_only) | (with_reducible apply Only.foldl; (intro _ _)))

theorem State.supplyFails_only (s : State) :
    Only [.mode, .net, .time, .ses, .store, .power, .reg, .start, .outputs, .media, .watch, .sec] s (State.supplyFails s) := by
  unfold State.supplyFails
  repeat' (first
    | with_reducible exact Only.refl _ _ | with_reducible assumption
    | ((with_reducible show areasIn _ _ = true); exact rfl) | with_reducible apply Only.ite | (apply Only.into; first
      | with_reducible apply State.switchOff_only
      | with_reducible apply State.leaveDusk_only))

theorem State.svcIgnored_only (len : Nat) (s : State) :
    Only [.draws, .log, .net, .start, .outputs] s (State.svcIgnored len s) := by
  unfold State.svcIgnored
  repeat' (first
    | with_reducible exact Only.refl _ _ | with_reducible assumption
    | ((with_reducible show areasIn _ _ = true); exact rfl) | with_reducible apply Only.ite | (apply Only.into; first
      | with_reducible apply State.modStart_only
      | with_reducible apply State.draw_only
      | (with_reducible apply State.draw_only_eq; assumption)
      | with_reducible apply State.event_only
      | with_reducible apply State.count_only)
    | split)

theorem State.sweep_only (s : State) :
    Only [.clock, .store, .journal] s (State.sweep s) := by
  unfold State.sweep
  repeat' (first
    | with_reducible exact Only.refl _ _ | with_reducible assumption
    | ((with_reducible show areasIn _ _ = true); exact rfl) | (extract_lets +onlyGivenNames _x; first
      | (rename State => _y; refine Only.bring _y ?_ ?_; rotate_left; clear_value _y; intro _; rotate_right; subst _y)
      | (rename _ × State => _y; refine Only.bringSnd _y ?_ ?_; rotate_left; clear_value _y; intro _; rotate_right; subst _y)
      | skip)
    | with_reducible apply Only.ite | (apply Only.into; first
      | with_reducible apply State.waitUntil_only
      | with_reducible apply State.modStore_only
      | with_reducible apply State.mapChanged_only))

theorem State.syncSend_only (s : State) :
    Only [.clock, .net, .time] s (State.syncSend s) := by
  unfold State.syncSend
  repeat' (first
    | with_reducible exact Only.refl _ _ | with_reducible assumption
    | ((with_reducible show areasIn _ _ = true); exact rfl) | (extract_lets +onlyGivenNames _x; first
      | (rename State => _y; refine Only.bring _y ?_ ?_; rotate_left; clear_value _y; intro _; rotate_right; subst _y)
      | (rename _ × State => _y; refine Only.bringSnd _y ?_ ?_; rotate_left; clear_value _y; intro _; rotate_right; subst _y)
      | skip)
    | with_reducible apply Only.ite | (apply Only.into; first
      | with_reducible apply State.waitUntil_only
      | with_reducible apply State.sendGptp_only
      | with_reducible apply State.modTime_only))

theorem State.syncTimeout_only (s : State) :
    Only [.clock, .log, .time] s (State.syncTimeout s) := by
  unfold State.syncTimeout
  repeat' (first
    | with_reducible exact Only.refl _ _ | with_reducible assumption
    | ((with_reducible show areasIn _ _ = true); exact rfl) | (apply Only.into; first
      | with_reducible apply State.setSynced_only
      | with_reducible apply State.modTime_only
      | with_reducible apply State.modGptp_only
      | with_reducible apply State.waitUntil_only)
    | split)

theorem State.tamperSample_only (r : TamperReading) (s : State) :
    Only [.mode, .draws, .log, .admin, .net, .ses, .store, .power, .reg, .start, .outputs, .media, .journal, .watch, .sec, .fw] s (State.tamperSample r s) := by
  unfold State.tamperSample
  repeat' (first
    | with_reducible exact Only.refl _ _ | with_reducible assumption
    | ((with_reducible show areasIn _ _ = true); exact rfl) | (extract_lets +onlyGivenNames _x; first
      | (rename State => _y; refine Only.bring _y ?_ ?_; rotate_left; clear_value _y; intro _; rotate_right; subst _y)
      | (rename _ × State => _y; refine Only.bringSnd _y ?_ ?_; rotate_left; clear_value _y; intro _; rotate_right; subst _y)
      | skip)
    | with_reducible apply Only.ite | (apply Only.into; first
      | with_reducible apply State.judgeLoop_only
      | (with_reducible apply State.judgeLoop_only_eq; assumption)
      | with_reducible apply State.modSec_only
      | with_reducible apply State.alarmAsleep_only
      | with_reducible apply State.alarm_only)
    | split)

theorem State.tckEdge_only (rising : Bool) (tms : Bool) (tdi : Bool) (s : State) :
    Only [.draws, .start, .outputs] s (State.tckEdge rising tms tdi s) := by
  unfold State.tckEdge
  repeat' (first
    | with_reducible exact Only.refl _ _ | with_reducible assumption
    | ((with_reducible show areasIn _ _ = true); exact rfl) | with_reducible apply Only.ite | (apply Only.into; first
      | with_reducible apply State.draw_only
      | (with_reducible apply State.draw_only_eq; assumption)
      | with_reducible apply State.modStart_only)
    | split)

theorem State.testEnds_only (r : TestRecord) (c : BankClass) (s : State) :
    Only [.mode, .log, .power, .reg, .start, .outputs] s (State.testEnds r c s) := by
  unfold State.testEnds
  repeat' (first
    | with_reducible exact Only.refl _ _ | with_reducible assumption
    | ((with_reducible show areasIn _ _ = true); exact rfl) | (extract_lets +onlyGivenNames _x; first
      | (rename State => _y; refine Only.bring _y ?_ ?_; rotate_left; clear_value _y; intro _; rotate_right; subst _y)
      | (rename _ × State => _y; refine Only.bringSnd _y ?_ ?_; rotate_left; clear_value _y; intro _; rotate_right; subst _y)
      | skip)
    | with_reducible apply Only.ite | (apply Only.into; first
      | with_reducible apply State.modPower_only
      | with_reducible apply State.setClass_only
      | with_reducible apply State.event_only
      | with_reducible apply State.leaveReady_only
      | with_reducible apply State.resumeCharge_only))

theorem State.testComplete_only (stepMv : Nat) (fallUs : Nat) (s : State) :
    Only [.mode, .clock, .log, .power, .reg, .start, .outputs] s (State.testComplete stepMv fallUs s) := by
  unfold State.testComplete
  repeat' (first
    | with_reducible exact Only.refl _ _ | with_reducible assumption
    | ((with_reducible show areasIn _ _ = true); exact rfl) | (extract_lets +onlyGivenNames _x; first
      | (rename State => _y; refine Only.bring _y ?_ ?_; rotate_left; clear_value _y; intro _; rotate_right; subst _y)
      | (rename _ × State => _y; refine Only.bringSnd _y ?_ ?_; rotate_left; clear_value _y; intro _; rotate_right; subst _y)
      | skip)
    | with_reducible apply Only.ite | (apply Only.into; first
      | with_reducible apply State.modPower_only
      | with_reducible apply State.waitUntil_only
      | with_reducible apply State.testEnds_only)
    | split)

theorem State.testStart_only (s : State) :
    Only [.clock, .power, .reg] s (State.testStart s) := by
  unfold State.testStart
  repeat' (first
    | with_reducible exact Only.refl _ _ | with_reducible assumption
    | ((with_reducible show areasIn _ _ = true); exact rfl) | (extract_lets +onlyGivenNames _x; first
      | (rename State => _y; refine Only.bring _y ?_ ?_; rotate_left; clear_value _y; intro _; rotate_right; subst _y)
      | (rename _ × State => _y; refine Only.bringSnd _y ?_ ?_; rotate_left; clear_value _y; intro _; rotate_right; subst _y)
      | skip)
    | with_reducible apply Only.ite | (apply Only.into; first
      | with_reducible apply State.waitUntil_only
      | with_reducible apply State.modPower_only
      | with_reducible apply State.modReg_only)
    | split)

theorem State.testTimeout_only (s : State) :
    Only [.mode, .clock, .log, .power, .reg, .start, .outputs] s (State.testTimeout s) := by
  unfold State.testTimeout
  repeat' (first
    | with_reducible exact Only.refl _ _ | with_reducible assumption
    | ((with_reducible show areasIn _ _ = true); exact rfl) | (extract_lets +onlyGivenNames _x; first
      | (rename State => _y; refine Only.bring _y ?_ ?_; rotate_left; clear_value _y; intro _; rotate_right; subst _y)
      | (rename _ × State => _y; refine Only.bringSnd _y ?_ ?_; rotate_left; clear_value _y; intro _; rotate_right; subst _y)
      | skip)
    | (apply Only.into; first
      | with_reducible apply State.waitUntil_only
      | with_reducible apply State.testEnds_only)
    | split)

theorem State.verifyDone_only (q : Port) (ok : Bool) (s : State) :
    Only [.clock, .log, .net] s (State.verifyDone q ok s) := by
  unfold State.verifyDone
  repeat' (first
    | with_reducible exact Only.refl _ _ | with_reducible assumption
    | ((with_reducible show areasIn _ _ = true); exact rfl) | (extract_lets +onlyGivenNames _x; first
      | (rename State => _y; refine Only.bring _y ?_ ?_; rotate_left; clear_value _y; intro _; rotate_right; subst _y)
      | (rename _ × State => _y; refine Only.bringSnd _y ?_ ?_; rotate_left; clear_value _y; intro _; rotate_right; subst _y)
      | skip)
    | with_reducible apply Only.ite | (apply Only.into; first
      | with_reducible apply State.modPort_only
      | with_reducible apply State.event_only
      | with_reducible apply State.waitUntil_only))

theorem State.vinOn_only (resetLow : Bool) (env : StartEnv) (s : State) :
    Only [.mode, .clock, .draws, .cfg, .log, .admin, .net, .time, .ses, .store, .power, .reg, .start, .outputs, .media, .journal, .watch, .sec, .fw, .startCount] s (State.vinOn resetLow env s) := by
  unfold State.vinOn
  repeat' (first
    | with_reducible exact Only.refl _ _ | with_reducible assumption
    | ((with_reducible show areasIn _ _ = true); exact rfl) | (extract_lets +onlyGivenNames _x; first
      | (rename State => _y; refine Only.bring _y ?_ ?_; rotate_left; clear_value _y; intro _; rotate_right; subst _y)
      | (rename _ × State => _y; refine Only.bringSnd _y ?_ ?_; rotate_left; clear_value _y; intro _; rotate_right; subst _y)
      | skip)
    | with_reducible apply Only.ite | (apply Only.into; first
      | with_reducible apply State.switchOn_only
      | with_reducible apply State.holdReset_only
      | with_reducible apply State.runStart_only
      | with_reducible apply State.beginCold_only))

theorem State.vinWarned_only (vin : Nat) (s : State) :
    Only [.mode, .log, .power, .reg] s (State.vinWarned vin s) := by
  unfold State.vinWarned
  repeat' (first
    | with_reducible exact Only.refl _ _ | with_reducible assumption
    | ((with_reducible show areasIn _ _ = true); exact rfl) | with_reducible apply Only.ite | (apply Only.into; first
      | with_reducible apply State.noteVin_only
      | with_reducible apply State.warned_only
      | with_reducible apply State.modPower_only))

theorem State.wakeFrame_only (s : State) :
    Only [.mode, .log, .admin, .net, .ses, .store, .power, .reg, .start, .outputs, .media, .watch] s (State.wakeFrame s) := by
  unfold State.wakeFrame
  repeat' (first
    | with_reducible exact Only.refl _ _ | with_reducible assumption
    | ((with_reducible show areasIn _ _ = true); exact rfl) | with_reducible apply Only.ite | (apply Only.into; first
      | with_reducible apply State.takeFrame_only
      | (with_reducible apply State.takeFrame_only_eq; assumption)
      | with_reducible apply State.wakeUp_only)
    | split)

theorem State.watchRunsOut_only (env : StartEnv) (s : State) :
    Only [.mode, .clock, .draws, .cfg, .log, .admin, .net, .time, .ses, .store, .power, .reg, .start, .outputs, .media, .journal, .watch, .sec, .fw, .startCount] s (State.watchRunsOut env s) := by
  unfold State.watchRunsOut
  repeat' (first
    | with_reducible exact Only.refl _ _ | with_reducible assumption
    | ((with_reducible show areasIn _ _ = true); exact rfl) | with_reducible apply Only.ite | (apply Only.into; first
      | with_reducible apply State.watchExpires_only
      | with_reducible apply State.waitUntil_only))

theorem State.windowEnds_only (s : State) :
    Only [.clock, .log, .power, .reg, .fw] s (State.windowEnds s) := by
  unfold State.windowEnds
  repeat' (first
    | with_reducible exact Only.refl _ _ | with_reducible assumption
    | ((with_reducible show areasIn _ _ = true); exact rfl) | with_reducible apply Only.ite | (apply Only.into; first
      | with_reducible apply State.beginFallback_only
      | with_reducible apply State.waitUntil_only)
    | split)

theorem State.withFetchWord_only (s : State) (nbits : Nat) (w : Nat) :
    Only [.queue] s (State.withFetchWord s nbits w) := by
  unfold State.withFetchWord
  split
  · refine ⟨fun a ha => ?_⟩
    cases a <;> first | exact absurd ha (by decide) | rfl | exact ⟨rfl, rfl, rfl⟩
  · exact Only.refl _ _

theorem State.write_only (append : Bool) (sid : Nat) (msgId : Nat) (poison : Option Nat) (s : State) :
    Only [.log, .net, .time, .ses, .store, .reg, .media] s (State.write append sid msgId poison s) := by
  unfold State.write
  repeat' (first
    | with_reducible exact Only.refl _ _ | with_reducible assumption
    | ((with_reducible show areasIn _ _ = true); exact rfl) | (extract_lets +onlyGivenNames _x; first
      | (rename State => _y; refine Only.bring _y ?_ ?_; rotate_left; clear_value _y; intro _; rotate_right; subst _y)
      | (rename _ × State => _y; refine Only.bringSnd _y ?_ ?_; rotate_left; clear_value _y; intro _; rotate_right; subst _y)
      | skip)
    | with_reducible apply Only.ite | (apply Only.into; first
      | with_reducible apply State.judgeRequest_only
      | (with_reducible apply State.judgeRequest_only_eq; assumption)
      | with_reducible apply State.endMessage_only
      | with_reducible apply State.runWrite_only
      | with_reducible apply State.freeStaged_only
      | with_reducible apply State.takeMessage_only)
    | split)

theorem State.writeSectors_only (poison : Option (Nat × Nat)) (a : Ask) (p : Ly1Body) (s : State) :
    Only [.log, .net, .ses, .store, .reg, .media] s (State.writeSectors poison a p s) := by
  unfold State.writeSectors
  repeat' (first
    | with_reducible exact Only.refl _ _ | with_reducible assumption
    | ((with_reducible show areasIn _ _ = true); exact rfl) | (extract_lets +onlyGivenNames _x; first
      | (rename State => _y; refine Only.bring _y ?_ ?_; rotate_left; clear_value _y; intro _; rotate_right; subst _y)
      | (rename _ × State => _y; refine Only.bringSnd _y ?_ ?_; rotate_left; clear_value _y; intro _; rotate_right; subst _y)
      | skip)
    | with_reducible apply Only.ite | (apply Only.into; first
      | with_reducible apply State.finishLy1_only
      | (with_reducible apply State.windbreak_only; assumption)
      | with_reducible apply State.commit_only
      | with_reducible apply State.eventFor_only
      | with_reducible apply State.storeSectors_only)
    | split)

end Sys2Proof.Machine
end

