-- ==== Sys2Proof/Laws/Advance.lean ====
section
/-!
SUPPORT. The rules of `Advances`, and its instances for the operations that touch the clock, START_COUNT or the logs directly.
-/
namespace Sys2Proof.Machine

theorem Advances.refl (s : State) : Advances s s := ⟨rfl, Nat.le_refl _, fun h => ⟨Nat.le_refl _, h⟩, fun h => h⟩

theorem Advances.trans {s t u : State} (h : Advances s t) (k : Advances t u) : Advances s u :=
  ⟨k.fused.trans h.fused, Nat.le_trans h.time k.time,
    fun m => ⟨Nat.le_trans (h.starts m).1 (k.starts (h.starts m).2).1, (k.starts (h.starts m).2).2⟩, fun m => k.logs (h.logs m)⟩

/-- One more operation after a change. -/
theorem Advances.into {s t u : State} (k : Advances t u) (h : Advances s t) : Advances s u := h.trans k

/-- An operation that touches none of the parts concerned. -/
theorem Advances.ofOnly {l : List Area} {s t : State} (h : Only l s t)
    (hl : (l.contains .fused || l.contains .clock || l.contains .startCount || l.contains .log) = false) : Advances s t := by
  simp only [Bool.or_eq_false_iff] at hl
  obtain ⟨⟨⟨h1, h2⟩, h3⟩, h4⟩ := hl
  have e1 : t.fused = s.fused := h.same .fused h1
  have e2 : t.elapsed = s.elapsed := h.same .clock h2
  have e3 : t.startCount = s.startCount := h.same .startCount h3
  have e4 : t.log = s.log := h.same .log h4
  exact ⟨e1, Nat.le_of_eq e2.symm, fun m => by rw [e3]; exact ⟨Nat.le_refl _, m⟩, fun m => by rw [e4]; exact m⟩

theorem Advances.intoOnly {l : List Area} {s t u : State} (k : Only l t u)
    (hl : (l.contains .fused || l.contains .clock || l.contains .startCount || l.contains .log) = false) (h : Advances s t) :
    Advances s u := h.trans (Advances.ofOnly k hl)

theorem Advances.bring {s u : State} (x : State) (h : Advances s x) (k : Advances s x → Advances s u) : Advances s u := k h

theorem Advances.bringSnd {α : Type} {s u : State} (x : α × State) (h : Advances s x.2) (k : Advances s x.2 → Advances s u) :
    Advances s u := k h

theorem Advances.ite {c : Prop} [Decidable c] {s t u : State} (h : Advances s t) (k : Advances s u) :
    Advances s (if c then t else u) := by
  split
  · exact h
  · exact k

theorem Advances.foldl {α : Type} {f : State → α → State} (hf : ∀ t x, Advances t (f t x)) (xs : List α) {s t : State}
    (h : Advances s t) : Advances s (xs.foldl f t) := by
  induction xs generalizing t with
  | nil => exact h
  | cons x xs ih => exact ih (h.trans (hf t x))

theorem Advances.when {f : State → State} (c : Bool) {s t : State} (hf : Advances t (f t)) (h : Advances s t) :
    Advances s (t.when c f) := by
  cases c
  · exact h
  · exact h.trans hf

/-- A change of the logs that keeps them within their sizes. -/
theorem Advances.modLog {f : LogState → LogState} (hf : ∀ l : LogState, l.Fits → (f l).Fits) {s t : State} (h : Advances s t) :
    Advances s (t.modLog f) :=
  h.trans ⟨rfl, Nat.le_refl _, fun m => ⟨Nat.le_refl _, m⟩, fun m => hf _ m⟩

/-- A change of other fields of the logs. -/
theorem LogState.Fits.same {l m : LogState} (h : l.Fits) (e1 : m.events = l.events) (e2 : m.errors = l.errors)
    (e3 : m.flashEvents = l.flashEvents) (e4 : m.flashErrors = l.flashErrors) : m.Fits :=
  ⟨by rw [e1]; exact h.events, by rw [e2]; exact h.errors, by rw [e3]; exact h.flashEvents, by rw [e4]; exact h.flashErrors⟩

theorem LogState.add_fits (time : Time) (state : Nat) (synced : Bool) (sc : Nat) (r : Option RequestRef) (ev : EventCode)
    (a b c : Nat) (l : LogState) (h : l.Fits) : (LogState.add time state synced sc r ev a b c l).Fits := by
  refine ⟨?_, ?_, h.flashEvents, h.flashErrors⟩
  · exact Nat.le_trans (List.length_take_le _ _) (Nat.le_refl _)
  · simp only [LogState.add]
    split
    · exact List.length_take_le _ _
    · exact h.errors

theorem State.waitUntil_advances (a : Nat) (s : State) : Advances s (s.waitUntil a) :=
  ⟨rfl, Nat.le_max_left _ _, fun m => ⟨Nat.le_refl _, m⟩, fun m => m⟩

theorem State.waitTime_advances (ns : Nat) (s : State) : Advances s (s.waitTime ns) :=
  ⟨rfl, Nat.le_add_right _ _, fun m => ⟨Nat.le_refl _, m⟩, fun m => m⟩

theorem State.countStart_advances (s : State) : Advances s s.countStart := by
  refine ⟨rfl, Nat.le_refl _, fun m => ?_, fun m => m⟩
  simp only [State.countStart, inc32, satAdd32]
  omega

theorem State.errorAnswer_advances (r : RequestRef) (a : Nat) (s : State) : Advances s (s.errorAnswer r a) := by
  unfold State.errorAnswer
  extract_lets e
  refine Advances.modLog (fun l h => ?_) (Advances.refl _)
  exact ⟨h.events, List.length_take_le _ _, h.flashEvents, h.flashErrors⟩

theorem State.deferEvent_advances (ev : EventCode) (a b c : Nat) (s : State) : Advances s (s.deferEvent ev a b c) := by
  unfold State.deferEvent
  refine Advances.modLog (fun l h => ?_) (Advances.refl _)
  exact h.same rfl rfl rfl rfl

theorem State.eventAt_advances (t : Time) (m : Mode) (synced : Bool) (ev : EventCode) (a b c : Nat) (s : State) :
    Advances s (s.eventAt t m synced ev a b c) :=
  Advances.modLog (fun l h => LogState.add_fits _ _ _ _ _ _ _ _ _ l h) (Advances.refl _)

theorem State.eventFor_advances (r : Option RequestRef) (ev : EventCode) (a b c : Nat) (s : State) :
    Advances s (s.eventFor r ev a b c) := by
  unfold State.eventFor
  exact Advances.ite (State.deferEvent_advances _ _ _ _ _)
    (Advances.modLog (fun l h => LogState.add_fits _ _ _ _ _ _ _ _ _ l h) (Advances.refl _))

theorem State.event_advances (ev : EventCode) (a b c : Nat) (s : State) : Advances s (s.event ev a b c) :=
  State.eventFor_advances none ev a b c s

theorem State.unlatch_advances (k : Nat) (s : State) : Advances s (s.unlatch k) := by
  unfold State.unlatch
  refine Advances.modLog (fun l h => ?_) (Advances.refl _)
  exact h.same rfl rfl rfl rfl

theorem LogState.addDeferreds_fits (es : List DeferredEvent) (l : LogState) (h : l.Fits) :
    (es.foldl LogState.addDeferred l).Fits := by
  induction es generalizing l with
  | nil => exact h
  | cons e es ih => exact ih _ (LogState.add_fits _ _ _ _ _ _ _ _ _ l h)

theorem State.logDeferred_advances (s : State) : Advances s s.logDeferred := by
  unfold State.logDeferred
  refine Advances.modLog (fun l h => ?_) (Advances.refl _)
  exact (LogState.addDeferreds_fits l.deferred l h).same rfl rfl rfl rfl

theorem State.persist_advances (s : State) : Advances s (s.modLog LogState.persist) := by
  refine Advances.modLog (fun l h => ?_) (Advances.refl _)
  exact ⟨h.events, h.errors, h.events, h.errors⟩

theorem State.coldFields_advances (env : StartEnv) (dram : Bytes) (s : State) : Advances s (s.coldFields env dram) :=
  ⟨rfl, Nat.le_refl _, fun m => ⟨Nat.le_refl _, m⟩, fun m => ⟨m.flashEvents, m.flashErrors, m.flashEvents, m.flashErrors⟩⟩

end Sys2Proof.Machine
end

