-- ==== Sys2Proof/Laws/Advances1.lean ====
section
/-!
SUPPORT. Every operation that touches the clock, START_COUNT or the logs advances, one lemma for each, callees before callers;
part 1 of 4.
-/
set_option linter.tactic.unusedName false
set_option linter.unusedSimpArgs false
namespace Sys2Proof.Machine

theorem State.noteError_advances (a : Ask) (status : Nat) (reason : Nat) (s : State) :
    Advances s (State.noteError a status reason s) := by
  unfold State.noteError
  repeat' (first
    | with_reducible exact Advances.refl _ | with_reducible assumption | with_reducible apply Advances.ite
    | (apply Advances.into; with_reducible apply State.errorAnswer_advances))

theorem State.finish_advances (a : Ask) (status : Nat) (reason : Nat) (b : AnswerBody) (s : State) :
    Advances s (State.finish a status reason b s) := by
  unfold State.finish
  repeat' (first
    | with_reducible exact Advances.refl _ | with_reducible assumption | (extract_lets +onlyGivenNames _x; first
      | (rename State => _y; refine Advances.bring _y ?_ ?_; rotate_left; clear_value _y; intro _; rotate_right; subst _y)
      | (rename _ × State => _y; refine Advances.bringSnd _y ?_ ?_; rotate_left; clear_value _y; intro _; rotate_right; subst _y)
      | skip)
    | with_reducible apply Advances.ite | (apply Advances.into; with_reducible apply State.noteError_advances)
    | (apply Advances.intoOnly; first
      | with_reducible apply State.modFlight_only
      | with_reducible apply State.say_only)
    | ((with_reducible show (_ || _) = false); exact rfl))

theorem State.abandonGraft_advances (s : State) :
    Advances s (State.abandonGraft s) := by
  unfold State.abandonGraft
  repeat' (first
    | with_reducible exact Advances.refl _ | with_reducible assumption | (extract_lets +onlyGivenNames _x; first
      | (rename State => _y; refine Advances.bring _y ?_ ?_; rotate_left; clear_value _y; intro _; rotate_right; subst _y)
      | (rename _ × State => _y; refine Advances.bringSnd _y ?_ ?_; rotate_left; clear_value _y; intro _; rotate_right; subst _y)
      | skip)
    | with_reducible apply Advances.ite | (apply Advances.into; with_reducible apply State.finish_advances)
    | (apply Advances.intoOnly; with_reducible apply State.modFw_only)
    | ((with_reducible show (_ || _) = false); exact rfl) | split)

theorem State.abortKeyOps_advances (s : State) :
    Advances s (State.abortKeyOps s) := by
  unfold State.abortKeyOps
  repeat' (first
    | with_reducible exact Advances.refl _ | with_reducible assumption | (extract_lets +onlyGivenNames _x; first
      | (rename State => _y; refine Advances.bring _y ?_ ?_; rotate_left; clear_value _y; intro _; rotate_right; subst _y)
      | (rename _ × State => _y; refine Advances.bringSnd _y ?_ ?_; rotate_left; clear_value _y; intro _; rotate_right; subst _y)
      | skip)
    | (apply Advances.into; with_reducible apply State.finish_advances) | (apply Advances.intoOnly; first
      | with_reducible apply State.abortJobs_only
      | with_reducible apply State.modFw_only)
    | ((with_reducible show (_ || _) = false); exact rfl) | split)

theorem State.abortTest_advances (s : State) :
    Advances s (State.abortTest s) := by
  unfold State.abortTest
  repeat' (first
    | with_reducible exact Advances.refl _ | with_reducible assumption | (extract_lets +onlyGivenNames _x; first
      | (rename State => _y; refine Advances.bring _y ?_ ?_; rotate_left; clear_value _y; intro _; rotate_right; subst _y)
      | (rename _ × State => _y; refine Advances.bringSnd _y ?_ ?_; rotate_left; clear_value _y; intro _; rotate_right; subst _y)
      | skip)
    | (apply Advances.into; with_reducible apply State.event_advances) | (apply Advances.intoOnly; first
      | with_reducible apply State.resumeCharge_only
      | with_reducible apply State.modPower_only)
    | ((with_reducible show (_ || _) = false); exact rfl) | split)

theorem State.actExpired_advances (s : State) :
    Advances s (State.actExpired s) := by
  unfold State.actExpired
  repeat' (first
    | with_reducible exact Advances.refl _ | with_reducible assumption
    | (apply Advances.into; with_reducible apply State.waitUntil_advances)
    | (apply Advances.intoOnly; with_reducible apply State.modNet_only)
    | ((with_reducible show (_ || _) = false); exact rfl) | split)

theorem State.writeEntry_advances (kind : EntryKind) (s : State) :
    Advances s (State.writeEntry kind s) := by
  unfold State.writeEntry
  repeat' (first
    | with_reducible exact Advances.refl _ | with_reducible assumption | (extract_lets +onlyGivenNames _x; first
      | (rename State => _y; refine Advances.bring _y ?_ ?_; rotate_left; clear_value _y; intro _; rotate_right; subst _y)
      | (rename _ × State => _y; refine Advances.bringSnd _y ?_ ?_; rotate_left; clear_value _y; intro _; rotate_right; subst _y)
      | skip)
    | with_reducible apply Advances.ite | with_reducible apply Advances.when
    | (apply Advances.into; with_reducible apply State.persist_advances) | (apply Advances.intoOnly; first
      | with_reducible apply State.nameBands_only
      | with_reducible apply State.nextSeq_only
      | with_reducible apply State.writeIndex_only
      | with_reducible apply State.modJournal_only
      | with_reducible apply State.addOp_only
      | with_reducible apply State.modMedia_only
      | with_reducible apply State.modStore_only)
    | ((with_reducible show (_ || _) = false); exact rfl) | (with_reducible apply Advances.foldl; (intro _ _)))

theorem State.endDownload_advances (id : Nat) (s : State) :
    Advances s (State.endDownload id s) := by
  unfold State.endDownload
  repeat' (first
    | with_reducible exact Advances.refl _ | with_reducible assumption | with_reducible apply Advances.ite
    | (apply Advances.into; with_reducible apply State.event_advances)
    | (apply Advances.intoOnly; with_reducible apply State.modFw_only)
    | ((with_reducible show (_ || _) = false); exact rfl) | split)

theorem State.removeSess_advances (id : Nat) (s : State) :
    Advances s (State.removeSess id s) := by
  unfold State.removeSess
  repeat' (first
    | with_reducible exact Advances.refl _ | with_reducible assumption | (extract_lets +onlyGivenNames _x; first
      | (rename State => _y; refine Advances.bring _y ?_ ?_; rotate_left; clear_value _y; intro _; rotate_right; subst _y)
      | (rename _ × State => _y; refine Advances.bringSnd _y ?_ ?_; rotate_left; clear_value _y; intro _; rotate_right; subst _y)
      | skip)
    | (apply Advances.into; with_reducible apply State.endDownload_advances) | (apply Advances.intoOnly; first
      | with_reducible apply State.modSes_only
      | with_reducible apply State.modAdmin_only)
    | ((with_reducible show (_ || _) = false); exact rfl))

theorem State.eraseSessions_advances (s : State) :
    Advances s (State.eraseSessions s) := by
  unfold State.eraseSessions
  repeat' (first
    | with_reducible exact Advances.refl _ | with_reducible assumption | (extract_lets +onlyGivenNames _x; first
      | (rename State => _y; refine Advances.bring _y ?_ ?_; rotate_left; clear_value _y; intro _; rotate_right; subst _y)
      | (rename _ × State => _y; refine Advances.bringSnd _y ?_ ?_; rotate_left; clear_value _y; intro _; rotate_right; subst _y)
      | skip)
    | with_reducible apply Advances.ite | (apply Advances.into; first
      | with_reducible apply State.event_advances
      | with_reducible apply State.removeSess_advances)
    | (apply Advances.intoOnly; first
      | with_reducible apply State.modPort_only
      | with_reducible apply State.say_only
      | with_reducible apply State.release_only
      | with_reducible apply State.modSes_only)
    | ((with_reducible show (_ || _) = false); exact rfl) | (with_reducible apply Advances.foldl; (intro _ _)) | split)

theorem State.eraseAll_advances (s : State) :
    Advances s (State.eraseAll s) := by
  unfold State.eraseAll
  repeat' (first
    | with_reducible exact Advances.refl _ | with_reducible assumption | (extract_lets +onlyGivenNames _x; first
      | (rename State => _y; refine Advances.bring _y ?_ ?_; rotate_left; clear_value _y; intro _; rotate_right; subst _y)
      | (rename _ × State => _y; refine Advances.bringSnd _y ?_ ?_; rotate_left; clear_value _y; intro _; rotate_right; subst _y)
      | skip)
    | (apply Advances.into; first
      | with_reducible apply State.eraseSessions_advances
      | with_reducible apply State.writeEntry_advances)
    | (apply Advances.intoOnly; first
      | with_reducible apply State.modNet_only
      | with_reducible apply State.modSec_only
      | with_reducible apply State.emptyStore_only
      | with_reducible apply State.newKeys_only)
    | ((with_reducible show (_ || _) = false); exact rfl))

theorem State.sealErased_advances (s : State) :
    Advances s (State.sealErased s) := by
  unfold State.sealErased
  repeat' (first
    | with_reducible exact Advances.refl _ | with_reducible assumption | (extract_lets +onlyGivenNames _x; first
      | (rename State => _y; refine Advances.bring _y ?_ ?_; rotate_left; clear_value _y; intro _; rotate_right; subst _y)
      | (rename _ × State => _y; refine Advances.bringSnd _y ?_ ?_; rotate_left; clear_value _y; intro _; rotate_right; subst _y)
      | skip)
    | (apply Advances.into; first
      | with_reducible apply State.abortTest_advances
      | with_reducible apply State.eraseAll_advances)
    | (apply Advances.intoOnly; first
      | with_reducible apply State.modStart_only
      | with_reducible apply State.enter_only
      | with_reducible apply State.beginSeries_only)
    | ((with_reducible show (_ || _) = false); exact rfl))

theorem State.finishLy1_advances (a : Ask) (status : Nat) (reason : Nat) (range : Bool) (set : Nat) (lba : Nat) (count : Nat) (data : Bytes) (s : State) :
    Advances s (State.finishLy1 a status reason range set lba count data s) := by
  unfold State.finishLy1
  repeat' (first
    | with_reducible exact Advances.refl _ | with_reducible assumption | (extract_lets +onlyGivenNames _x; first
      | (rename State => _y; refine Advances.bring _y ?_ ?_; rotate_left; clear_value _y; intro _; rotate_right; subst _y)
      | (rename _ × State => _y; refine Advances.bringSnd _y ?_ ?_; rotate_left; clear_value _y; intro _; rotate_right; subst _y)
      | skip)
    | with_reducible apply Advances.ite | (apply Advances.into; with_reducible apply State.noteError_advances)
    | (apply Advances.intoOnly; first
      | with_reducible apply State.modFlight_only
      | with_reducible apply State.modSess_only
      | with_reducible apply State.say_only)
    | ((with_reducible show (_ || _) = false); exact rfl) | split)

theorem State.stopFlight_advances (status : Nat) (reason : Nat) (e : Sess) (f : Flight) (s : State) :
    Advances s (State.stopFlight status reason e f s) := by
  unfold State.stopFlight
  repeat' (first
    | with_reducible exact Advances.refl _ | with_reducible assumption | (extract_lets +onlyGivenNames _x; first
      | (rename State => _y; refine Advances.bring _y ?_ ?_; rotate_left; clear_value _y; intro _; rotate_right; subst _y)
      | (rename _ × State => _y; refine Advances.bringSnd _y ?_ ?_; rotate_left; clear_value _y; intro _; rotate_right; subst _y)
      | skip)
    | with_reducible apply Advances.ite | (apply Advances.into; first
      | with_reducible apply State.finishLy1_advances
      | with_reducible apply State.finish_advances)
    | (apply Advances.intoOnly; first
      | with_reducible apply State.unqueue_only
      | with_reducible apply State.undoPin_only
      | with_reducible apply State.modSes_only
      | with_reducible apply State.modFlight_only)
    | ((with_reducible show (_ || _) = false); exact rfl) | split)

theorem State.settleFlush_advances (s : State) (e : Sess) :
    Advances s (State.settleFlush s e) := by
  unfold State.settleFlush
  repeat' (first
    | with_reducible exact Advances.refl _ | with_reducible assumption | (extract_lets +onlyGivenNames _x; first
      | (rename State => _y; refine Advances.bring _y ?_ ?_; rotate_left; clear_value _y; intro _; rotate_right; subst _y)
      | (rename _ × State => _y; refine Advances.bringSnd _y ?_ ?_; rotate_left; clear_value _y; intro _; rotate_right; subst _y)
      | skip)
    | with_reducible apply Advances.ite | (apply Advances.into; with_reducible apply State.finishLy1_advances)
    | (with_reducible apply Advances.foldl; (intro _ _)) | split)

theorem State.settleCloses_advances (s : State) :
    Advances s (State.settleCloses s) := by
  unfold State.settleCloses
  repeat' (first
    | with_reducible exact Advances.refl _ | with_reducible assumption | (extract_lets +onlyGivenNames _x; first
      | (rename State => _y; refine Advances.bring _y ?_ ?_; rotate_left; clear_value _y; intro _; rotate_right; subst _y)
      | (rename _ × State => _y; refine Advances.bringSnd _y ?_ ?_; rotate_left; clear_value _y; intro _; rotate_right; subst _y)
      | skip)
    | (apply Advances.into; with_reducible apply State.settleFlush_advances)
    | (apply Advances.intoOnly; with_reducible apply State.settleClose_only)
    | ((with_reducible show (_ || _) = false); exact rfl) | (with_reducible apply Advances.foldl; (intro _ _)))

theorem State.cancelFlight_advances (e : Sess) (f : Flight) (s : State) :
    Advances s (State.cancelFlight e f s) := by
  unfold State.cancelFlight
  repeat' (first
    | with_reducible exact Advances.refl _ | (apply Advances.into; with_reducible apply State.stopFlight_advances))

theorem State.fail_advances (a : Ask) (status : Nat) (reason : Nat) (b : AnswerBody) (s : State) :
    Advances s (State.fail a status reason b s) := by
  unfold State.fail
  repeat' (first
    | with_reducible exact Advances.refl _ | with_reducible assumption | with_reducible apply Advances.ite
    | (apply Advances.into; first
      | with_reducible apply State.finishLy1_advances
      | with_reducible apply State.finish_advances)
    | split)

theorem State.cancelWaiting_advances (e : Sess) (a : Assembly) (s : State) :
    Advances s (State.cancelWaiting e a s) := by
  unfold State.cancelWaiting
  repeat' (first
    | with_reducible exact Advances.refl _ | (apply Advances.into; with_reducible apply State.fail_advances)
    | (apply Advances.intoOnly; with_reducible apply State.takeMessage_only)
    | ((with_reducible show (_ || _) = false); exact rfl))

theorem State.cancelAll_advances (id : Nat) (s : State) :
    Advances s (State.cancelAll id s) := by
  unfold State.cancelAll
  repeat' (first
    | with_reducible exact Advances.refl _ | with_reducible assumption | (extract_lets +onlyGivenNames _x; first
      | (rename State => _y; refine Advances.bring _y ?_ ?_; rotate_left; clear_value _y; intro _; rotate_right; subst _y)
      | (rename _ × State => _y; refine Advances.bringSnd _y ?_ ?_; rotate_left; clear_value _y; intro _; rotate_right; subst _y)
      | skip)
    | (apply Advances.into; first
      | with_reducible apply State.cancelFlight_advances
      | with_reducible apply State.cancelWaiting_advances)
    | (with_reducible apply Advances.foldl; (intro _ _)) | split)

theorem State.dropSession_advances (id : Nat) (cause : Nat) (s : State) :
    Advances s (State.dropSession id cause s) := by
  unfold State.dropSession
  repeat' (first
    | with_reducible exact Advances.refl _ | with_reducible assumption | (extract_lets +onlyGivenNames _x; first
      | (rename State => _y; refine Advances.bring _y ?_ ?_; rotate_left; clear_value _y; intro _; rotate_right; subst _y)
      | (rename _ × State => _y; refine Advances.bringSnd _y ?_ ?_; rotate_left; clear_value _y; intro _; rotate_right; subst _y)
      | skip)
    | (apply Advances.into; first
      | with_reducible apply State.removeSess_advances
      | with_reducible apply State.event_advances
      | with_reducible apply State.settleCloses_advances
      | with_reducible apply State.cancelAll_advances)
    | (apply Advances.intoOnly; first
      | with_reducible apply State.modSess_only
      | with_reducible apply State.dropAssemblies_only)
    | ((with_reducible show (_ || _) = false); exact rfl) | split)

theorem State.dropSessions_advances (p : Sess → Bool) (cause : Nat) (s : State) :
    Advances s (State.dropSessions p cause s) := by
  unfold State.dropSessions
  repeat' (first
    | with_reducible exact Advances.refl _ | with_reducible assumption
    | (apply Advances.into; with_reducible apply State.dropSession_advances)
    | (with_reducible apply Advances.foldl; (intro _ _)))

theorem State.lock_advances (s : State) :
    Advances s (State.lock s) := by
  unfold State.lock
  repeat' (first
    | with_reducible exact Advances.refl _ | with_reducible assumption | (extract_lets +onlyGivenNames _x; first
      | (rename State => _y; refine Advances.bring _y ?_ ?_; rotate_left; clear_value _y; intro _; rotate_right; subst _y)
      | (rename _ × State => _y; refine Advances.bringSnd _y ?_ ?_; rotate_left; clear_value _y; intro _; rotate_right; subst _y)
      | skip)
    | (apply Advances.into; first
      | with_reducible apply State.abortTest_advances
      | with_reducible apply State.stopFlight_advances
      | with_reducible apply State.dropSessions_advances)
    | (apply Advances.intoOnly; first
      | with_reducible apply State.enter_only
      | with_reducible apply State.modSec_only
      | with_reducible apply State.modStart_only
      | with_reducible apply State.dropOps_only
      | with_reducible apply State.beginSeries_only)
    | ((with_reducible show (_ || _) = false); exact rfl) | (with_reducible apply Advances.foldl; (intro _ _)))

theorem State.tamperAction_advances (s : State) :
    Advances s (State.tamperAction s) := by
  unfold State.tamperAction
  repeat' (first
    | with_reducible exact Advances.refl _ | with_reducible assumption | (extract_lets +onlyGivenNames _x; first
      | (rename State => _y; refine Advances.bring _y ?_ ?_; rotate_left; clear_value _y; intro _; rotate_right; subst _y)
      | (rename _ × State => _y; refine Advances.bringSnd _y ?_ ?_; rotate_left; clear_value _y; intro _; rotate_right; subst _y)
      | skip)
    | with_reducible apply Advances.ite | (apply Advances.into; first
      | with_reducible apply State.event_advances
      | with_reducible apply State.abortKeyOps_advances
      | with_reducible apply State.eraseAll_advances
      | with_reducible apply State.lock_advances
      | with_reducible apply State.sealErased_advances)
    | (apply Advances.intoOnly; first
      | with_reducible apply State.modStore_only
      | with_reducible apply State.modSec_only)
    | ((with_reducible show (_ || _) = false); exact rfl) | split)

theorem State.alarm_advances (s : State) :
    Advances s (State.alarm s) := by
  unfold State.alarm
  repeat' (first
    | with_reducible exact Advances.refl _ | with_reducible assumption | (apply Advances.into; first
      | with_reducible apply State.deferEvent_advances
      | with_reducible apply State.tamperAction_advances)
    | (apply Advances.intoOnly; first
      | with_reducible apply State.modSec_only
      | with_reducible apply State.modPower_only)
    | ((with_reducible show (_ || _) = false); exact rfl) | split)

theorem State.beginRun_advances (path : StartPath) (source : StartSource) (step : Nat) (env : StartEnv) (s : State) :
    Advances s (State.beginRun path source step env s) := by
  unfold State.beginRun
  repeat' (first
    | with_reducible exact Advances.refl _ | with_reducible assumption | (extract_lets +onlyGivenNames _x; first
      | (rename State => _y; refine Advances.bring _y ?_ ?_; rotate_left; clear_value _y; intro _; rotate_right; subst _y)
      | (rename _ × State => _y; refine Advances.bringSnd _y ?_ ?_; rotate_left; clear_value _y; intro _; rotate_right; subst _y)
      | skip)
    | with_reducible apply Advances.ite | with_reducible apply Advances.when
    | (apply Advances.into; with_reducible apply State.alarm_advances) | (apply Advances.intoOnly; first
      | with_reducible apply State.pauseBounds_only
      | with_reducible apply State.modStart_only
      | with_reducible apply State.modSec_only)
    | ((with_reducible show (_ || _) = false); exact rfl))

theorem State.beginFallback_advances (cause : Nat) (s : State) :
    Advances s (State.beginFallback cause s) := by
  unfold State.beginFallback
  repeat' (first
    | with_reducible exact Advances.refl _ | with_reducible assumption | (extract_lets +onlyGivenNames _x; first
      | (rename State => _y; refine Advances.bring _y ?_ ?_; rotate_left; clear_value _y; intro _; rotate_right; subst _y)
      | (rename _ × State => _y; refine Advances.bringSnd _y ?_ ?_; rotate_left; clear_value _y; intro _; rotate_right; subst _y)
      | skip)
    | with_reducible apply Advances.ite | (apply Advances.into; with_reducible apply State.abortTest_advances)
    | (apply Advances.intoOnly; with_reducible apply State.modFw_only)
    | ((with_reducible show (_ || _) = false); exact rfl) | split)

theorem State.takeFallback_advances (s : State) :
    Advances s (State.takeFallback s) := by
  unfold State.takeFallback
  repeat' (first
    | with_reducible exact Advances.refl _ | with_reducible assumption | with_reducible apply Advances.ite
    | (apply Advances.into; with_reducible apply State.beginFallback_advances) | split)

theorem State.enterLevel_advances (r : StartRun) (kind : StartKind) (kept : Bool) (level : Mode) (s : State) :
    Advances s (State.enterLevel r kind kept level s) := by
  unfold State.enterLevel
  repeat' (first
    | with_reducible exact Advances.refl _ | (apply Advances.into; with_reducible apply State.countStart_advances)
    | (apply Advances.intoOnly; first
      | with_reducible apply State.modStart_only
      | with_reducible apply State.setMode_only)
    | ((with_reducible show (_ || _) = false); exact rfl))

theorem State.logStart_advances (r : StartRun) (kind : StartKind) (s : State) :
    Advances s (State.logStart r kind s) := by
  unfold State.logStart
  repeat' (first
    | with_reducible exact Advances.refl _ | with_reducible assumption | (extract_lets +onlyGivenNames _x; first
      | (rename State => _y; refine Advances.bring _y ?_ ?_; rotate_left; clear_value _y; intro _; rotate_right; subst _y)
      | (rename _ × State => _y; refine Advances.bringSnd _y ?_ ?_; rotate_left; clear_value _y; intro _; rotate_right; subst _y)
      | skip)
    | (apply Advances.into; first
      | with_reducible apply State.logDeferred_advances
      | with_reducible apply State.writeEntry_advances
      | with_reducible apply State.event_advances)
    | (apply Advances.intoOnly; with_reducible apply State.recordStart_only)
    | ((with_reducible show (_ || _) = false); exact rfl))

theorem State.enterBrace_advances (cause : BraceCause) (s : State) :
    Advances s (State.enterBrace cause s) := by
  unfold State.enterBrace
  repeat' (first
    | with_reducible exact Advances.refl _ | with_reducible assumption | (extract_lets +onlyGivenNames _x; first
      | (rename State => _y; refine Advances.bring _y ?_ ?_; rotate_left; clear_value _y; intro _; rotate_right; subst _y)
      | (rename _ × State => _y; refine Advances.bringSnd _y ?_ ?_; rotate_left; clear_value _y; intro _; rotate_right; subst _y)
      | skip)
    | with_reducible apply Advances.ite | (apply Advances.into; first
      | with_reducible apply State.abortTest_advances
      | with_reducible apply State.event_advances)
    | (apply Advances.intoOnly; first
      | with_reducible apply State.modReg_only
      | with_reducible apply State.modPower_only
      | with_reducible apply State.setMode_only)
    | ((with_reducible show (_ || _) = false); exact rfl))

theorem State.braceIfWarned_advances (s : State) :
    Advances s (State.braceIfWarned s) := by
  unfold State.braceIfWarned
  repeat' (first
    | with_reducible exact Advances.refl _ | with_reducible assumption | with_reducible apply Advances.ite
    | (apply Advances.into; with_reducible apply State.enterBrace_advances))

theorem State.serve_advances (r : StartRun) (s : State) :
    Advances s (State.serve r s) := by
  unfold State.serve
  repeat' (first
    | with_reducible exact Advances.refl _ | with_reducible assumption | (extract_lets +onlyGivenNames _x; first
      | (rename State => _y; refine Advances.bring _y ?_ ?_; rotate_left; clear_value _y; intro _; rotate_right; subst _y)
      | (rename _ × State => _y; refine Advances.bringSnd _y ?_ ?_; rotate_left; clear_value _y; intro _; rotate_right; subst _y)
      | skip)
    | with_reducible apply Advances.when | (apply Advances.into; first
      | with_reducible apply State.enterLevel_advances
      | with_reducible apply State.waitUntil_advances
      | with_reducible apply State.logStart_advances
      | with_reducible apply State.takeFallback_advances
      | with_reducible apply State.braceIfWarned_advances)
    | (apply Advances.intoOnly; first
      | with_reducible apply State.openService_only
      | with_reducible apply State.resumeVerify_only
      | with_reducible apply State.probeBands_only
      | with_reducible apply State.noteLevels_only
      | with_reducible apply State.kickAll_only)
    | ((with_reducible show (_ || _) = false); exact rfl))

theorem State.noteDusk_advances (s : State) :
    Advances s (State.noteDusk s) := by
  unfold State.noteDusk
  repeat' (first
    | with_reducible exact Advances.refl _ | with_reducible assumption
    | (apply Advances.into; with_reducible apply State.eventAt_advances) | split)

theorem State.recover_advances (env : StartEnv) (s : State) :
    Advances s (State.recover env s) := by
  unfold State.recover
  repeat' (first
    | with_reducible exact Advances.refl _ | with_reducible assumption | (extract_lets +onlyGivenNames _x; first
      | (rename State => _y; refine Advances.bring _y ?_ ?_; rotate_left; clear_value _y; intro _; rotate_right; subst _y)
      | (rename _ × State => _y; refine Advances.bringSnd _y ?_ ?_; rotate_left; clear_value _y; intro _; rotate_right; subst _y)
      | skip)
    | (apply Advances.into; first
      | with_reducible apply State.waitUntil_advances
      | with_reducible apply State.event_advances
      | with_reducible apply State.writeEntry_advances)
    | (apply Advances.intoOnly; first
      | with_reducible apply State.closeOpen_only
      | with_reducible apply State.modMedia_only
      | with_reducible apply State.modJournal_only)
    | ((with_reducible show (_ || _) = false); exact rfl) | (with_reducible apply Advances.foldl; (intro _ _)) | split)

theorem State.stepJournal_advances (r : StartRun) (s : State) :
    Advances s (State.stepJournal r s) := by
  unfold State.stepJournal
  repeat' (first
    | with_reducible exact Advances.refl _ | with_reducible assumption | (extract_lets +onlyGivenNames _x; first
      | (rename State => _y; refine Advances.bring _y ?_ ?_; rotate_left; clear_value _y; intro _; rotate_right; subst _y)
      | (rename _ × State => _y; refine Advances.bringSnd _y ?_ ?_; rotate_left; clear_value _y; intro _; rotate_right; subst _y)
      | skip)
    | with_reducible apply Advances.ite | (apply Advances.into; first
      | with_reducible apply State.noteDusk_advances
      | with_reducible apply State.recover_advances)
    | (apply Advances.intoOnly; first
      | with_reducible apply State.modStart_only
      | with_reducible apply State.modAdmin_only
      | with_reducible apply State.setStartTime_only)
    | ((with_reducible show (_ || _) = false); exact rfl) | split)

theorem State.stepStraps_advances (cold : Bool) (x : Straps) (s : State) :
    Advances s (State.stepStraps cold x s) := by
  unfold State.stepStraps
  repeat' (first
    | with_reducible exact Advances.refl _ | with_reducible assumption | with_reducible apply Advances.ite
    | (apply Advances.into; with_reducible apply State.event_advances)
    | (apply Advances.intoOnly; with_reducible apply State.modStart_only)
    | ((with_reducible show (_ || _) = false); exact rfl) | (with_reducible apply Advances.foldl; (intro _ _)))

theorem State.loseSessions_advances (s : State) :
    Advances s (State.loseSessions s) := by
  unfold State.loseSessions
  repeat' (first
    | with_reducible exact Advances.refl _ | with_reducible assumption | (extract_lets +onlyGivenNames _x; first
      | (rename State => _y; refine Advances.bring _y ?_ ?_; rotate_left; clear_value _y; intro _; rotate_right; subst _y)
      | (rename _ × State => _y; refine Advances.bringSnd _y ?_ ?_; rotate_left; clear_value _y; intro _; rotate_right; subst _y)
      | skip)
    | (apply Advances.into; with_reducible apply State.removeSess_advances) | (apply Advances.intoOnly; first
      | with_reducible apply State.release_only
      | with_reducible apply State.modAdmin_only
      | with_reducible apply State.modPort_only
      | with_reducible apply State.modSes_only)
    | ((with_reducible show (_ || _) = false); exact rfl) | (with_reducible apply Advances.foldl; (intro _ _)) | split)

theorem State.escalate_advances (s : State) :
    Advances s (State.escalate s) := by
  unfold State.escalate
  repeat' (first
    | with_reducible exact Advances.refl _ | (apply Advances.into; with_reducible apply State.loseSessions_advances)
    | (apply Advances.intoOnly; first
      | with_reducible apply State.modCfg_only
      | with_reducible apply State.noteEscalation_only)
    | ((with_reducible show (_ || _) = false); exact rfl))

theorem State.scrubFailed_advances (r : StartRun) (offset : Nat) (s : State) :
    Advances s (State.scrubFailed r offset s) := by
  unfold State.scrubFailed
  repeat' (first
    | with_reducible exact Advances.refl _ | with_reducible assumption | (extract_lets +onlyGivenNames _x; first
      | (rename State => _y; refine Advances.bring _y ?_ ?_; rotate_left; clear_value _y; intro _; rotate_right; subst _y)
      | (rename _ × State => _y; refine Advances.bringSnd _y ?_ ?_; rotate_left; clear_value _y; intro _; rotate_right; subst _y)
      | skip)
    | (apply Advances.into; first
      | with_reducible apply State.escalate_advances
      | with_reducible apply State.event_advances)
    | (apply Advances.intoOnly; first
      | with_reducible apply State.modNet_only
      | with_reducible apply State.modStart_only)
    | ((with_reducible show (_ || _) = false); exact rfl))

theorem State.enterRescue_advances (path : StartPath) (source : StartSource) (s : State) :
    Advances s (State.enterRescue path source s) := by
  unfold State.enterRescue
  repeat' (first
    | with_reducible exact Advances.refl _ | with_reducible assumption | (extract_lets +onlyGivenNames _x; first
      | (rename State => _y; refine Advances.bring _y ?_ ?_; rotate_left; clear_value _y; intro _; rotate_right; subst _y)
      | (rename _ × State => _y; refine Advances.bringSnd _y ?_ ?_; rotate_left; clear_value _y; intro _; rotate_right; subst _y)
      | skip)
    | (apply Advances.into; first
      | with_reducible apply State.deferEvent_advances
      | with_reducible apply State.countStart_advances)
    | (apply Advances.intoOnly; first
      | with_reducible apply State.rescueWatch_only
      | with_reducible apply State.setMode_only
      | with_reducible apply State.modNet_only
      | with_reducible apply State.modCfg_only
      | with_reducible apply State.beginSeries_only
      | with_reducible apply State.modStart_only
      | with_reducible apply State.startLoops_only)
    | ((with_reducible show (_ || _) = false); exact rfl))

theorem State.stepSelect_advances (r : StartRun) (s : State) :
    Advances s (State.stepSelect r s).1 := by
  unfold State.stepSelect
  repeat' (first
    | with_reducible exact Advances.refl _ | with_reducible assumption | (extract_lets +onlyGivenNames _x; first
      | (rename State => _y; refine Advances.bring _y ?_ ?_; rotate_left; clear_value _y; intro _; rotate_right; subst _y)
      | (rename _ × State => _y; refine Advances.bringSnd _y ?_ ?_; rotate_left; clear_value _y; intro _; rotate_right; subst _y)
      | skip)
    | with_reducible apply Advances.ite | (apply Advances.into; first
      | with_reducible apply State.deferEvent_advances
      | with_reducible apply State.enterRescue_advances)
    | (apply Advances.intoOnly; first
      | with_reducible apply State.modFw_only
      | with_reducible apply State.markFailed_only
      | with_reducible apply State.commitFallback_only)
    | ((with_reducible show (_ || _) = false); exact rfl) | split)

theorem State.stepSelect_advances_eq {r : StartRun} {s : State} {p : _} {t : State} (h : State.stepSelect r s = (t, p)) :
    Advances s t := by
  have k := State.stepSelect_advances r s
  rw [h] at k
  exact k

theorem State.loadFailed_advances (r : StartRun) (s : State) :
    Advances s (State.loadFailed r s) := by
  unfold State.loadFailed
  repeat' (first
    | with_reducible exact Advances.refl _ | with_reducible assumption | (extract_lets +onlyGivenNames _x; first
      | (rename State => _y; refine Advances.bring _y ?_ ?_; rotate_left; clear_value _y; intro _; rotate_right; subst _y)
      | (rename _ × State => _y; refine Advances.bringSnd _y ?_ ?_; rotate_left; clear_value _y; intro _; rotate_right; subst _y)
      | skip)
    | (apply Advances.into; first
      | with_reducible apply State.event_advances
      | with_reducible apply State.escalate_advances)
    | (apply Advances.intoOnly; first
      | with_reducible apply State.markFailed_only
      | with_reducible apply State.modStart_only
      | with_reducible apply State.commitFallback_only)
    | ((with_reducible show (_ || _) = false); exact rfl) | split)

theorem State.stepCommit_advances (s : State) :
    Advances s (State.stepCommit s) := by
  unfold State.stepCommit
  repeat' (first
    | with_reducible exact Advances.refl _ | with_reducible assumption
    | (apply Advances.into; with_reducible apply State.event_advances) | (apply Advances.intoOnly; first
      | with_reducible apply State.commitFallback_only
      | with_reducible apply State.commitTrial_only)
    | ((with_reducible show (_ || _) = false); exact rfl) | split)

theorem State.noteAdjusted_advances (s : State) :
    Advances s (State.noteAdjusted s) := by
  unfold State.noteAdjusted
  repeat' (first
    | with_reducible exact Advances.refl _ | with_reducible assumption | (extract_lets +onlyGivenNames _x; first
      | (rename State => _y; refine Advances.bring _y ?_ ?_; rotate_left; clear_value _y; intro _; rotate_right; subst _y)
      | (rename _ × State => _y; refine Advances.bringSnd _y ?_ ?_; rotate_left; clear_value _y; intro _; rotate_right; subst _y)
      | skip)
    | with_reducible apply Advances.ite | (apply Advances.into; with_reducible apply State.event_advances))

theorem State.stepReformat_advances (s : State) :
    Advances s (State.stepReformat s) := by
  unfold State.stepReformat
  repeat' (first
    | with_reducible exact Advances.refl _ | with_reducible assumption | (extract_lets +onlyGivenNames _x; first
      | (rename State => _y; refine Advances.bring _y ?_ ?_; rotate_left; clear_value _y; intro _; rotate_right; subst _y)
      | (rename _ × State => _y; refine Advances.bringSnd _y ?_ ?_; rotate_left; clear_value _y; intro _; rotate_right; subst _y)
      | skip)
    | with_reducible apply Advances.ite | (apply Advances.into; first
      | with_reducible apply State.loseSessions_advances
      | with_reducible apply State.noteAdjusted_advances)
    | (apply Advances.intoOnly; first
      | with_reducible apply State.modStart_only
      | with_reducible apply State.modCfg_only
      | with_reducible apply State.shapersChanged_only)
    | ((with_reducible show (_ || _) = false); exact rfl) | split)

theorem State.rereadImage_advances (env : StartEnv) (s : State) :
    Advances s (State.rereadImage env s) := by
  unfold State.rereadImage
  repeat' (first
    | with_reducible exact Advances.refl _ | with_reducible assumption | (extract_lets +onlyGivenNames _x; first
      | (rename State => _y; refine Advances.bring _y ?_ ?_; rotate_left; clear_value _y; intro _; rotate_right; subst _y)
      | (rename _ × State => _y; refine Advances.bringSnd _y ?_ ?_; rotate_left; clear_value _y; intro _; rotate_right; subst _y)
      | skip)
    | (apply Advances.into; with_reducible apply State.event_advances)
    | (apply Advances.intoOnly; with_reducible apply State.modCfg_only)
    | ((with_reducible show (_ || _) = false); exact rfl) | split)

theorem State.stepConfigure_advances (r : StartRun) (s : State) :
    Advances s (State.stepConfigure r s) := by
  unfold State.stepConfigure
  repeat' (first
    | with_reducible exact Advances.refl _ | with_reducible assumption | (extract_lets +onlyGivenNames _x; first
      | (rename State => _y; refine Advances.bring _y ?_ ?_; rotate_left; clear_value _y; intro _; rotate_right; subst _y)
      | (rename _ × State => _y; refine Advances.bringSnd _y ?_ ?_; rotate_left; clear_value _y; intro _; rotate_right; subst _y)
      | skip)
    | with_reducible apply Advances.ite | (apply Advances.into; with_reducible apply State.rereadImage_advances)
    | (apply Advances.intoOnly; first
      | with_reducible apply State.useImage_only
      | with_reducible apply State.startWatch_only)
    | ((with_reducible show (_ || _) = false); exact rfl) | split)

theorem State.setSynced_advances (b : Bool) (s : State) :
    Advances s (State.setSynced b s) := by
  unfold State.setSynced
  repeat' (first
    | with_reducible exact Advances.refl _ | with_reducible assumption | with_reducible apply Advances.ite
    | (apply Advances.into; with_reducible apply State.event_advances)
    | (apply Advances.intoOnly; with_reducible apply State.modTime_only)
    | ((with_reducible show (_ || _) = false); exact rfl))

theorem State.selectMaster_advances (s : State) :
    Advances s (State.selectMaster s) := by
  unfold State.selectMaster
  repeat' (first
    | with_reducible exact Advances.refl _ | with_reducible assumption | (extract_lets +onlyGivenNames _x; first
      | (rename State => _y; refine Advances.bring _y ?_ ?_; rotate_left; clear_value _y; intro _; rotate_right; subst _y)
      | (rename _ × State => _y; refine Advances.bringSnd _y ?_ ?_; rotate_left; clear_value _y; intro _; rotate_right; subst _y)
      | skip)
    | with_reducible apply Advances.ite | (apply Advances.into; with_reducible apply State.setSynced_advances)
    | (apply Advances.intoOnly; with_reducible apply State.modTime_only)
    | ((with_reducible show (_ || _) = false); exact rfl) | split)

theorem State.messageOver_advances (m : LyMsg) (s : State) :
    Advances s (State.messageOver m s) := by
  unfold State.messageOver
  repeat' (first
    | with_reducible exact Advances.refl _ | with_reducible assumption | with_reducible apply Advances.ite
    | (apply Advances.into; with_reducible apply State.removeSess_advances)
    | (apply Advances.intoOnly; with_reducible apply State.endFlight_only)
    | ((with_reducible show (_ || _) = false); exact rfl) | split)

theorem State.lost_advances (q : Port) (e : EpEntry) (s : State) :
    Advances s (State.lost q e s) := by
  unfold State.lost
  repeat' (first
    | with_reducible exact Advances.refl _ | with_reducible assumption | with_reducible apply Advances.ite
    | (apply Advances.into; with_reducible apply State.messageOver_advances) | (apply Advances.intoOnly; first
      | with_reducible apply State.cacheAnswer_only
      | with_reducible apply State.bump_only)
    | ((with_reducible show (_ || _) = false); exact rfl) | split)

theorem State.linkDown_advances (q : Port) (s : State) :
    Advances s (State.linkDown q s) := by
  unfold State.linkDown
  repeat' (first
    | with_reducible exact Advances.refl _ | with_reducible assumption | (extract_lets +onlyGivenNames _x; first
      | (rename State => _y; refine Advances.bring _y ?_ ?_; rotate_left; clear_value _y; intro _; rotate_right; subst _y)
      | (rename _ × State => _y; refine Advances.bringSnd _y ?_ ?_; rotate_left; clear_value _y; intro _; rotate_right; subst _y)
      | skip)
    | with_reducible apply Advances.ite | (apply Advances.into; first
      | with_reducible apply State.lost_advances
      | with_reducible apply State.selectMaster_advances
      | with_reducible apply State.settleCloses_advances)
    | (apply Advances.intoOnly; first
      | with_reducible apply State.bumps_only
      | with_reducible apply State.bump_only
      | with_reducible apply State.modPort_only
      | with_reducible apply State.modNet_only
      | with_reducible apply State.modTime_only
      | with_reducible apply State.modSes_only)
    | ((with_reducible show (_ || _) = false); exact rfl) | (with_reducible apply Advances.foldl; (intro _ _)))

theorem State.judgeSpeed_advances (q : Port) (s : State) :
    Advances s (State.judgeSpeed q s) := by
  unfold State.judgeSpeed
  repeat' (first
    | with_reducible exact Advances.refl _ | with_reducible assumption | (extract_lets +onlyGivenNames _x; first
      | (rename State => _y; refine Advances.bring _y ?_ ?_; rotate_left; clear_value _y; intro _; rotate_right; subst _y)
      | (rename _ × State => _y; refine Advances.bringSnd _y ?_ ?_; rotate_left; clear_value _y; intro _; rotate_right; subst _y)
      | skip)
    | with_reducible apply Advances.ite | with_reducible apply Advances.when | (apply Advances.into; first
      | with_reducible apply State.event_advances
      | with_reducible apply State.linkDown_advances))

theorem State.stepBridge_advances (s : State) :
    Advances s (State.stepBridge s) := by
  unfold State.stepBridge
  repeat' (first
    | with_reducible exact Advances.refl _ | with_reducible assumption | (extract_lets +onlyGivenNames _x; first
      | (rename State => _y; refine Advances.bring _y ?_ ?_; rotate_left; clear_value _y; intro _; rotate_right; subst _y)
      | (rename _ × State => _y; refine Advances.bringSnd _y ?_ ?_; rotate_left; clear_value _y; intro _; rotate_right; subst _y)
      | skip)
    | with_reducible apply Advances.ite | (apply Advances.into; first
      | with_reducible apply State.judgeSpeed_advances
      | with_reducible apply State.selectMaster_advances)
    | (apply Advances.intoOnly; first
      | with_reducible apply State.modCfg_only
      | with_reducible apply State.modTime_only
      | with_reducible apply State.modNet_only
      | with_reducible apply State.setSlopes_only
      | with_reducible apply State.modPort_only)
    | ((with_reducible show (_ || _) = false); exact rfl))

theorem State.stepFuses_advances (env : StartEnv) (s : State) :
    Advances s (State.stepFuses env s) := by
  unfold State.stepFuses
  repeat' (first
    | with_reducible exact Advances.refl _ | with_reducible assumption | (extract_lets +onlyGivenNames _x; first
      | (rename State => _y; refine Advances.bring _y ?_ ?_; rotate_left; clear_value _y; intro _; rotate_right; subst _y)
      | (rename _ × State => _y; refine Advances.bringSnd _y ?_ ?_; rotate_left; clear_value _y; intro _; rotate_right; subst _y)
      | skip)
    | with_reducible apply Advances.ite | (apply Advances.into; with_reducible apply State.alarm_advances)
    | (apply Advances.intoOnly; first
      | with_reducible apply State.modSec_only
      | with_reducible apply State.startWatch_only)
    | ((with_reducible show (_ || _) = false); exact rfl))

theorem State.noteCredentials_advances (s : State) :
    Advances s (State.noteCredentials s) := by
  unfold State.noteCredentials
  repeat' (first
    | with_reducible exact Advances.refl _ | with_reducible assumption | with_reducible apply Advances.ite
    | (apply Advances.into; with_reducible apply State.event_advances)
    | (with_reducible apply Advances.foldl; (intro _ _)) | split)

theorem State.applySecurity_advances (x : SecCheck) (s : State) :
    Advances s (State.applySecurity x s) := by
  unfold State.applySecurity
  repeat' (first
    | with_reducible exact Advances.refl _ | with_reducible assumption | (extract_lets +onlyGivenNames _x; first
      | (rename State => _y; refine Advances.bring _y ?_ ?_; rotate_left; clear_value _y; intro _; rotate_right; subst _y)
      | (rename _ × State => _y; refine Advances.bringSnd _y ?_ ?_; rotate_left; clear_value _y; intro _; rotate_right; subst _y)
      | skip)
    | with_reducible apply Advances.ite | (apply Advances.into; with_reducible apply State.noteCredentials_advances)
    | (apply Advances.intoOnly; with_reducible apply State.modSec_only)
    | ((with_reducible show (_ || _) = false); exact rfl))

theorem State.rekey_advances (s : State) :
    Advances s (State.rekey s) := by
  unfold State.rekey
  repeat' (first
    | with_reducible exact Advances.refl _ | with_reducible assumption | with_reducible apply Advances.ite
    | (apply Advances.into; with_reducible apply State.writeEntry_advances) | (apply Advances.intoOnly; first
      | with_reducible apply State.newKeys_only
      | with_reducible apply State.emptyStore_only)
    | ((with_reducible show (_ || _) = false); exact rfl))

theorem State.stepKeys_advances (r : StartRun) (s : State) :
    Advances s (State.stepKeys r s) := by
  unfold State.stepKeys
  repeat' (first
    | with_reducible exact Advances.refl _ | with_reducible assumption | (extract_lets +onlyGivenNames _x; first
      | (rename State => _y; refine Advances.bring _y ?_ ?_; rotate_left; clear_value _y; intro _; rotate_right; subst _y)
      | (rename _ × State => _y; refine Advances.bringSnd _y ?_ ?_; rotate_left; clear_value _y; intro _; rotate_right; subst _y)
      | skip)
    | with_reducible apply Advances.ite | (apply Advances.into; first
      | with_reducible apply State.rekey_advances
      | with_reducible apply State.noteAdjusted_advances
      | with_reducible apply State.applySecurity_advances)
    | (apply Advances.intoOnly; with_reducible apply State.useImage_only)
    | ((with_reducible show (_ || _) = false); exact rfl))

theorem State.takeBus_advances (r : StartRun) (s : State) :
    Advances s (State.takeBus r s) := by
  unfold State.takeBus
  repeat' (first
    | with_reducible exact Advances.refl _ | with_reducible assumption | (extract_lets +onlyGivenNames _x; first
      | (rename State => _y; refine Advances.bring _y ?_ ?_; rotate_left; clear_value _y; intro _; rotate_right; subst _y)
      | (rename _ × State => _y; refine Advances.bringSnd _y ?_ ?_; rotate_left; clear_value _y; intro _; rotate_right; subst _y)
      | skip)
    | with_reducible apply Advances.ite | (apply Advances.into; with_reducible apply State.waitUntil_advances)
    | (apply Advances.intoOnly; with_reducible apply State.modStart_only)
    | ((with_reducible show (_ || _) = false); exact rfl))

theorem State.startStep_advances (r : StartRun) (s : State) :
    Advances s (State.startStep r s) := by
  unfold State.startStep State.stepActivate
  repeat' (first
    | with_reducible exact Advances.refl _ | with_reducible assumption | (extract_lets +onlyGivenNames _x; first
      | (rename State => _y; refine Advances.bring _y ?_ ?_; rotate_left; clear_value _y; intro _; rotate_right; subst _y)
      | (rename _ × State => _y; refine Advances.bringSnd _y ?_ ?_; rotate_left; clear_value _y; intro _; rotate_right; subst _y)
      | skip)
    | with_reducible apply Advances.ite | (apply Advances.into; first
      | with_reducible apply State.stepCommit_advances
      | with_reducible apply State.loadFailed_advances
      | with_reducible apply State.stepReformat_advances
      | with_reducible apply State.serve_advances
      | with_reducible apply State.event_advances
      | with_reducible apply State.stepStraps_advances
      | with_reducible apply State.stepFuses_advances
      | with_reducible apply State.stepSelect_advances
      | (with_reducible apply State.stepSelect_advances_eq; assumption)
      | with_reducible apply State.escalate_advances
      | with_reducible apply State.scrubFailed_advances
      | with_reducible apply State.stepConfigure_advances
      | with_reducible apply State.takeBus_advances
      | with_reducible apply State.stepKeys_advances
      | with_reducible apply State.stepJournal_advances
      | with_reducible apply State.stepBridge_advances)
    | (apply Advances.intoOnly; first
      | with_reducible apply State.nextStep_only
      | with_reducible apply State.startWatch_only
      | with_reducible apply State.stepRebuild_only
      | with_reducible apply State.modFw_only
      | with_reducible apply State.stepRails_only
      | with_reducible apply State.stepPhys_only
      | with_reducible apply State.stepRegulators_only
      | with_reducible apply State.modStart_only
      | with_reducible apply State.stepServing_only)
    | ((with_reducible show (_ || _) = false); exact rfl) | split)

theorem State.runSteps_advances (x0 : Nat) (x1 : State) :
    Advances x1 (State.runSteps x0 x1) := by
  induction x0 generalizing x1 with
  | zero => exact Advances.refl _
  | succ n ih =>
    unfold State.runSteps
    split
    · exact Advances.refl _
    · extract_lets _w
      exact Advances.ite (Advances.refl _) ((State.startStep_advances _ _).trans (ih _))

theorem State.runStart_advances (s : State) :
    Advances s (State.runStart s) := by
  unfold State.runStart
  repeat' (first
    | with_reducible exact Advances.refl _ | (apply Advances.into; with_reducible apply State.runSteps_advances))

theorem State.rescueActivates_advances (env : StartEnv) (s : State) :
    Advances s (State.rescueActivates env s) := by
  unfold State.rescueActivates
  repeat' (first
    | with_reducible exact Advances.refl _ | with_reducible assumption | (extract_lets +onlyGivenNames _x; first
      | (rename State => _y; refine Advances.bring _y ?_ ?_; rotate_left; clear_value _y; intro _; rotate_right; subst _y)
      | (rename _ × State => _y; refine Advances.bringSnd _y ?_ ?_; rotate_left; clear_value _y; intro _; rotate_right; subst _y)
      | skip)
    | (apply Advances.into; first
      | with_reducible apply State.loseSessions_advances
      | with_reducible apply State.runStart_advances
      | with_reducible apply State.beginRun_advances)
    | (apply Advances.intoOnly; first
      | with_reducible apply State.modFw_only
      | with_reducible apply State.writeCommit_only
      | with_reducible apply State.modNet_only
      | with_reducible apply State.modStart_only
      | with_reducible apply State.haltWatch_only
      | with_reducible apply State.abortJobs_only
      | with_reducible apply State.setMode_only)
    | ((with_reducible show (_ || _) = false); exact rfl) | split)

theorem State.drainOne_advances (s : State) (x : Extent) :
    Advances s (State.drainOne s x) := by
  unfold State.drainOne
  repeat' (first
    | with_reducible exact Advances.refl _ | with_reducible assumption | (extract_lets +onlyGivenNames _x; first
      | (rename State => _y; refine Advances.bring _y ?_ ?_; rotate_left; clear_value _y; intro _; rotate_right; subst _y)
      | (rename _ × State => _y; refine Advances.bringSnd _y ?_ ?_; rotate_left; clear_value _y; intro _; rotate_right; subst _y)
      | skip)
    | with_reducible apply Advances.ite | (apply Advances.into; with_reducible apply State.writeEntry_advances)
    | (apply Advances.intoOnly; first
      | with_reducible apply State.programExtent_only
      | (with_reducible apply State.programExtent_only_eq; assumption)
      | with_reducible apply State.place_only)
    | ((with_reducible show (_ || _) = false); exact rfl) | split)

theorem State.drainNow_advances (s : State) :
    Advances s (State.drainNow s) := by
  unfold State.drainNow
  repeat' (first
    | with_reducible exact Advances.refl _ | with_reducible assumption | with_reducible apply Advances.ite
    | (apply Advances.into; with_reducible apply State.drainOne_advances) | (apply Advances.intoOnly; first
      | with_reducible apply State.endOps_only
      | with_reducible apply State.modStore_only)
    | ((with_reducible show (_ || _) = false); exact rfl) | (with_reducible apply Advances.foldl; (intro _ _)) | split)

theorem State.logEpisode_advances (s : State) :
    Advances s (State.logEpisode s) := by
  unfold State.logEpisode
  repeat' (first
    | with_reducible exact Advances.refl _ | with_reducible assumption
    | (apply Advances.into; with_reducible apply State.event_advances) | split)

theorem State.dropBrace_advances (s : State) :
    Advances s (State.dropBrace s) := by
  unfold State.dropBrace
  repeat' (first
    | with_reducible exact Advances.refl _ | with_reducible assumption
    | (apply Advances.into; with_reducible apply State.logEpisode_advances) | (apply Advances.intoOnly; first
      | with_reducible apply State.resumeCharge_only
      | with_reducible apply State.modPower_only)
    | ((with_reducible show (_ || _) = false); exact rfl) | split)

theorem State.quiesce_advances (s : State) :
    Advances s (State.quiesce s) := by
  unfold State.quiesce
  repeat' (first
    | with_reducible exact Advances.refl _ | with_reducible assumption | (extract_lets +onlyGivenNames _x; first
      | (rename State => _y; refine Advances.bring _y ?_ ?_; rotate_left; clear_value _y; intro _; rotate_right; subst _y)
      | (rename _ × State => _y; refine Advances.bringSnd _y ?_ ?_; rotate_left; clear_value _y; intro _; rotate_right; subst _y)
      | skip)
    | (apply Advances.into; first
      | with_reducible apply State.abandonGraft_advances
      | with_reducible apply State.abortTest_advances
      | with_reducible apply State.drainNow_advances
      | with_reducible apply State.dropBrace_advances)
    | (apply Advances.intoOnly; first
      | with_reducible apply State.abortJobs_only
      | with_reducible apply State.haltWatch_only
      | with_reducible apply State.modNet_only
      | with_reducible apply State.setMode_only
      | with_reducible apply State.modStart_only
      | with_reducible apply State.modPower_only
      | with_reducible apply State.keepCompletions_only
      | with_reducible apply State.settle_only)
    | ((with_reducible show (_ || _) = false); exact rfl))

theorem State.activate_advances (env : StartEnv) (s : State) :
    Advances s (State.activate env s) := by
  unfold State.activate
  repeat' (first
    | with_reducible exact Advances.refl _ | with_reducible assumption | with_reducible apply Advances.ite
    | (apply Advances.into; first
      | with_reducible apply State.rescueActivates_advances
      | with_reducible apply State.runStart_advances
      | with_reducible apply State.beginRun_advances
      | with_reducible apply State.writeEntry_advances
      | with_reducible apply State.quiesce_advances))

theorem State.afterActivate_advances (s : State) :
    Advances s (State.afterActivate s) := by
  unfold State.afterActivate
  repeat' (first
    | with_reducible exact Advances.refl _ | (apply Advances.into; with_reducible apply State.abortTest_advances)
    | (apply Advances.intoOnly; with_reducible apply State.modFw_only)
    | ((with_reducible show (_ || _) = false); exact rfl))

theorem State.stopRecord_advances (s : State) :
    Advances s (State.stopRecord s) := by
  unfold State.stopRecord
  repeat' (first
    | with_reducible exact Advances.refl _ | with_reducible assumption | with_reducible apply Advances.ite
    | (apply Advances.into; with_reducible apply State.writeEntry_advances))

theorem State.orderlyStop_advances (s : State) :
    Advances s (State.orderlyStop s) := by
  unfold State.orderlyStop
  repeat' (first
    | with_reducible exact Advances.refl _ | with_reducible assumption | (extract_lets +onlyGivenNames _x; first
      | (rename State => _y; refine Advances.bring _y ?_ ?_; rotate_left; clear_value _y; intro _; rotate_right; subst _y)
      | (rename _ × State => _y; refine Advances.bringSnd _y ?_ ?_; rotate_left; clear_value _y; intro _; rotate_right; subst _y)
      | skip)
    | with_reducible apply Advances.ite | (apply Advances.into; first
      | with_reducible apply State.quiesce_advances
      | with_reducible apply State.stopRecord_advances))

theorem State.coldClear_advances (env : StartEnv) (s : State) :
    Advances s (State.coldClear env s) := by
  unfold State.coldClear
  repeat' (first
    | with_reducible exact Advances.refl _ | with_reducible assumption | with_reducible apply Advances.ite
    | (apply Advances.into; first
      | with_reducible apply State.coldFields_advances
      | with_reducible apply State.deferEvent_advances)
    | (apply Advances.intoOnly; first
      | with_reducible apply State.random_only
      | (with_reducible apply State.random_only_eq; assumption)
      | with_reducible apply State.settle_only
      | with_reducible apply State.noteJunction_only)
    | ((with_reducible show (_ || _) = false); exact rfl) | split)

theorem State.beginCold_advances (source : StartSource) (env : StartEnv) (s : State) :
    Advances s (State.beginCold source env s) := by
  unfold State.beginCold
  repeat' (first
    | with_reducible exact Advances.refl _ | (apply Advances.into; first
      | with_reducible apply State.beginRun_advances
      | with_reducible apply State.coldClear_advances))

theorem State.restartCold_advances (s : State) :
    Advances s (State.restartCold s) := by
  unfold State.restartCold
  repeat' (first
    | with_reducible exact Advances.refl _ | with_reducible assumption | (extract_lets +onlyGivenNames _x; first
      | (rename State => _y; refine Advances.bring _y ?_ ?_; rotate_left; clear_value _y; intro _; rotate_right; subst _y)
      | (rename _ × State => _y; refine Advances.bringSnd _y ?_ ?_; rotate_left; clear_value _y; intro _; rotate_right; subst _y)
      | skip)
    | (apply Advances.into; first
      | with_reducible apply State.orderlyStop_advances
      | with_reducible apply State.runStart_advances
      | with_reducible apply State.beginCold_advances
      | with_reducible apply State.waitUntil_advances))

end Sys2Proof.Machine
end

