-- ==== Sys2Proof/Laws/Advances2.lean ====
section
/-!
SUPPORT. Every operation that touches the clock, START_COUNT or the logs advances, one lemma for each, callees before callers;
part 2 of 4.
-/
set_option linter.tactic.unusedName false
set_option linter.unusedSimpArgs false
namespace Sys2Proof.Machine

theorem State.beginWarm_advances (source : StartSource) (env : StartEnv) (s : State) :
    Advances s (State.beginWarm source env s) := by
  unfold State.beginWarm
  repeat' (first
    | with_reducible exact Advances.refl _ | (apply Advances.into; first
      | with_reducible apply State.beginRun_advances
      | with_reducible apply State.orderlyStop_advances))

theorem State.afterPlain_advances (was : List (Option (Bytes × Nat))) (op : AdminOp) (s : State) :
    Advances s (State.afterPlain was op s) := by
  unfold State.afterPlain
  repeat' (first
    | with_reducible exact Advances.refl _ | with_reducible assumption | with_reducible apply Advances.ite
    | (apply Advances.into; first
      | with_reducible apply State.runStart_advances
      | with_reducible apply State.beginWarm_advances
      | with_reducible apply State.restartCold_advances
      | with_reducible apply State.dropSession_advances
      | with_reducible apply State.dropSessions_advances)
    | split)

theorem State.afterOp_advances (was : List (Option (Bytes × Nat))) (op : AdminOp) (s : State) :
    Advances s (State.afterOp was op s) := by
  unfold State.afterOp
  repeat' (first
    | with_reducible exact Advances.refl _ | with_reducible assumption | with_reducible apply Advances.ite
    | (apply Advances.into; first
      | with_reducible apply State.afterActivate_advances
      | with_reducible apply State.afterPlain_advances))

theorem State.aged_advances (mac : Mac) (s : State) :
    Advances s (State.aged mac s) := by
  unfold State.aged
  repeat' (first
    | with_reducible exact Advances.refl _ | with_reducible assumption
    | (apply Advances.into; with_reducible apply State.waitUntil_advances)
    | (apply Advances.intoOnly; with_reducible apply State.modNet_only)
    | ((with_reducible show (_ || _) = false); exact rfl) | split)

theorem State.awaken_advances (source : Nat) (s : State) :
    Advances s (State.awaken source s) := by
  unfold State.awaken
  repeat' (first
    | with_reducible exact Advances.refl _ | with_reducible assumption | (extract_lets +onlyGivenNames _x; first
      | (rename State => _y; refine Advances.bring _y ?_ ?_; rotate_left; clear_value _y; intro _; rotate_right; subst _y)
      | (rename _ × State => _y; refine Advances.bringSnd _y ?_ ?_; rotate_left; clear_value _y; intro _; rotate_right; subst _y)
      | skip)
    | with_reducible apply Advances.ite | (apply Advances.into; with_reducible apply State.event_advances)
    | (apply Advances.intoOnly; first
      | with_reducible apply State.modPower_only
      | with_reducible apply State.setMode_only
      | with_reducible apply State.modStart_only
      | with_reducible apply State.recordStart_only
      | with_reducible apply State.startWatch_only
      | with_reducible apply State.openService_only)
    | ((with_reducible show (_ || _) = false); exact rfl))

theorem State.alarmAsleep_advances (s : State) :
    Advances s (State.alarmAsleep s) := by
  unfold State.alarmAsleep
  repeat' (first
    | with_reducible exact Advances.refl _ | with_reducible assumption | (extract_lets +onlyGivenNames _x; first
      | (rename State => _y; refine Advances.bring _y ?_ ?_; rotate_left; clear_value _y; intro _; rotate_right; subst _y)
      | (rename _ × State => _y; refine Advances.bringSnd _y ?_ ?_; rotate_left; clear_value _y; intro _; rotate_right; subst _y)
      | skip)
    | with_reducible apply Advances.ite | (apply Advances.into; first
      | with_reducible apply State.event_advances
      | with_reducible apply State.awaken_advances
      | with_reducible apply State.sealErased_advances
      | with_reducible apply State.lock_advances))

theorem State.aliveTimeout_advances (sid : Nat) (s : State) :
    Advances s (State.aliveTimeout sid s) := by
  unfold State.aliveTimeout
  repeat' (first
    | with_reducible exact Advances.refl _ | with_reducible assumption | with_reducible apply Advances.ite
    | (apply Advances.into; first
      | with_reducible apply State.dropSession_advances
      | with_reducible apply State.waitUntil_advances)
    | split)

theorem State.announceSend_advances (s : State) :
    Advances s (State.announceSend s) := by
  unfold State.announceSend
  repeat' (first
    | with_reducible exact Advances.refl _ | with_reducible assumption | (extract_lets +onlyGivenNames _x; first
      | (rename State => _y; refine Advances.bring _y ?_ ?_; rotate_left; clear_value _y; intro _; rotate_right; subst _y)
      | (rename _ × State => _y; refine Advances.bringSnd _y ?_ ?_; rotate_left; clear_value _y; intro _; rotate_right; subst _y)
      | skip)
    | with_reducible apply Advances.ite | (apply Advances.into; with_reducible apply State.waitUntil_advances)
    | (apply Advances.intoOnly; first
      | with_reducible apply State.sendGptp_only
      | with_reducible apply State.modTime_only)
    | ((with_reducible show (_ || _) = false); exact rfl))

theorem State.announceTimeout_advances (q : Port) (s : State) :
    Advances s (State.announceTimeout q s) := by
  unfold State.announceTimeout
  repeat' (first
    | with_reducible exact Advances.refl _ | with_reducible assumption | with_reducible apply Advances.ite
    | (apply Advances.into; first
      | with_reducible apply State.selectMaster_advances
      | with_reducible apply State.waitUntil_advances)
    | (apply Advances.intoOnly; with_reducible apply State.modGptp_only)
    | ((with_reducible show (_ || _) = false); exact rfl))

theorem State.conflict_advances (q : Port) (version : Nat) (s : State) :
    Advances s (State.conflict q version s) := by
  unfold State.conflict
  repeat' (first
    | with_reducible exact Advances.refl _ | with_reducible assumption | with_reducible apply Advances.ite
    | (apply Advances.into; with_reducible apply State.event_advances)
    | (apply Advances.intoOnly; with_reducible apply State.modNet_only)
    | ((with_reducible show (_ || _) = false); exact rfl))

theorem State.arpReceived_advances (s : State) :
    Advances s (State.arpReceived s) := by
  unfold State.arpReceived
  repeat' (first
    | with_reducible exact Advances.refl _ | with_reducible assumption | (extract_lets +onlyGivenNames _x; first
      | (rename State => _y; refine Advances.bring _y ?_ ?_; rotate_left; clear_value _y; intro _; rotate_right; subst _y)
      | (rename _ × State => _y; refine Advances.bringSnd _y ?_ ?_; rotate_left; clear_value _y; intro _; rotate_right; subst _y)
      | skip)
    | with_reducible apply Advances.ite | (apply Advances.into; with_reducible apply State.conflict_advances)
    | (apply Advances.intoOnly; first
      | with_reducible apply State.takeFrame_only
      | (with_reducible apply State.takeFrame_only_eq; assumption)
      | with_reducible apply State.modPort_only
      | with_reducible apply State.sendRaw_only)
    | ((with_reducible show (_ || _) = false); exact rfl) | split)

theorem State.failBare_advances (a : Ask) (status : Nat) (reason : Nat) (s : State) :
    Advances s (State.failBare a status reason s) := by
  unfold State.failBare
  repeat' (first
    | with_reducible exact Advances.refl _ | with_reducible assumption | with_reducible apply Advances.ite
    | (apply Advances.into; with_reducible apply State.finish_advances)
    | (apply Advances.intoOnly; with_reducible apply State.say_only)
    | ((with_reducible show (_ || _) = false); exact rfl))

theorem State.resumePin_advances (a : Ask) (k : Bytes) (v : Version) (s : State) :
    Advances s (State.resumePin a k v s) := by
  unfold State.resumePin
  repeat' (first
    | with_reducible exact Advances.refl _ | with_reducible assumption | (extract_lets +onlyGivenNames _x; first
      | (rename State => _y; refine Advances.bring _y ?_ ?_; rotate_left; clear_value _y; intro _; rotate_right; subst _y)
      | (rename _ × State => _y; refine Advances.bringSnd _y ?_ ?_; rotate_left; clear_value _y; intro _; rotate_right; subst _y)
      | skip)
    | with_reducible apply Advances.ite | (apply Advances.into; with_reducible apply State.finish_advances)
    | (apply Advances.intoOnly; first
      | with_reducible apply State.modStore_only
      | with_reducible apply State.requestRead_only
      | with_reducible apply State.modFlight_only)
    | ((with_reducible show (_ || _) = false); exact rfl))

theorem State.resumeRead_advances (a : Ask) (k : Bytes) (v : Version) (off : Nat) (len : Nat) (pinned : Bool) (s : State) :
    Advances s (State.resumeRead a k v off len pinned s) := by
  unfold State.resumeRead
  repeat' (first
    | with_reducible exact Advances.refl _ | with_reducible assumption | with_reducible apply Advances.ite
    | (apply Advances.into; with_reducible apply State.finish_advances) | (apply Advances.intoOnly; first
      | with_reducible apply State.requestRead_only
      | with_reducible apply State.modFlight_only)
    | ((with_reducible show (_ || _) = false); exact rfl))

theorem State.wake_advances (t : Nat) (k : Bytes) (v : Version) (s : State) :
    Advances s (State.wake t k v s) := by
  unfold State.wake
  repeat' (first
    | with_reducible exact Advances.refl _ | with_reducible assumption | with_reducible apply Advances.ite
    | (apply Advances.into; first
      | with_reducible apply State.resumeRead_advances
      | with_reducible apply State.resumePin_advances)
    | (with_reducible apply Advances.foldl; (intro _ _)) | split)

theorem State.cutWrite_advances (e : Sess) (a : Assembly) (status : Nat) (reason : Nat) (retry : Nat) (location : Nat) (s : State) :
    Advances s (State.cutWrite e a status reason retry location s) := by
  unfold State.cutWrite
  repeat' (first
    | with_reducible exact Advances.refl _ | with_reducible assumption | (extract_lets +onlyGivenNames _x; first
      | (rename State => _y; refine Advances.bring _y ?_ ?_; rotate_left; clear_value _y; intro _; rotate_right; subst _y)
      | (rename _ × State => _y; refine Advances.bringSnd _y ?_ ?_; rotate_left; clear_value _y; intro _; rotate_right; subst _y)
      | skip)
    | (apply Advances.into; first
      | with_reducible apply State.wake_advances
      | with_reducible apply State.finish_advances)
    | (apply Advances.intoOnly; first
      | with_reducible apply State.endMessage_only
      | with_reducible apply State.putOpen_only)
    | ((with_reducible show (_ || _) = false); exact rfl) | split)

theorem State.endIncomplete_advances (e : Sess) (a : Assembly) (s : State) :
    Advances s (State.endIncomplete e a s) := by
  unfold State.endIncomplete
  repeat' (first
    | with_reducible exact Advances.refl _ | with_reducible assumption | with_reducible apply Advances.ite
    | (apply Advances.into; first
      | with_reducible apply State.cutWrite_advances
      | with_reducible apply State.failBare_advances)
    | (apply Advances.intoOnly; with_reducible apply State.endMessage_only)
    | ((with_reducible show (_ || _) = false); exact rfl))

theorem State.assemblyTimeout_advances (sid : Nat) (kind : Nat) (msgId : Nat) (s : State) :
    Advances s (State.assemblyTimeout sid kind msgId s) := by
  unfold State.assemblyTimeout
  repeat' (first
    | with_reducible exact Advances.refl _ | with_reducible assumption | with_reducible apply Advances.ite
    | (apply Advances.into; first
      | with_reducible apply State.endIncomplete_advances
      | with_reducible apply State.waitUntil_advances)
    | split)

theorem State.endOverdue_advances (e : Sess) (f : Flight) (s : State) :
    Advances s (State.endOverdue e f s) := by
  unfold State.endOverdue
  repeat' (first
    | with_reducible exact Advances.refl _ | with_reducible assumption | (apply Advances.into; first
      | with_reducible apply State.cutWrite_advances
      | with_reducible apply State.stopFlight_advances)
    | split)

theorem State.backstop_advances (sid : Nat) (msgId : Nat) (s : State) :
    Advances s (State.backstop sid msgId s) := by
  unfold State.backstop
  repeat' (first
    | with_reducible exact Advances.refl _ | with_reducible assumption | (extract_lets +onlyGivenNames _x; first
      | (rename State => _y; refine Advances.bring _y ?_ ?_; rotate_left; clear_value _y; intro _; rotate_right; subst _y)
      | (rename _ × State => _y; refine Advances.bringSnd _y ?_ ?_; rotate_left; clear_value _y; intro _; rotate_right; subst _y)
      | skip)
    | with_reducible apply Advances.ite | (apply Advances.into; first
      | with_reducible apply State.waitUntil_advances
      | with_reducible apply State.eventFor_advances
      | with_reducible apply State.settleCloses_advances
      | with_reducible apply State.endOverdue_advances)
    | (apply Advances.intoOnly; with_reducible apply State.dropOps_only)
    | ((with_reducible show (_ || _) = false); exact rfl) | split)

theorem State.beginEscalated_advances (env : StartEnv) (s : State) :
    Advances s (State.beginEscalated env s) := by
  unfold State.beginEscalated
  repeat' (first
    | with_reducible exact Advances.refl _ | (apply Advances.into; first
      | with_reducible apply State.beginRun_advances
      | with_reducible apply State.escalate_advances))

theorem State.duskRuns_advances (s : State) :
    Advances s (State.duskRuns s) := by
  unfold State.duskRuns
  repeat' (first
    | with_reducible exact Advances.refl _ | with_reducible assumption | (extract_lets +onlyGivenNames _x; first
      | (rename State => _y; refine Advances.bring _y ?_ ?_; rotate_left; clear_value _y; intro _; rotate_right; subst _y)
      | (rename _ × State => _y; refine Advances.bringSnd _y ?_ ?_; rotate_left; clear_value _y; intro _; rotate_right; subst _y)
      | skip)
    | with_reducible apply Advances.ite | (apply Advances.into; with_reducible apply State.deferEvent_advances)
    | (apply Advances.intoOnly; first
      | with_reducible apply State.modFw_only
      | with_reducible apply State.modStart_only)
    | ((with_reducible show (_ || _) = false); exact rfl))

theorem State.finishDusk_advances (s : State) :
    Advances s (State.finishDusk s) := by
  unfold State.finishDusk
  repeat' (first
    | with_reducible exact Advances.refl _ | with_reducible assumption | (extract_lets +onlyGivenNames _x; first
      | (rename State => _y; refine Advances.bring _y ?_ ?_; rotate_left; clear_value _y; intro _; rotate_right; subst _y)
      | (rename _ × State => _y; refine Advances.bringSnd _y ?_ ?_; rotate_left; clear_value _y; intro _; rotate_right; subst _y)
      | skip)
    | with_reducible apply Advances.ite | (apply Advances.into; first
      | with_reducible apply State.drainNow_advances
      | with_reducible apply State.writeEntry_advances)
    | (apply Advances.intoOnly; first
      | with_reducible apply State.fillRow_only
      | with_reducible apply State.modJournal_only
      | with_reducible apply State.modPower_only
      | with_reducible apply State.modMedia_only)
    | ((with_reducible show (_ || _) = false); exact rfl) | (with_reducible apply Advances.foldl; (intro _ _)) | split)

theorem State.duskSessions_advances (s : State) :
    Advances s (State.duskSessions s) := by
  unfold State.duskSessions
  repeat' (first
    | with_reducible exact Advances.refl _ | with_reducible assumption | (extract_lets +onlyGivenNames _x; first
      | (rename State => _y; refine Advances.bring _y ?_ ?_; rotate_left; clear_value _y; intro _; rotate_right; subst _y)
      | (rename _ × State => _y; refine Advances.bringSnd _y ?_ ?_; rotate_left; clear_value _y; intro _; rotate_right; subst _y)
      | skip)
    | (apply Advances.into; with_reducible apply State.removeSess_advances) | (apply Advances.intoOnly; first
      | with_reducible apply State.keepCompletions_only
      | with_reducible apply State.modSes_only
      | with_reducible apply State.modNet_only
      | with_reducible apply State.modStore_only)
    | ((with_reducible show (_ || _) = false); exact rfl) | (with_reducible apply Advances.foldl; (intro _ _)))

theorem State.commitDusk_advances (cause : DuskCause) (paid : Bool) (vin : Nat) (s : State) :
    Advances s (State.commitDusk cause paid vin s) := by
  unfold State.commitDusk
  repeat' (first
    | with_reducible exact Advances.refl _ | with_reducible assumption | (extract_lets +onlyGivenNames _x; first
      | (rename State => _y; refine Advances.bring _y ?_ ?_; rotate_left; clear_value _y; intro _; rotate_right; subst _y)
      | (rename _ × State => _y; refine Advances.bringSnd _y ?_ ?_; rotate_left; clear_value _y; intro _; rotate_right; subst _y)
      | skip)
    | with_reducible apply Advances.ite | (apply Advances.into; first
      | with_reducible apply State.logEpisode_advances
      | with_reducible apply State.abortTest_advances
      | with_reducible apply State.duskSessions_advances
      | with_reducible apply State.duskRuns_advances
      | with_reducible apply State.finishDusk_advances)
    | (apply Advances.intoOnly; first
      | with_reducible apply State.modPower_only
      | with_reducible apply State.haltWatch_only
      | with_reducible apply State.abortJobs_only
      | with_reducible apply State.duskHardware_only
      | with_reducible apply State.modMedia_only
      | with_reducible apply State.dropOps_only
      | with_reducible apply State.setMode_only
      | with_reducible apply State.settle_only)
    | ((with_reducible show (_ || _) = false); exact rfl) | split)

theorem State.supplyDusk_advances (cause : DuskCause) (paid : Bool) (vin : Nat) (s : State) :
    Advances s (State.supplyDusk cause paid vin s) := by
  unfold State.supplyDusk
  repeat' (first
    | with_reducible exact Advances.refl _ | with_reducible assumption | with_reducible apply Advances.ite
    | (apply Advances.into; with_reducible apply State.commitDusk_advances)
    | (apply Advances.intoOnly; with_reducible apply State.noteVin_only)
    | ((with_reducible show (_ || _) = false); exact rfl))

theorem State.belowCut_advances (vin : Nat) (paid : Bool) (s : State) :
    Advances s (State.belowCut vin paid s) := by
  unfold State.belowCut
  repeat' (first
    | with_reducible exact Advances.refl _ | with_reducible assumption | with_reducible apply Advances.ite
    | (apply Advances.into; with_reducible apply State.supplyDusk_advances))

theorem State.bgIdle_advances (s : State) :
    Advances s (State.bgIdle s) := by
  unfold State.bgIdle
  repeat' (first
    | with_reducible exact Advances.refl _ | with_reducible assumption | (extract_lets +onlyGivenNames _x; first
      | (rename State => _y; refine Advances.bring _y ?_ ?_; rotate_left; clear_value _y; intro _; rotate_right; subst _y)
      | (rename _ × State => _y; refine Advances.bringSnd _y ?_ ?_; rotate_left; clear_value _y; intro _; rotate_right; subst _y)
      | skip)
    | with_reducible apply Advances.ite | (apply Advances.into; with_reducible apply State.waitUntil_advances)
    | (apply Advances.intoOnly; first
      | with_reducible apply State.collectNext_only
      | with_reducible apply State.modMedia_only)
    | ((with_reducible show (_ || _) = false); exact rfl))

theorem State.blink_advances (fault : Bool) (s : State) :
    Advances s (State.blink fault s) := by
  unfold State.blink
  repeat' (first
    | with_reducible exact Advances.refl _ | with_reducible assumption | (extract_lets +onlyGivenNames _x; first
      | (rename State => _y; refine Advances.bring _y ?_ ?_; rotate_left; clear_value _y; intro _; rotate_right; subst _y)
      | (rename _ × State => _y; refine Advances.bringSnd _y ?_ ?_; rotate_left; clear_value _y; intro _; rotate_right; subst _y)
      | skip)
    | with_reducible apply Advances.ite | (apply Advances.into; with_reducible apply State.waitUntil_advances)
    | (apply Advances.intoOnly; with_reducible apply State.modStart_only)
    | ((with_reducible show (_ || _) = false); exact rfl) | split)

theorem State.leaveBrace_advances (s : State) :
    Advances s (State.leaveBrace s) := by
  unfold State.leaveBrace
  repeat' (first
    | with_reducible exact Advances.refl _ | with_reducible assumption | (extract_lets +onlyGivenNames _x; first
      | (rename State => _y; refine Advances.bring _y ?_ ?_; rotate_left; clear_value _y; intro _; rotate_right; subst _y)
      | (rename _ × State => _y; refine Advances.bringSnd _y ?_ ?_; rotate_left; clear_value _y; intro _; rotate_right; subst _y)
      | skip)
    | (apply Advances.into; first
      | with_reducible apply State.logEpisode_advances
      | with_reducible apply State.takeFallback_advances)
    | (apply Advances.intoOnly; first
      | with_reducible apply State.kickAll_only
      | with_reducible apply State.leaveReady_only
      | with_reducible apply State.resumeCharge_only
      | with_reducible apply State.modPower_only
      | with_reducible apply State.setMode_only)
    | ((with_reducible show (_ || _) = false); exact rfl) | split)

theorem State.braceExit_advances (vin : Nat) (s : State) :
    Advances s (State.braceExit vin s) := by
  unfold State.braceExit
  repeat' (first
    | with_reducible exact Advances.refl _ | with_reducible assumption | (extract_lets +onlyGivenNames _x; first
      | (rename State => _y; refine Advances.bring _y ?_ ?_; rotate_left; clear_value _y; intro _; rotate_right; subst _y)
      | (rename _ × State => _y; refine Advances.bringSnd _y ?_ ?_; rotate_left; clear_value _y; intro _; rotate_right; subst _y)
      | skip)
    | with_reducible apply Advances.ite | (apply Advances.into; first
      | with_reducible apply State.leaveBrace_advances
      | with_reducible apply State.waitUntil_advances)
    | (apply Advances.intoOnly; first
      | with_reducible apply State.noteVin_only
      | with_reducible apply State.modPower_only)
    | ((with_reducible show (_ || _) = false); exact rfl) | split)

theorem State.sayFrameFault_advances (e : Sess) (h : Header) (rx : Rx) (status : Nat) (reason : Nat) (s : State) :
    Advances s (State.sayFrameFault e h rx status reason s) := by
  unfold State.sayFrameFault
  repeat' (first
    | with_reducible exact Advances.refl _ | with_reducible assumption | (extract_lets +onlyGivenNames _x; first
      | (rename State => _y; refine Advances.bring _y ?_ ?_; rotate_left; clear_value _y; intro _; rotate_right; subst _y)
      | (rename _ × State => _y; refine Advances.bringSnd _y ?_ ?_; rotate_left; clear_value _y; intro _; rotate_right; subst _y)
      | skip)
    | with_reducible apply Advances.ite | (apply Advances.into; with_reducible apply State.failBare_advances))

theorem State.judgeRequest_advances (e : Sess) (a : Assembly) (s : State) :
    Advances s (State.judgeRequest e a s).2 := by
  unfold State.judgeRequest
  repeat' (first
    | with_reducible exact Advances.refl _ | with_reducible assumption | (extract_lets +onlyGivenNames _x; first
      | (rename State => _y; refine Advances.bring _y ?_ ?_; rotate_left; clear_value _y; intro _; rotate_right; subst _y)
      | (rename _ × State => _y; refine Advances.bringSnd _y ?_ ?_; rotate_left; clear_value _y; intro _; rotate_right; subst _y)
      | skip)
    | with_reducible apply Advances.ite | (apply Advances.into; first
      | with_reducible apply State.failBare_advances
      | with_reducible apply State.fail_advances)
    | (apply Advances.intoOnly; first
      | with_reducible apply State.count_only
      | with_reducible apply State.fly_only)
    | ((with_reducible show (_ || _) = false); exact rfl) | split)

theorem State.judgeRequest_advances_eq {e : Sess} {a : Assembly} {s : State} {p : _} {t : State} (h : State.judgeRequest e a s = (p, t)) :
    Advances s t := by
  have k := State.judgeRequest_advances e a s
  rw [h] at k
  exact k

theorem State.refuseUnlisted_advances (e : Sess) (a : Assembly) (s : State) :
    Advances s (State.refuseUnlisted e a s) := by
  unfold State.refuseUnlisted
  repeat' (first
    | with_reducible exact Advances.refl _ | with_reducible assumption | with_reducible apply Advances.ite
    | (apply Advances.into; first
      | with_reducible apply State.judgeRequest_advances
      | (with_reducible apply State.judgeRequest_advances_eq; assumption)
      | with_reducible apply State.fail_advances)
    | split)

theorem State.putFrame_advances (sid : Nat) (h : Header) (rx : Rx) (occ : Nat) (body : Bytes) (s : State) :
    Advances s (State.putFrame sid h rx occ body s) := by
  unfold State.putFrame
  repeat' (first
    | with_reducible exact Advances.refl _ | with_reducible assumption | (extract_lets +onlyGivenNames _x; first
      | (rename State => _y; refine Advances.bring _y ?_ ?_; rotate_left; clear_value _y; intro _; rotate_right; subst _y)
      | (rename _ × State => _y; refine Advances.bringSnd _y ?_ ?_; rotate_left; clear_value _y; intro _; rotate_right; subst _y)
      | skip)
    | with_reducible apply Advances.ite | (apply Advances.into; first
      | with_reducible apply State.endIncomplete_advances
      | with_reducible apply State.fail_advances
      | with_reducible apply State.refuseUnlisted_advances)
    | (apply Advances.intoOnly; first
      | with_reducible apply State.release_only
      | with_reducible apply State.modSess_only
      | with_reducible apply State.endMessage_only
      | with_reducible apply State.takeMessage_only)
    | ((with_reducible show (_ || _) = false); exact rfl) | split)

theorem State.newMessage_advances (e : Sess) (h : Header) (rx : Rx) (occ : Nat) (body : Bytes) (s : State) :
    Advances s (State.newMessage e h rx occ body s) := by
  unfold State.newMessage
  repeat' (first
    | with_reducible exact Advances.refl _ | with_reducible assumption | (extract_lets +onlyGivenNames _x; first
      | (rename State => _y; refine Advances.bring _y ?_ ?_; rotate_left; clear_value _y; intro _; rotate_right; subst _y)
      | (rename _ × State => _y; refine Advances.bringSnd _y ?_ ?_; rotate_left; clear_value _y; intro _; rotate_right; subst _y)
      | skip)
    | (apply Advances.into; with_reducible apply State.putFrame_advances) | (apply Advances.intoOnly; first
      | with_reducible apply State.judgeAlive_only
      | (with_reducible apply State.judgeAlive_only_eq; assumption)
      | with_reducible apply State.modSess_only)
    | ((with_reducible show (_ || _) = false); exact rfl) | split)

theorem State.joinDatagram_advances (e : Sess) (h : Header) (rx : Rx) (occ : Nat) (body : Bytes) (s : State) :
    Advances s (State.joinDatagram e h rx occ body s) := by
  unfold State.joinDatagram
  repeat' (first
    | with_reducible exact Advances.refl _ | with_reducible assumption | (extract_lets +onlyGivenNames _x; first
      | (rename State => _y; refine Advances.bring _y ?_ ?_; rotate_left; clear_value _y; intro _; rotate_right; subst _y)
      | (rename _ × State => _y; refine Advances.bringSnd _y ?_ ?_; rotate_left; clear_value _y; intro _; rotate_right; subst _y)
      | skip)
    | with_reducible apply Advances.ite | (apply Advances.into; first
      | with_reducible apply State.putFrame_advances
      | with_reducible apply State.endIncomplete_advances
      | with_reducible apply State.newMessage_advances)
    | (apply Advances.intoOnly; first
      | with_reducible apply State.count_only
      | with_reducible apply State.release_only
      | with_reducible apply State.resend_only)
    | ((with_reducible show (_ || _) = false); exact rfl) | split)

theorem State.endOthers_advances (e : Sess) (kind : Nat) (msgId : Nat) (s : State) :
    Advances s (State.endOthers e kind msgId s) := by
  unfold State.endOthers
  repeat' (first
    | with_reducible exact Advances.refl _ | with_reducible assumption | with_reducible apply Advances.ite
    | (apply Advances.into; with_reducible apply State.endIncomplete_advances)
    | (with_reducible apply Advances.foldl; (intro _ _)))

theorem State.joinOrdered_advances (e : Sess) (h : Header) (rx : Rx) (occ : Nat) (body : Bytes) (s : State) :
    Advances s (State.joinOrdered e h rx occ body s) := by
  unfold State.joinOrdered
  repeat' (first
    | with_reducible exact Advances.refl _ | with_reducible assumption | (extract_lets +onlyGivenNames _x; first
      | (rename State => _y; refine Advances.bring _y ?_ ?_; rotate_left; clear_value _y; intro _; rotate_right; subst _y)
      | (rename _ × State => _y; refine Advances.bringSnd _y ?_ ?_; rotate_left; clear_value _y; intro _; rotate_right; subst _y)
      | skip)
    | with_reducible apply Advances.ite | (apply Advances.into; first
      | with_reducible apply State.endOthers_advances
      | with_reducible apply State.putFrame_advances
      | with_reducible apply State.newMessage_advances)
    | (apply Advances.intoOnly; with_reducible apply State.release_only)
    | ((with_reducible show (_ || _) = false); exact rfl))

theorem State.frameFault_advances (e : Sess) (h : Header) (rx : Rx) (status : Nat) (reason : Nat) (s : State) :
    Advances s (State.frameFault e h rx status reason s) := by
  unfold State.frameFault
  repeat' (first
    | with_reducible exact Advances.refl _ | with_reducible assumption | with_reducible apply Advances.ite
    | (apply Advances.into; first
      | with_reducible apply State.cutWrite_advances
      | with_reducible apply State.sayFrameFault_advances)
    | (apply Advances.intoOnly; first
      | with_reducible apply State.endMessage_only
      | with_reducible apply State.noteEnded_only)
    | ((with_reducible show (_ || _) = false); exact rfl) | split)

theorem State.receiveOn_advances (e : Sess) (h : Header) (rx : Rx) (occ : Nat) (b : Bytes) (s : State) :
    Advances s (State.receiveOn e h rx occ b s) := by
  unfold State.receiveOn
  repeat' (first
    | with_reducible exact Advances.refl _ | with_reducible assumption | (extract_lets +onlyGivenNames _x; first
      | (rename State => _y; refine Advances.bring _y ?_ ?_; rotate_left; clear_value _y; intro _; rotate_right; subst _y)
      | (rename _ × State => _y; refine Advances.bringSnd _y ?_ ?_; rotate_left; clear_value _y; intro _; rotate_right; subst _y)
      | skip)
    | with_reducible apply Advances.ite | (apply Advances.into; first
      | with_reducible apply State.frameFault_advances
      | with_reducible apply State.dropSession_advances
      | with_reducible apply State.endOthers_advances
      | with_reducible apply State.joinDatagram_advances
      | with_reducible apply State.joinOrdered_advances)
    | (apply Advances.intoOnly; first
      | with_reducible apply State.count_only
      | with_reducible apply State.release_only
      | with_reducible apply State.handOn_only
      | with_reducible apply State.modSess_only)
    | ((with_reducible show (_ || _) = false); exact rfl) | split)

theorem State.receive_advances (ly2 : Bool) (own : Bool) (rx : Rx) (occ : Nat) (b : Bytes) (s : State) :
    Advances s (State.receive ly2 own rx occ b s) := by
  unfold State.receive
  repeat' (first
    | with_reducible exact Advances.refl _ | with_reducible assumption | (extract_lets +onlyGivenNames _x; first
      | (rename State => _y; refine Advances.bring _y ?_ ?_; rotate_left; clear_value _y; intro _; rotate_right; subst _y)
      | (rename _ × State => _y; refine Advances.bringSnd _y ?_ ?_; rotate_left; clear_value _y; intro _; rotate_right; subst _y)
      | skip)
    | with_reducible apply Advances.ite | (apply Advances.into; with_reducible apply State.receiveOn_advances)
    | (apply Advances.intoOnly; first
      | with_reducible apply State.count_only
      | with_reducible apply State.release_only
      | with_reducible apply State.handOn_only
      | with_reducible apply State.sayRefusal_only)
    | ((with_reducible show (_ || _) = false); exact rfl) | split)

theorem State.receiveIp4_advances (rx : Rx) (occ : Nat) (b : Bytes) (s : State) :
    Advances s (State.receiveIp4 rx occ b s) := by
  unfold State.receiveIp4
  repeat' (first
    | with_reducible exact Advances.refl _ | with_reducible assumption | (extract_lets +onlyGivenNames _x; first
      | (rename State => _y; refine Advances.bring _y ?_ ?_; rotate_left; clear_value _y; intro _; rotate_right; subst _y)
      | (rename _ × State => _y; refine Advances.bringSnd _y ?_ ?_; rotate_left; clear_value _y; intro _; rotate_right; subst _y)
      | skip)
    | with_reducible apply Advances.ite | (apply Advances.into; with_reducible apply State.receive_advances)
    | (apply Advances.intoOnly; first
      | with_reducible apply State.bump_only
      | with_reducible apply State.release_only
      | with_reducible apply State.handOn_only)
    | ((with_reducible show (_ || _) = false); exact rfl))

theorem State.receiveIp6_advances (rx : Rx) (occ : Nat) (b : Bytes) (s : State) :
    Advances s (State.receiveIp6 rx occ b s) := by
  unfold State.receiveIp6
  repeat' (first
    | with_reducible exact Advances.refl _ | with_reducible assumption | (extract_lets +onlyGivenNames _x; first
      | (rename State => _y; refine Advances.bring _y ?_ ?_; rotate_left; clear_value _y; intro _; rotate_right; subst _y)
      | (rename _ × State => _y; refine Advances.bringSnd _y ?_ ?_; rotate_left; clear_value _y; intro _; rotate_right; subst _y)
      | skip)
    | with_reducible apply Advances.ite | (apply Advances.into; with_reducible apply State.receive_advances)
    | (apply Advances.intoOnly; first
      | with_reducible apply State.bump_only
      | with_reducible apply State.release_only
      | with_reducible apply State.handOn_only)
    | ((with_reducible show (_ || _) = false); exact rfl))

theorem State.endpoint_advances (q : Port) (f : Frame) (stamp : Nat) (s : State) :
    Advances s (State.endpoint q f stamp s) := by
  unfold State.endpoint
  repeat' (first
    | with_reducible exact Advances.refl _ | with_reducible assumption | (extract_lets +onlyGivenNames _x; first
      | (rename State => _y; refine Advances.bring _y ?_ ?_; rotate_left; clear_value _y; intro _; rotate_right; subst _y)
      | (rename _ × State => _y; refine Advances.bringSnd _y ?_ ?_; rotate_left; clear_value _y; intro _; rotate_right; subst _y)
      | skip)
    | with_reducible apply Advances.ite | (apply Advances.into; first
      | with_reducible apply State.receive_advances
      | with_reducible apply State.receiveIp4_advances
      | with_reducible apply State.receiveIp6_advances)
    | (apply Advances.intoOnly; first
      | with_reducible apply State.pauseWhilePaused_only
      | with_reducible apply State.count_only
      | with_reducible apply State.activity_only
      | with_reducible apply State.storeFrame_only
      | with_reducible apply State.handOn_only)
    | ((with_reducible show (_ || _) = false); exact rfl))

theorem State.bridgeFrame_advances (q : Port) (f : Frame) (stamp : Nat) (bytes : Bytes) (s : State) :
    Advances s (State.bridgeFrame q f stamp bytes s) := by
  unfold State.bridgeFrame
  repeat' (first
    | with_reducible exact Advances.refl _ | with_reducible assumption | (extract_lets +onlyGivenNames _x; first
      | (rename State => _y; refine Advances.bring _y ?_ ?_; rotate_left; clear_value _y; intro _; rotate_right; subst _y)
      | (rename _ × State => _y; refine Advances.bringSnd _y ?_ ?_; rotate_left; clear_value _y; intro _; rotate_right; subst _y)
      | skip)
    | with_reducible apply Advances.ite | (apply Advances.into; with_reducible apply State.endpoint_advances)
    | (apply Advances.intoOnly; first
      | with_reducible apply State.learn_only
      | with_reducible apply State.forward_only
      | with_reducible apply State.count_only)
    | ((with_reducible show (_ || _) = false); exact rfl) | split)

theorem State.scaleAtLinkUp_advances (q : Port) (speed : Nat) (s : State) :
    Advances s (State.scaleAtLinkUp q speed s) := by
  unfold State.scaleAtLinkUp
  repeat' (first
    | with_reducible exact Advances.refl _ | with_reducible assumption | (extract_lets +onlyGivenNames _x; first
      | (rename State => _y; refine Advances.bring _y ?_ ?_; rotate_left; clear_value _y; intro _; rotate_right; subst _y)
      | (rename _ × State => _y; refine Advances.bringSnd _y ?_ ?_; rotate_left; clear_value _y; intro _; rotate_right; subst _y)
      | skip)
    | with_reducible apply Advances.ite | (apply Advances.into; with_reducible apply State.event_advances)
    | (apply Advances.intoOnly; with_reducible apply State.setSlopes_only)
    | ((with_reducible show (_ || _) = false); exact rfl))

theorem State.noteDeadline_advances (q : Port) (speed : Nat) (s : State) :
    Advances s (State.noteDeadline q speed s) := by
  unfold State.noteDeadline
  repeat' (first
    | with_reducible exact Advances.refl _ | with_reducible assumption | with_reducible apply Advances.ite
    | (apply Advances.into; with_reducible apply State.event_advances))

theorem State.bringUp_advances (q : Port) (speed : Nat) (resolved : Bool) (s : State) :
    Advances s (State.bringUp q speed resolved s) := by
  unfold State.bringUp
  repeat' (first
    | with_reducible exact Advances.refl _ | with_reducible assumption | (extract_lets +onlyGivenNames _x; first
      | (rename State => _y; refine Advances.bring _y ?_ ?_; rotate_left; clear_value _y; intro _; rotate_right; subst _y)
      | (rename _ × State => _y; refine Advances.bringSnd _y ?_ ?_; rotate_left; clear_value _y; intro _; rotate_right; subst _y)
      | skip)
    | with_reducible apply Advances.ite | (apply Advances.into; first
      | with_reducible apply State.linkDown_advances
      | with_reducible apply State.noteDeadline_advances
      | with_reducible apply State.scaleAtLinkUp_advances)
    | (apply Advances.intoOnly; first
      | with_reducible apply State.modPort_only
      | with_reducible apply State.modNet_only
      | with_reducible apply State.openLimit_only
      | with_reducible apply State.releaseKept_only
      | with_reducible apply State.unsolicited_only
      | with_reducible apply State.gratuitousArp_only
      | with_reducible apply State.sendDawn_only)
    | ((with_reducible show (_ || _) = false); exact rfl))

theorem State.cacheExpired_advances (sid : Nat) (msgId : Nat) (s : State) :
    Advances s (State.cacheExpired sid msgId s) := by
  unfold State.cacheExpired
  repeat' (first
    | with_reducible exact Advances.refl _ | with_reducible assumption
    | (apply Advances.into; with_reducible apply State.waitUntil_advances)
    | (apply Advances.intoOnly; with_reducible apply State.modSess_only)
    | ((with_reducible show (_ || _) = false); exact rfl) | split)

theorem State.cancel_advances (sid : Nat) (msgId : Nat) (s : State) :
    Advances s (State.cancel sid msgId s) := by
  unfold State.cancel
  repeat' (first
    | with_reducible exact Advances.refl _ | with_reducible assumption | (extract_lets +onlyGivenNames _x; first
      | (rename State => _y; refine Advances.bring _y ?_ ?_; rotate_left; clear_value _y; intro _; rotate_right; subst _y)
      | (rename _ × State => _y; refine Advances.bringSnd _y ?_ ?_; rotate_left; clear_value _y; intro _; rotate_right; subst _y)
      | skip)
    | with_reducible apply Advances.ite | (apply Advances.into; with_reducible apply State.cancelFlight_advances)
    | (apply Advances.intoOnly; first
      | with_reducible apply State.takeMessage_only
      | with_reducible apply State.noteAdmission_only
      | with_reducible apply State.answerCancel_only
      | with_reducible apply State.dropOps_only)
    | ((with_reducible show (_ || _) = false); exact rfl) | split)

theorem State.ch1Fails_advances (s : State) :
    Advances s (State.ch1Fails s) := by
  unfold State.ch1Fails
  repeat' (first
    | with_reducible exact Advances.refl _ | with_reducible assumption | (extract_lets +onlyGivenNames _x; first
      | (rename State => _y; refine Advances.bring _y ?_ ?_; rotate_left; clear_value _y; intro _; rotate_right; subst _y)
      | (rename _ × State => _y; refine Advances.bringSnd _y ?_ ?_; rotate_left; clear_value _y; intro _; rotate_right; subst _y)
      | skip)
    | with_reducible apply Advances.ite | (apply Advances.into; first
      | with_reducible apply State.unlatch_advances
      | with_reducible apply State.event_advances)
    | (apply Advances.intoOnly; first
      | with_reducible apply State.modPower_only
      | with_reducible apply State.modReg_only
      | with_reducible apply State.leaveReady_only)
    | ((with_reducible show (_ || _) = false); exact rfl))

theorem State.setClass_advances (c : BankClass) (a : Nat) (uf : Nat) (esr : Nat) (s : State) :
    Advances s (State.setClass c a uf esr s) := by
  unfold State.setClass
  repeat' (first
    | with_reducible exact Advances.refl _ | with_reducible assumption | (extract_lets +onlyGivenNames _x; first
      | (rename State => _y; refine Advances.bring _y ?_ ?_; rotate_left; clear_value _y; intro _; rotate_right; subst _y)
      | (rename _ × State => _y; refine Advances.bringSnd _y ?_ ?_; rotate_left; clear_value _y; intro _; rotate_right; subst _y)
      | skip)
    | with_reducible apply Advances.ite | (apply Advances.into; first
      | with_reducible apply State.unlatch_advances
      | with_reducible apply State.event_advances)
    | (apply Advances.intoOnly; with_reducible apply State.modPower_only)
    | ((with_reducible show (_ || _) = false); exact rfl) | split)

theorem State.chargeJudged_advances (bankMv : Nat) (s : State) :
    Advances s (State.chargeJudged bankMv s) := by
  unfold State.chargeJudged
  repeat' (first
    | with_reducible exact Advances.refl _ | with_reducible assumption | (extract_lets +onlyGivenNames _x; first
      | (rename State => _y; refine Advances.bring _y ?_ ?_; rotate_left; clear_value _y; intro _; rotate_right; subst _y)
      | (rename _ × State => _y; refine Advances.bringSnd _y ?_ ?_; rotate_left; clear_value _y; intro _; rotate_right; subst _y)
      | skip)
    | with_reducible apply Advances.ite | (apply Advances.into; first
      | with_reducible apply State.waitUntil_advances
      | with_reducible apply State.setClass_advances)
    | (apply Advances.intoOnly; first
      | with_reducible apply State.modPower_only
      | with_reducible apply State.leaveReady_only)
    | ((with_reducible show (_ || _) = false); exact rfl) | split)

theorem State.restartWarm_advances (source : StartSource) (env : StartEnv) (s : State) :
    Advances s (State.restartWarm source env s) := by
  unfold State.restartWarm
  repeat' (first
    | with_reducible exact Advances.refl _ | with_reducible assumption | (apply Advances.into; first
      | with_reducible apply State.beginRun_advances
      | with_reducible apply State.beginEscalated_advances
      | with_reducible apply State.stopRecord_advances
      | with_reducible apply State.beginWarm_advances)
    | (apply Advances.intoOnly; with_reducible apply State.modFw_only)
    | ((with_reducible show (_ || _) = false); exact rfl) | split)

theorem State.watchInWarm_advances (path : StartPath) (env : StartEnv) (s : State) :
    Advances s (State.watchInWarm path env s) := by
  unfold State.watchInWarm State.watchStarts
  repeat' (first
    | with_reducible exact Advances.refl _ | with_reducible assumption | (extract_lets +onlyGivenNames _x; first
      | (rename State => _y; refine Advances.bring _y ?_ ?_; rotate_left; clear_value _y; intro _; rotate_right; subst _y)
      | (rename _ × State => _y; refine Advances.bringSnd _y ?_ ?_; rotate_left; clear_value _y; intro _; rotate_right; subst _y)
      | skip)
    | with_reducible apply Advances.ite | (apply Advances.into; first
      | with_reducible apply State.beginEscalated_advances
      | with_reducible apply State.event_advances
      | with_reducible apply State.restartWarm_advances)
    | (apply Advances.intoOnly; first
      | with_reducible apply State.modWatch_only
      | with_reducible apply State.abortJobs_only)
    | ((with_reducible show (_ || _) = false); exact rfl) | split)

theorem State.watchExpires_advances (violator : Option Nat) (env : StartEnv) (s : State) :
    Advances s (State.watchExpires violator env s) := by
  unfold State.watchExpires State.watchStarts
  repeat' (first
    | with_reducible exact Advances.refl _ | with_reducible assumption | (extract_lets +onlyGivenNames _x; first
      | (rename State => _y; refine Advances.bring _y ?_ ?_; rotate_left; clear_value _y; intro _; rotate_right; subst _y)
      | (rename _ × State => _y; refine Advances.bringSnd _y ?_ ?_; rotate_left; clear_value _y; intro _; rotate_right; subst _y)
      | skip)
    | with_reducible apply Advances.ite | (apply Advances.into; first
      | with_reducible apply State.event_advances
      | with_reducible apply State.runStart_advances
      | with_reducible apply State.beginRun_advances
      | with_reducible apply State.watchInWarm_advances
      | with_reducible apply State.beginEscalated_advances
      | with_reducible apply State.orderlyStop_advances
      | with_reducible apply State.beginWarm_advances)
    | (apply Advances.intoOnly; first
      | with_reducible apply State.modWatch_only
      | with_reducible apply State.stopWatch_only
      | with_reducible apply State.abortJobs_only)
    | ((with_reducible show (_ || _) = false); exact rfl) | split)

theorem State.checkSlots_advances (env : StartEnv) (x1 : List Nat) (x2 : State) :
    Advances x2 (State.checkSlots env x1 x2) := by
  induction x1 generalizing x2 with
  | nil => exact Advances.refl _
  | cons n rest ih =>
    unfold State.checkSlots
    dsimp only
    refine Advances.ite (State.watchExpires_advances _ _ _) (Advances.ite (State.watchExpires_advances _ _ _) (Advances.ite ?_ ?_))
    · exact (Advances.ofOnly (State.modWatch_only _ _) rfl).trans (ih _)
    · exact Advances.ofOnly (State.modWatch_only _ _) rfl

theorem State.checkIn_advances (activity : Nat) (env : StartEnv) (s : State) :
    Advances s (State.checkIn activity env s) := by
  unfold State.checkIn
  repeat' (first
    | with_reducible exact Advances.refl _ | with_reducible assumption | with_reducible apply Advances.ite
    | (apply Advances.into; with_reducible apply State.checkSlots_advances))

theorem State.checkMismatch_advances (r : RequestRef) (page : Nat) (s : State) :
    Advances s (State.checkMismatch r page s) := by
  unfold State.checkMismatch
  repeat' (first
    | with_reducible exact Advances.refl _ | with_reducible assumption | (extract_lets +onlyGivenNames _x; first
      | (rename State => _y; refine Advances.bring _y ?_ ?_; rotate_left; clear_value _y; intro _; rotate_right; subst _y)
      | (rename _ × State => _y; refine Advances.bringSnd _y ?_ ?_; rotate_left; clear_value _y; intro _; rotate_right; subst _y)
      | skip)
    | (apply Advances.into; with_reducible apply State.eventFor_advances)
    | (apply Advances.intoOnly; with_reducible apply State.request_only)
    | ((with_reducible show (_ || _) = false); exact rfl))

theorem State.checkOvercast_advances (s : State) :
    Advances s (State.checkOvercast s) := by
  unfold State.checkOvercast
  repeat' (first
    | with_reducible exact Advances.refl _ | with_reducible assumption | (extract_lets +onlyGivenNames _x; first
      | (rename State => _y; refine Advances.bring _y ?_ ?_; rotate_left; clear_value _y; intro _; rotate_right; subst _y)
      | (rename _ × State => _y; refine Advances.bringSnd _y ?_ ?_; rotate_left; clear_value _y; intro _; rotate_right; subst _y)
      | skip)
    | with_reducible apply Advances.ite | with_reducible apply Advances.when
    | (apply Advances.into; with_reducible apply State.event_advances) | (apply Advances.intoOnly; first
      | with_reducible apply State.modMedia_only
      | with_reducible apply State.modStart_only
      | with_reducible apply State.setMode_only
      | with_reducible apply State.modPower_only)
    | ((with_reducible show (_ || _) = false); exact rfl) | split)

theorem State.checkSpace_advances (s : State) :
    Advances s (State.checkSpace s) := by
  unfold State.checkSpace
  repeat' (first
    | with_reducible exact Advances.refl _ | with_reducible assumption | (extract_lets +onlyGivenNames _x; first
      | (rename State => _y; refine Advances.bring _y ?_ ?_; rotate_left; clear_value _y; intro _; rotate_right; subst _y)
      | (rename _ × State => _y; refine Advances.bringSnd _y ?_ ?_; rotate_left; clear_value _y; intro _; rotate_right; subst _y)
      | skip)
    | with_reducible apply Advances.ite | (apply Advances.into; with_reducible apply State.event_advances)
    | (apply Advances.intoOnly; first
      | with_reducible apply State.modMedia_only
      | with_reducible apply State.collectNext_only)
    | ((with_reducible show (_ || _) = false); exact rfl))

theorem State.checkWarnings_advances (s : State) :
    Advances s (State.checkWarnings s) := by
  unfold State.checkWarnings
  repeat' (first
    | with_reducible exact Advances.refl _ | with_reducible assumption | (extract_lets +onlyGivenNames _x; first
      | (rename State => _y; refine Advances.bring _y ?_ ?_; rotate_left; clear_value _y; intro _; rotate_right; subst _y)
      | (rename _ × State => _y; refine Advances.bringSnd _y ?_ ?_; rotate_left; clear_value _y; intro _; rotate_right; subst _y)
      | skip)
    | with_reducible apply Advances.ite | (apply Advances.into; with_reducible apply State.event_advances)
    | (apply Advances.intoOnly; with_reducible apply State.modMedia_only)
    | ((with_reducible show (_ || _) = false); exact rfl))

theorem State.collapsed_advances (vin : Nat) (reverse : Bool) (paid : Bool) (s : State) :
    Advances s (State.collapsed vin reverse paid s) := by
  unfold State.collapsed
  repeat' (first
    | with_reducible exact Advances.refl _ | with_reducible assumption | with_reducible apply Advances.ite
    | (apply Advances.into; with_reducible apply State.supplyDusk_advances))

theorem State.cooled_advances (env : StartEnv) (s : State) :
    Advances s (State.cooled env s) := by
  unfold State.cooled
  repeat' (first
    | with_reducible exact Advances.refl _ | with_reducible assumption | with_reducible apply Advances.ite
    | (apply Advances.into; first
      | with_reducible apply State.runStart_advances
      | with_reducible apply State.beginCold_advances)
    | (apply Advances.intoOnly; with_reducible apply State.switchOn_only)
    | ((with_reducible show (_ || _) = false); exact rfl))

theorem State.stepTime_advances (delta : Int) (s : State) :
    Advances s (State.stepTime delta s) := by
  unfold State.stepTime
  repeat' (first
    | with_reducible exact Advances.refl _ | with_reducible assumption | (extract_lets +onlyGivenNames _x; first
      | (rename State => _y; refine Advances.bring _y ?_ ?_; rotate_left; clear_value _y; intro _; rotate_right; subst _y)
      | (rename _ × State => _y; refine Advances.bringSnd _y ?_ ?_; rotate_left; clear_value _y; intro _; rotate_right; subst _y)
      | skip)
    | with_reducible apply Advances.ite | (apply Advances.into; with_reducible apply State.event_advances)
    | (apply Advances.intoOnly; first
      | with_reducible apply State.setTime_only
      | with_reducible apply State.realignGates_only)
    | ((with_reducible show (_ || _) = false); exact rfl) | split)

theorem State.correct_advances (offset : Int) (s : State) :
    Advances s (State.correct offset s) := by
  unfold State.correct
  repeat' (first
    | with_reducible exact Advances.refl _ | with_reducible assumption | with_reducible apply Advances.ite
    | (apply Advances.into; with_reducible apply State.stepTime_advances) | (apply Advances.intoOnly; first
      | with_reducible apply State.draw_only
      | (with_reducible apply State.draw_only_eq; assumption)
      | with_reducible apply State.setRate_only)
    | ((with_reducible show (_ || _) = false); exact rfl) | split)

theorem State.failDie_advances (d : Nat) (s : State) :
    Advances s (State.failDie d s) := by
  unfold State.failDie
  repeat' (first
    | with_reducible exact Advances.refl _ | with_reducible assumption | (extract_lets +onlyGivenNames _x; first
      | (rename State => _y; refine Advances.bring _y ?_ ?_; rotate_left; clear_value _y; intro _; rotate_right; subst _y)
      | (rename _ × State => _y; refine Advances.bringSnd _y ?_ ?_; rotate_left; clear_value _y; intro _; rotate_right; subst _y)
      | skip)
    | with_reducible apply Advances.ite | (apply Advances.into; first
      | with_reducible apply State.event_advances
      | with_reducible apply State.checkSpace_advances
      | with_reducible apply State.checkOvercast_advances
      | with_reducible apply State.checkWarnings_advances)
    | (apply Advances.intoOnly; first
      | with_reducible apply State.modMedia_only
      | with_reducible apply State.modJournal_only
      | with_reducible apply State.fillRow_only
      | with_reducible apply State.relocate_only
      | with_reducible apply State.endVerify_only
      | with_reducible apply State.mapChanged_only)
    | ((with_reducible show (_ || _) = false); exact rfl) | (with_reducible apply Advances.foldl; (intro _ _)))

theorem State.countFailure_advances (d : Nat) (s : State) :
    Advances s (State.countFailure d s) := by
  unfold State.countFailure
  repeat' (first
    | with_reducible exact Advances.refl _ | with_reducible assumption | (extract_lets +onlyGivenNames _x; first
      | (rename State => _y; refine Advances.bring _y ?_ ?_; rotate_left; clear_value _y; intro _; rotate_right; subst _y)
      | (rename _ × State => _y; refine Advances.bringSnd _y ?_ ?_; rotate_left; clear_value _y; intro _; rotate_right; subst _y)
      | skip)
    | with_reducible apply Advances.ite | (apply Advances.into; with_reducible apply State.failDie_advances)
    | (apply Advances.intoOnly; with_reducible apply State.modMedia_only)
    | ((with_reducible show (_ || _) = false); exact rfl))

theorem State.credentialChanged_advances (t : Nat) (s : State) :
    Advances s (State.credentialChanged t s) := by
  unfold State.credentialChanged
  repeat' (first
    | with_reducible exact Advances.refl _ | with_reducible assumption | (extract_lets +onlyGivenNames _x; first
      | (rename State => _y; refine Advances.bring _y ?_ ?_; rotate_left; clear_value _y; intro _; rotate_right; subst _y)
      | (rename _ × State => _y; refine Advances.bringSnd _y ?_ ?_; rotate_left; clear_value _y; intro _; rotate_right; subst _y)
      | skip)
    | (apply Advances.into; first
      | with_reducible apply State.event_advances
      | with_reducible apply State.removeSess_advances)
    | (with_reducible apply Advances.foldl; (intro _ _)) | split)

theorem State.dawnRepeat_advances (s : State) :
    Advances s (State.dawnRepeat s) := by
  unfold State.dawnRepeat
  repeat' (first
    | with_reducible exact Advances.refl _ | with_reducible assumption | (extract_lets +onlyGivenNames _x; first
      | (rename State => _y; refine Advances.bring _y ?_ ?_; rotate_left; clear_value _y; intro _; rotate_right; subst _y)
      | (rename _ × State => _y; refine Advances.bringSnd _y ?_ ?_; rotate_left; clear_value _y; intro _; rotate_right; subst _y)
      | skip)
    | with_reducible apply Advances.ite | (apply Advances.into; with_reducible apply State.waitUntil_advances)
    | (apply Advances.intoOnly; first
      | with_reducible apply State.sendDawn_only
      | with_reducible apply State.modStart_only)
    | ((with_reducible show (_ || _) = false); exact rfl) | split)

theorem State.retire_advances (b : BlockId) (s : State) :
    Advances s (State.retire b s) := by
  unfold State.retire
  repeat' (first
    | with_reducible exact Advances.refl _ | with_reducible assumption | (extract_lets +onlyGivenNames _x; first
      | (rename State => _y; refine Advances.bring _y ?_ ?_; rotate_left; clear_value _y; intro _; rotate_right; subst _y)
      | (rename _ × State => _y; refine Advances.bringSnd _y ?_ ?_; rotate_left; clear_value _y; intro _; rotate_right; subst _y)
      | skip)
    | with_reducible apply Advances.ite | (apply Advances.into; first
      | with_reducible apply State.checkOvercast_advances
      | with_reducible apply State.checkWarnings_advances
      | with_reducible apply State.event_advances)
    | (apply Advances.intoOnly; first
      | with_reducible apply State.modMedia_only
      | with_reducible apply State.fillRow_only
      | with_reducible apply State.relocate_only
      | with_reducible apply State.modJournal_only
      | with_reducible apply State.mapChanged_only)
    | ((with_reducible show (_ || _) = false); exact rfl) | (with_reducible apply Advances.foldl; (intro _ _)) | split
    | dsimp +zetaDelta only)

theorem State.endRead_advances (o : DieOp) (step : Nat) (index : Nat) (corrected : Nat) (s : State) :
    Advances s (State.endRead o step index corrected s) := by
  unfold State.endRead
  repeat' (first
    | with_reducible exact Advances.refl _ | with_reducible assumption | (extract_lets +onlyGivenNames _x; first
      | (rename State => _y; refine Advances.bring _y ?_ ?_; rotate_left; clear_value _y; intro _; rotate_right; subst _y)
      | (rename _ × State => _y; refine Advances.bringSnd _y ?_ ?_; rotate_left; clear_value _y; intro _; rotate_right; subst _y)
      | skip)
    | with_reducible apply Advances.ite | with_reducible apply Advances.when
    | (apply Advances.into; with_reducible apply State.retire_advances) | (apply Advances.intoOnly; first
      | with_reducible apply State.noteDifficult_only
      | with_reducible apply State.countPages_only
      | with_reducible apply State.endVerify_only
      | with_reducible apply State.track_only
      | with_reducible apply State.moveNext_only
      | with_reducible apply State.modMedia_only
      | with_reducible apply State.addOp_only)
    | ((with_reducible show (_ || _) = false); exact rfl) | split)

theorem State.programFailed_advances (id : Nat) (addr : Nat) (s : State) :
    Advances s (State.programFailed id addr s) := by
  unfold State.programFailed
  repeat' (first
    | with_reducible exact Advances.refl _ | with_reducible assumption | (extract_lets +onlyGivenNames _x; first
      | (rename State => _y; refine Advances.bring _y ?_ ?_; rotate_left; clear_value _y; intro _; rotate_right; subst _y)
      | (rename _ × State => _y; refine Advances.bringSnd _y ?_ ?_; rotate_left; clear_value _y; intro _; rotate_right; subst _y)
      | skip)
    | with_reducible apply Advances.ite | (apply Advances.into; with_reducible apply State.event_advances)
    | (apply Advances.intoOnly; first
      | with_reducible apply State.modStore_only
      | with_reducible apply State.requestDrain_only)
    | ((with_reducible show (_ || _) = false); exact rfl) | split)

theorem State.losePage_advances (r : Option RequestRef) (addr : Nat) (s : State) :
    Advances s (State.losePage r addr s) := by
  unfold State.losePage
  repeat' (first
    | with_reducible exact Advances.refl _ | with_reducible assumption | (extract_lets +onlyGivenNames _x; first
      | (rename State => _y; refine Advances.bring _y ?_ ?_; rotate_left; clear_value _y; intro _; rotate_right; subst _y)
      | (rename _ × State => _y; refine Advances.bringSnd _y ?_ ?_; rotate_left; clear_value _y; intro _; rotate_right; subst _y)
      | skip)
    | with_reducible apply Advances.ite | (apply Advances.into; first
      | with_reducible apply State.eventFor_advances
      | with_reducible apply State.retire_advances)
    | (apply Advances.intoOnly; with_reducible apply State.modMedia_only)
    | ((with_reducible show (_ || _) = false); exact rfl))

end Sys2Proof.Machine
end

