-- ==== Sys2Proof/Laws/Advances3.lean ====
section
/-!
SUPPORT. Every operation that touches the clock, START_COUNT or the logs advances, one lemma for each, callees before callers;
part 3 of 4.
-/
set_option linter.tactic.unusedName false
set_option linter.unusedSimpArgs false
namespace Sys2Proof.Machine

theorem State.endOp_advances (o : DieOp) (r : DieResult) (s : State) :
    Advances s (State.endOp o r s) := by
  unfold State.endOp
  repeat' (first
    | with_reducible exact Advances.refl _ | with_reducible assumption | (extract_lets +onlyGivenNames _x; first
      | (rename State => _y; refine Advances.bring _y ?_ ?_; rotate_left; clear_value _y; intro _; rotate_right; subst _y)
      | (rename _ × State => _y; refine Advances.bringSnd _y ?_ ?_; rotate_left; clear_value _y; intro _; rotate_right; subst _y)
      | skip)
    | (apply Advances.into; first
      | with_reducible apply State.endRead_advances
      | with_reducible apply State.countFailure_advances
      | with_reducible apply State.losePage_advances
      | with_reducible apply State.retire_advances
      | with_reducible apply State.programFailed_advances)
    | (apply Advances.intoOnly; first
      | with_reducible apply State.modMedia_only
      | with_reducible apply State.countPages_only
      | with_reducible apply State.endVerify_only
      | with_reducible apply State.moveDone_only
      | with_reducible apply State.moveNext_only
      | with_reducible apply State.endErase_only)
    | ((with_reducible show (_ || _) = false); exact rfl) | split)

theorem State.mediaSettles_advances (s : State) :
    Advances s (State.mediaSettles s) := by
  unfold State.mediaSettles
  repeat' (first
    | with_reducible exact Advances.refl _ | (apply Advances.into; first
      | with_reducible apply State.checkSpace_advances
      | with_reducible apply State.checkWarnings_advances)
    | (apply Advances.intoOnly; first
      | with_reducible apply State.kickAll_only
      | with_reducible apply State.levelNext_only)
    | ((with_reducible show (_ || _) = false); exact rfl))

theorem State.dieComplete_advances (die : Nat) (r : DieResult) (s : State) :
    Advances s (State.dieComplete die r s) := by
  unfold State.dieComplete
  repeat' (first
    | with_reducible exact Advances.refl _ | with_reducible assumption | (extract_lets +onlyGivenNames _x; first
      | (rename State => _y; refine Advances.bring _y ?_ ?_; rotate_left; clear_value _y; intro _; rotate_right; subst _y)
      | (rename _ × State => _y; refine Advances.bringSnd _y ?_ ?_; rotate_left; clear_value _y; intro _; rotate_right; subst _y)
      | skip)
    | with_reducible apply Advances.ite | (apply Advances.into; first
      | with_reducible apply State.mediaSettles_advances
      | with_reducible apply State.endOp_advances)
    | (apply Advances.intoOnly; first
      | with_reducible apply State.finishOp_only
      | with_reducible apply State.kickAll_only
      | with_reducible apply State.modMedia_only)
    | ((with_reducible show (_ || _) = false); exact rfl) | split)

theorem State.waitForTimeout_advances (die : Nat) (s : State) :
    Advances s (State.waitForTimeout die s) := by
  unfold State.waitForTimeout
  repeat' (first
    | with_reducible exact Advances.refl _ | with_reducible assumption
    | (apply Advances.into; with_reducible apply State.waitUntil_advances) | split)

theorem State.timedOut_advances (o : DieOp) (s : State) :
    Advances s (State.timedOut o s) := by
  unfold State.timedOut
  repeat' (first
    | with_reducible exact Advances.refl _ | with_reducible assumption | (extract_lets +onlyGivenNames _x; first
      | (rename State => _y; refine Advances.bring _y ?_ ?_; rotate_left; clear_value _y; intro _; rotate_right; subst _y)
      | (rename _ × State => _y; refine Advances.bringSnd _y ?_ ?_; rotate_left; clear_value _y; intro _; rotate_right; subst _y)
      | skip)
    | (apply Advances.into; first
      | with_reducible apply State.endOp_advances
      | with_reducible apply State.countFailure_advances
      | with_reducible apply State.retire_advances)
    | (apply Advances.intoOnly; with_reducible apply State.endVerify_only)
    | ((with_reducible show (_ || _) = false); exact rfl) | split)

theorem State.dieTimeout_advances (die : Nat) (ready : Bool) (s : State) :
    Advances s (State.dieTimeout die ready s) := by
  unfold State.dieTimeout
  repeat' (first
    | with_reducible exact Advances.refl _ | with_reducible assumption | (extract_lets +onlyGivenNames _x; first
      | (rename State => _y; refine Advances.bring _y ?_ ?_; rotate_left; clear_value _y; intro _; rotate_right; subst _y)
      | (rename _ × State => _y; refine Advances.bringSnd _y ?_ ?_; rotate_left; clear_value _y; intro _; rotate_right; subst _y)
      | skip)
    | with_reducible apply Advances.ite | (apply Advances.into; first
      | with_reducible apply State.waitForTimeout_advances
      | with_reducible apply State.failDie_advances
      | with_reducible apply State.mediaSettles_advances
      | with_reducible apply State.timedOut_advances)
    | (apply Advances.intoOnly; first
      | with_reducible apply State.modMedia_only
      | with_reducible apply State.kickAll_only
      | with_reducible apply State.finishOp_only)
    | ((with_reducible show (_ || _) = false); exact rfl) | split)

theorem State.refusePackage_advances (code : Nat) (s : State) :
    Advances s (State.refusePackage code s) := by
  unfold State.refusePackage
  repeat' (first
    | with_reducible exact Advances.refl _ | (apply Advances.into; with_reducible apply State.event_advances)
    | (apply Advances.intoOnly; with_reducible apply State.modFw_only)
    | ((with_reducible show (_ || _) = false); exact rfl))

theorem State.downloadTimeout_advances (s : State) :
    Advances s (State.downloadTimeout s) := by
  unfold State.downloadTimeout
  repeat' (first
    | with_reducible exact Advances.refl _ | with_reducible assumption | (apply Advances.into; first
      | with_reducible apply State.refusePackage_advances
      | with_reducible apply State.waitUntil_advances)
    | (apply Advances.intoOnly; with_reducible apply State.abortJobs_only)
    | ((with_reducible show (_ || _) = false); exact rfl) | split)

theorem State.drainExtent_advances (id : Nat) (pages : Nat) (s : State) :
    Advances s (State.drainExtent id pages s) := by
  unfold State.drainExtent
  repeat' (first
    | with_reducible exact Advances.refl _ | with_reducible assumption | (extract_lets +onlyGivenNames _x; first
      | (rename State => _y; refine Advances.bring _y ?_ ?_; rotate_left; clear_value _y; intro _; rotate_right; subst _y)
      | (rename _ × State => _y; refine Advances.bringSnd _y ?_ ?_; rotate_left; clear_value _y; intro _; rotate_right; subst _y)
      | skip)
    | with_reducible apply Advances.ite | (apply Advances.into; with_reducible apply State.checkSpace_advances)
    | (apply Advances.intoOnly; first
      | with_reducible apply State.programExtent_only
      | (with_reducible apply State.programExtent_only_eq; assumption)
      | with_reducible apply State.mapChanged_only
      | with_reducible apply State.place_only
      | with_reducible apply State.stirSegments_only
      | with_reducible apply State.endOps_only
      | with_reducible apply State.modStore_only
      | with_reducible apply State.kickAll_only
      | with_reducible apply State.leaveReady_only)
    | ((with_reducible show (_ || _) = false); exact rfl) | split)

theorem State.formAbort_advances (s : State) :
    Advances s (State.formAbort s).state := by
  unfold State.formAbort
  repeat' (first
    | with_reducible exact Advances.refl _ | with_reducible assumption | (extract_lets +onlyGivenNames _x; first
      | (rename State => _y; refine Advances.bring _y ?_ ?_; rotate_left; clear_value _y; intro _; rotate_right; subst _y)
      | (rename _ × State => _y; refine Advances.bringSnd _y ?_ ?_; rotate_left; clear_value _y; intro _; rotate_right; subst _y)
      | skip)
    | with_reducible apply Advances.ite | (apply Advances.into; first
      | with_reducible apply State.refusePackage_advances
      | with_reducible apply State.beginFallback_advances)
    | (apply Advances.intoOnly; first
      | with_reducible apply State.abortJobs_only
      | with_reducible apply formedOk_only)
    | ((with_reducible show (_ || _) = false); exact rfl))

theorem State.formData_advances (op : AdminOp) (s : State) :
    Advances s (State.formData op s).state := by
  unfold State.formData
  repeat' (first
    | with_reducible exact Advances.refl _ | with_reducible assumption | (extract_lets +onlyGivenNames _x; first
      | (rename State => _y; refine Advances.bring _y ?_ ?_; rotate_left; clear_value _y; intro _; rotate_right; subst _y)
      | (rename _ × State => _y; refine Advances.bringSnd _y ?_ ?_; rotate_left; clear_value _y; intro _; rotate_right; subst _y)
      | skip)
    | with_reducible apply Advances.ite | (apply Advances.into; with_reducible apply State.refusePackage_advances)
    | (apply Advances.intoOnly; first
      | with_reducible apply refused_only
      | with_reducible apply State.modFw_only
      | with_reducible apply formedOk_only)
    | ((with_reducible show (_ || _) = false); exact rfl) | split)

theorem State.formVerify_advances (s : State) :
    Advances s (State.formVerify s).state := by
  unfold State.formVerify
  repeat' (first
    | with_reducible exact Advances.refl _ | with_reducible assumption | with_reducible apply Advances.ite
    | (apply Advances.into; with_reducible apply State.refusePackage_advances) | (apply Advances.intoOnly; first
      | with_reducible apply refused_only
      | with_reducible apply formedOk_only
      | with_reducible apply State.modFw_only)
    | ((with_reducible show (_ || _) = false); exact rfl) | split)

theorem State.formConfirm_advances (s : State) :
    Advances s (State.formConfirm s).state := by
  unfold State.formConfirm
  repeat' (first
    | with_reducible exact Advances.refl _ | with_reducible assumption | (extract_lets +onlyGivenNames _x; first
      | (rename State => _y; refine Advances.bring _y ?_ ?_; rotate_left; clear_value _y; intro _; rotate_right; subst _y)
      | (rename _ × State => _y; refine Advances.bringSnd _y ?_ ?_; rotate_left; clear_value _y; intro _; rotate_right; subst _y)
      | skip)
    | with_reducible apply Advances.ite | (apply Advances.into; with_reducible apply State.event_advances)
    | (apply Advances.intoOnly; first
      | with_reducible apply formedOk_only
      | with_reducible apply State.writeCommit_only)
    | ((with_reducible show (_ || _) = false); exact rfl) | (with_reducible apply Advances.foldl; (intro _ _)) | split
    | dsimp +zetaDelta only)

theorem State.formFirmware_advances (sid : Nat) (op : AdminOp) (s : State) :
    Advances s (State.formFirmware sid op s).state := by
  unfold State.formFirmware
  repeat' (first
    | with_reducible exact Advances.refl _ | with_reducible assumption | with_reducible apply Advances.ite
    | (apply Advances.into; first
      | with_reducible apply State.formData_advances
      | with_reducible apply State.formVerify_advances
      | with_reducible apply State.formConfirm_advances
      | with_reducible apply State.formAbort_advances)
    | (apply Advances.intoOnly; first
      | with_reducible apply refused_only
      | with_reducible apply State.formBegin_only
      | with_reducible apply formedOk_only)
    | ((with_reducible show (_ || _) = false); exact rfl) | split)

theorem State.formSetCredential_advances (kH2d : Bytes) (msgId : Nat) (op : AdminOp) (s : State) :
    Advances s (State.formSetCredential kH2d msgId op s).state := by
  unfold State.formSetCredential
  repeat' (first
    | with_reducible exact Advances.refl _ | with_reducible assumption | (extract_lets +onlyGivenNames _x; first
      | (rename State => _y; refine Advances.bring _y ?_ ?_; rotate_left; clear_value _y; intro _; rotate_right; subst _y)
      | (rename _ × State => _y; refine Advances.bringSnd _y ?_ ?_; rotate_left; clear_value _y; intro _; rotate_right; subst _y)
      | skip)
    | (apply Advances.into; with_reducible apply State.credentialChanged_advances) | (apply Advances.intoOnly; first
      | with_reducible apply refused_only
      | with_reducible apply State.modSec_only
      | with_reducible apply formedOk_only)
    | ((with_reducible show (_ || _) = false); exact rfl) | split)

theorem State.eraseTenantData_advances (t : Nat) (s : State) :
    Advances s (State.eraseTenantData t s) := by
  unfold State.eraseTenantData
  repeat' (first
    | with_reducible exact Advances.refl _ | with_reducible assumption | (extract_lets +onlyGivenNames _x; first
      | (rename State => _y; refine Advances.bring _y ?_ ?_; rotate_left; clear_value _y; intro _; rotate_right; subst _y)
      | (rename _ × State => _y; refine Advances.bringSnd _y ?_ ?_; rotate_left; clear_value _y; intro _; rotate_right; subst _y)
      | skip)
    | (apply Advances.into; with_reducible apply State.writeEntry_advances) | (apply Advances.intoOnly; first
      | with_reducible apply State.dropOps_only
      | with_reducible apply State.modStore_only
      | with_reducible apply State.modMedia_only
      | with_reducible apply State.random_only
      | (with_reducible apply State.random_only_eq; assumption)
      | with_reducible apply State.modSec_only)
    | ((with_reducible show (_ || _) = false); exact rfl) | split)

theorem State.eraseTenantSessions_advances (t : Nat) (s : State) :
    Advances s (State.eraseTenantSessions t s) := by
  unfold State.eraseTenantSessions
  repeat' (first
    | with_reducible exact Advances.refl _ | with_reducible assumption | (extract_lets +onlyGivenNames _x; first
      | (rename State => _y; refine Advances.bring _y ?_ ?_; rotate_left; clear_value _y; intro _; rotate_right; subst _y)
      | (rename _ × State => _y; refine Advances.bringSnd _y ?_ ?_; rotate_left; clear_value _y; intro _; rotate_right; subst _y)
      | skip)
    | with_reducible apply Advances.ite | (apply Advances.into; first
      | with_reducible apply State.event_advances
      | with_reducible apply State.removeSess_advances)
    | (apply Advances.intoOnly; first
      | with_reducible apply State.modPort_only
      | with_reducible apply State.say_only
      | with_reducible apply State.release_only)
    | ((with_reducible show (_ || _) = false); exact rfl) | (with_reducible apply Advances.foldl; (intro _ _)) | split)

theorem State.formErase_advances (op : AdminOp) (s : State) :
    Advances s (State.formErase op s).state := by
  unfold State.formErase
  repeat' (first
    | with_reducible exact Advances.refl _ | (apply Advances.into; first
      | with_reducible apply State.eraseTenantData_advances
      | with_reducible apply State.eraseTenantSessions_advances)
    | (apply Advances.intoOnly; with_reducible apply formedOk_only)
    | ((with_reducible show (_ || _) = false); exact rfl))

theorem State.enterTop_advances (m : Mode) (s : State) :
    Advances s (State.enterTop m s) := by
  unfold State.enterTop
  repeat' (first
    | with_reducible exact Advances.refl _ | with_reducible assumption | (extract_lets +onlyGivenNames _x; first
      | (rename State => _y; refine Advances.bring _y ?_ ?_; rotate_left; clear_value _y; intro _; rotate_right; subst _y)
      | (rename _ × State => _y; refine Advances.bringSnd _y ?_ ?_; rotate_left; clear_value _y; intro _; rotate_right; subst _y)
      | skip)
    | with_reducible apply Advances.when | (apply Advances.into; with_reducible apply State.event_advances)
    | (apply Advances.intoOnly; first
      | with_reducible apply State.modMedia_only
      | with_reducible apply State.modStart_only
      | with_reducible apply State.enter_only
      | with_reducible apply State.beginSeries_only
      | with_reducible apply State.modPower_only)
    | ((with_reducible show (_ || _) = false); exact rfl))

theorem State.unlockDrive_advances (s : State) :
    Advances s (State.unlockDrive s) := by
  unfold State.unlockDrive
  repeat' (first
    | with_reducible exact Advances.refl _ | with_reducible assumption | (extract_lets +onlyGivenNames _x; first
      | (rename State => _y; refine Advances.bring _y ?_ ?_; rotate_left; clear_value _y; intro _; rotate_right; subst _y)
      | (rename _ × State => _y; refine Advances.bringSnd _y ?_ ?_; rotate_left; clear_value _y; intro _; rotate_right; subst _y)
      | skip)
    | (apply Advances.into; first
      | with_reducible apply State.event_advances
      | with_reducible apply State.enterTop_advances)
    | (apply Advances.intoOnly; first
      | with_reducible apply State.modSec_only
      | with_reducible apply State.refillPins_only
      | with_reducible apply State.enter_only
      | with_reducible apply State.beginSeries_only
      | with_reducible apply State.modStart_only)
    | ((with_reducible show (_ || _) = false); exact rfl) | split)

theorem State.formUnlock_advances (s : State) :
    Advances s (State.formUnlock s).state := by
  unfold State.formUnlock
  repeat' (first
    | with_reducible exact Advances.refl _ | with_reducible assumption | (extract_lets +onlyGivenNames _x; first
      | (rename State => _y; refine Advances.bring _y ?_ ?_; rotate_left; clear_value _y; intro _; rotate_right; subst _y)
      | (rename _ × State => _y; refine Advances.bringSnd _y ?_ ?_; rotate_left; clear_value _y; intro _; rotate_right; subst _y)
      | skip)
    | with_reducible apply Advances.ite | (apply Advances.into; with_reducible apply State.unlockDrive_advances)
    | (apply Advances.intoOnly; with_reducible apply formedOk_only)
    | ((with_reducible show (_ || _) = false); exact rfl))

theorem State.formResetCredential_advances (op : AdminOp) (s : State) :
    Advances s (State.formResetCredential op s).state := by
  unfold State.formResetCredential
  repeat' (first
    | with_reducible exact Advances.refl _ | with_reducible assumption | (extract_lets +onlyGivenNames _x; first
      | (rename State => _y; refine Advances.bring _y ?_ ?_; rotate_left; clear_value _y; intro _; rotate_right; subst _y)
      | (rename _ × State => _y; refine Advances.bringSnd _y ?_ ?_; rotate_left; clear_value _y; intro _; rotate_right; subst _y)
      | skip)
    | with_reducible apply Advances.ite | (apply Advances.into; with_reducible apply State.credentialChanged_advances)
    | (apply Advances.intoOnly; first
      | with_reducible apply State.modSec_only
      | with_reducible apply formedOk_only)
    | ((with_reducible show (_ || _) = false); exact rfl))

theorem State.formSecurity_advances (kH2d : Bytes) (msgId : Nat) (op : AdminOp) (s : State) :
    Advances s (State.formSecurity kH2d msgId op s).state := by
  unfold State.formSecurity
  repeat' (first
    | with_reducible exact Advances.refl _ | with_reducible assumption | (apply Advances.into; first
      | with_reducible apply State.formUnlock_advances
      | with_reducible apply State.formSetCredential_advances
      | with_reducible apply State.formResetCredential_advances
      | with_reducible apply State.formErase_advances)
    | (apply Advances.intoOnly; first
      | with_reducible apply refused_only
      | with_reducible apply formedOk_only)
    | ((with_reducible show (_ || _) = false); exact rfl) | split)

theorem State.formClear_advances (op : AdminOp) (s : State) :
    Advances s (State.formClear op s).state := by
  unfold State.formClear formedOk
  dsimp only
  refine Advances.modLog (fun l h => ?_) (Advances.refl _)
  exact h.same rfl rfl rfl rfl

theorem State.formSleep_advances (s : State) :
    Advances s (State.formSleep s).state := by
  unfold State.formSleep
  repeat' (first
    | with_reducible exact Advances.refl _ | with_reducible assumption
    | (apply Advances.into; with_reducible apply State.abortTest_advances) | (apply Advances.intoOnly; first
      | with_reducible apply refused_only
      | with_reducible apply formedOk_only
      | with_reducible apply State.modPower_only)
    | ((with_reducible show (_ || _) = false); exact rfl) | split)

theorem State.formPlain_advances (sid : Nat) (gen : Nat) (op : AdminOp) (s : State) :
    Advances s (State.formPlain sid gen op s).state := by
  unfold State.formPlain
  repeat' (first
    | with_reducible exact Advances.refl _ | with_reducible assumption | (apply Advances.into; first
      | with_reducible apply State.formSleep_advances
      | with_reducible apply State.formClear_advances)
    | (apply Advances.intoOnly; first
      | with_reducible apply refused_only
      | with_reducible apply State.formIdentify_only
      | with_reducible apply State.formGetLog_only
      | with_reducible apply State.formSnapshot_only
      | with_reducible apply State.formGetFeature_only
      | with_reducible apply State.formSetFeature_only
      | with_reducible apply formedOk_only)
    | ((with_reducible show (_ || _) = false); exact rfl) | split)

theorem State.formOp_advances (x : Sess) (msgId : Nat) (op : AdminOp) (s : State) :
    Advances s (State.formOp x msgId op s).state := by
  unfold State.formOp
  repeat' (first
    | with_reducible exact Advances.refl _ | with_reducible assumption | (extract_lets +onlyGivenNames _x; first
      | (rename State => _y; refine Advances.bring _y ?_ ?_; rotate_left; clear_value _y; intro _; rotate_right; subst _y)
      | (rename _ × State => _y; refine Advances.bringSnd _y ?_ ?_; rotate_left; clear_value _y; intro _; rotate_right; subst _y)
      | skip)
    | with_reducible apply Advances.ite | (apply Advances.into; first
      | with_reducible apply State.formFirmware_advances
      | with_reducible apply State.formSecurity_advances
      | with_reducible apply State.formPlain_advances)
    | (with_reducible apply Advances.foldl; (intro _ _)) | split | dsimp +zetaDelta only)

theorem State.formEntry_advances (e : EpEntry) (s : State) :
    Advances s (State.formEntry e s).2.2 := by
  unfold State.formEntry
  repeat' (first
    | with_reducible exact Advances.refl _ | with_reducible assumption | (extract_lets +onlyGivenNames _x; first
      | (rename State => _y; refine Advances.bring _y ?_ ?_; rotate_left; clear_value _y; intro _; rotate_right; subst _y)
      | (rename _ × State => _y; refine Advances.bringSnd _y ?_ ?_; rotate_left; clear_value _y; intro _; rotate_right; subst _y)
      | skip)
    | with_reducible apply Advances.ite | (apply Advances.into; first
      | with_reducible apply State.formOp_advances
      | with_reducible apply State.errorAnswer_advances)
    | (apply Advances.intoOnly; with_reducible apply State.modSess_only)
    | ((with_reducible show (_ || _) = false); exact rfl) | split)

theorem State.formEntry_advances_eq {e : EpEntry} {s : State} {p : _} {t : State} {o : _} (h : State.formEntry e s = (p, o, t)) :
    Advances s t := by
  have k := State.formEntry_advances e s
  rw [h] at k
  exact k

theorem State.preview_advances (q : Port) (s : State) :
    Advances s (State.preview q s) := by
  unfold State.preview
  repeat' (first
    | with_reducible exact Advances.refl _ | (apply Advances.into; first
      | with_reducible apply State.formEntry_advances
      | (with_reducible apply State.formEntry_advances_eq; assumption))
    | (apply Advances.intoOnly; with_reducible apply State.modPort_only)
    | ((with_reducible show (_ || _) = false); exact rfl))

theorem State.frameSent_advances (q : Port) (s : State) :
    Advances s (State.frameSent q s) := by
  unfold State.frameSent
  repeat' (first
    | with_reducible exact Advances.refl _ | with_reducible assumption | (extract_lets +onlyGivenNames _x; first
      | (rename State => _y; refine Advances.bring _y ?_ ?_; rotate_left; clear_value _y; intro _; rotate_right; subst _y)
      | (rename _ × State => _y; refine Advances.bringSnd _y ?_ ?_; rotate_left; clear_value _y; intro _; rotate_right; subst _y)
      | skip)
    | (apply Advances.into; with_reducible apply State.waitUntil_advances) | (apply Advances.intoOnly; first
      | with_reducible apply State.modPort_only
      | with_reducible apply State.bump_only
      | with_reducible apply State.activity_only
      | with_reducible apply State.count_only)
    | ((with_reducible show (_ || _) = false); exact rfl) | split)

theorem State.measure_advances (q : Port) (e : EpEntry) (sid : Nat) (s : State) :
    Advances s (State.measure q e sid s) := by
  unfold State.measure
  repeat' (first
    | with_reducible exact Advances.refl _ | with_reducible assumption | (extract_lets +onlyGivenNames _x; first
      | (rename State => _y; refine Advances.bring _y ?_ ?_; rotate_left; clear_value _y; intro _; rotate_right; subst _y)
      | (rename _ × State => _y; refine Advances.bringSnd _y ?_ ?_; rotate_left; clear_value _y; intro _; rotate_right; subst _y)
      | skip)
    | with_reducible apply Advances.ite | (apply Advances.into; with_reducible apply State.event_advances)
    | (apply Advances.intoOnly; first
      | with_reducible apply State.bump_only
      | with_reducible apply State.modAdmin_only
      | with_reducible apply State.modSess_only
      | with_reducible apply State.modPort_only)
    | ((with_reducible show (_ || _) = false); exact rfl) | split)

theorem State.seqSpent_advances (sid : Nat) (s : State) :
    Advances s (State.seqSpent sid s) := by
  unfold State.seqSpent
  repeat' (first
    | with_reducible exact Advances.refl _ | with_reducible assumption | with_reducible apply Advances.ite
    | (apply Advances.into; with_reducible apply State.dropSession_advances) | split)

theorem State.messageSelected_advances (q : Port) (e : EpEntry) (m : LyMsg) (last : Bool) (s : State) :
    Advances s (State.messageSelected q e m last s) := by
  unfold State.messageSelected
  repeat' (first
    | with_reducible exact Advances.refl _ | with_reducible assumption | (extract_lets +onlyGivenNames _x; first
      | (rename State => _y; refine Advances.bring _y ?_ ?_; rotate_left; clear_value _y; intro _; rotate_right; subst _y)
      | (rename _ × State => _y; refine Advances.bringSnd _y ?_ ?_; rotate_left; clear_value _y; intro _; rotate_right; subst _y)
      | skip)
    | with_reducible apply Advances.when | (apply Advances.into; first
      | with_reducible apply State.measure_advances
      | with_reducible apply State.seqSpent_advances
      | with_reducible apply State.messageOver_advances)
    | (apply Advances.intoOnly; first
      | with_reducible apply State.modFlight_only
      | with_reducible apply State.cacheAnswer_only)
    | ((with_reducible show (_ || _) = false); exact rfl))

theorem State.selectEntry_advances (q : Port) (k : Nat) (s : State) :
    Advances s (State.selectEntry q k s) := by
  unfold State.selectEntry
  repeat' (first
    | with_reducible exact Advances.refl _ | with_reducible assumption | (extract_lets +onlyGivenNames _x; first
      | (rename State => _y; refine Advances.bring _y ?_ ?_; rotate_left; clear_value _y; intro _; rotate_right; subst _y)
      | (rename _ × State => _y; refine Advances.bringSnd _y ?_ ?_; rotate_left; clear_value _y; intro _; rotate_right; subst _y)
      | skip)
    | with_reducible apply Advances.ite | (apply Advances.into; first
      | with_reducible apply State.formEntry_advances
      | (with_reducible apply State.formEntry_advances_eq; assumption)
      | with_reducible apply State.messageSelected_advances
      | with_reducible apply State.settleCloses_advances
      | with_reducible apply State.afterOp_advances)
    | (apply Advances.intoOnly; first
      | with_reducible apply State.modPort_only
      | with_reducible apply State.refill_only)
    | ((with_reducible show (_ || _) = false); exact rfl) | split)

theorem State.select_advances (q : Port) (x : Pick) (s : State) :
    Advances s (State.select q x s) := by
  unfold State.select
  repeat' (first
    | with_reducible exact Advances.refl _ | with_reducible assumption | (extract_lets +onlyGivenNames _x; first
      | (rename State => _y; refine Advances.bring _y ?_ ?_; rotate_left; clear_value _y; intro _; rotate_right; subst _y)
      | (rename _ × State => _y; refine Advances.bringSnd _y ?_ ?_; rotate_left; clear_value _y; intro _; rotate_right; subst _y)
      | skip)
    | (apply Advances.into; with_reducible apply State.selectEntry_advances) | (apply Advances.intoOnly; first
      | with_reducible apply State.modPort_only
      | with_reducible apply State.gptpSelected_only)
    | ((with_reducible show (_ || _) = false); exact rfl) | split)

theorem State.idlePort_advances (q : Port) (s : State) :
    Advances s (State.idlePort q s) := by
  unfold State.idlePort
  repeat' (first
    | with_reducible exact Advances.refl _ | with_reducible assumption | (extract_lets +onlyGivenNames _x; first
      | (rename State => _y; refine Advances.bring _y ?_ ?_; rotate_left; clear_value _y; intro _; rotate_right; subst _y)
      | (rename _ × State => _y; refine Advances.bringSnd _y ?_ ?_; rotate_left; clear_value _y; intro _; rotate_right; subst _y)
      | skip)
    | (apply Advances.into; first
      | with_reducible apply State.frameSent_advances
      | with_reducible apply State.preview_advances
      | with_reducible apply State.select_advances)
    | (apply Advances.intoOnly; with_reducible apply State.holdBack_only)
    | ((with_reducible show (_ || _) = false); exact rfl) | split)

theorem State.fragmentPoint_advances (q : Port) (sent : Nat) (s : State) :
    Advances s (State.fragmentPoint q sent s) := by
  unfold State.fragmentPoint
  repeat' (first
    | with_reducible exact Advances.refl _ | with_reducible assumption | (extract_lets +onlyGivenNames _x; first
      | (rename State => _y; refine Advances.bring _y ?_ ?_; rotate_left; clear_value _y; intro _; rotate_right; subst _y)
      | (rename _ × State => _y; refine Advances.bringSnd _y ?_ ?_; rotate_left; clear_value _y; intro _; rotate_right; subst _y)
      | skip)
    | with_reducible apply Advances.ite | (apply Advances.into; first
      | with_reducible apply State.preview_advances
      | with_reducible apply State.waitUntil_advances)
    | (apply Advances.intoOnly; with_reducible apply State.modPort_only)
    | ((with_reducible show (_ || _) = false); exact rfl) | split)

theorem State.egress_advances (q : Port) (sent : Option Nat) (s : State) :
    Advances s (State.egress q sent s) := by
  unfold State.egress
  repeat' (first
    | with_reducible exact Advances.refl _ | with_reducible assumption | with_reducible apply Advances.ite
    | (apply Advances.into; first
      | with_reducible apply State.idlePort_advances
      | with_reducible apply State.fragmentPoint_advances)
    | split)

theorem State.endRangeDelete_advances (a : Ask) (status : Nat) (reason : Nat) (b : AnswerBody) (s : State) :
    Advances s (State.endRangeDelete a status reason b s) := by
  unfold State.endRangeDelete
  repeat' (first
    | with_reducible exact Advances.refl _ | with_reducible assumption | with_reducible apply Advances.ite
    | (apply Advances.into; first
      | with_reducible apply State.finishLy1_advances
      | with_reducible apply State.fail_advances
      | with_reducible apply State.finish_advances)
    | split)

theorem State.epTimeout_advances (q : Port) (s : State) :
    Advances s (State.epTimeout q s) := by
  unfold State.epTimeout
  repeat' (first
    | with_reducible exact Advances.refl _ | with_reducible assumption | (extract_lets +onlyGivenNames _x; first
      | (rename State => _y; refine Advances.bring _y ?_ ?_; rotate_left; clear_value _y; intro _; rotate_right; subst _y)
      | (rename _ × State => _y; refine Advances.bringSnd _y ?_ ?_; rotate_left; clear_value _y; intro _; rotate_right; subst _y)
      | skip)
    | (apply Advances.into; first
      | with_reducible apply State.waitUntil_advances
      | with_reducible apply State.settleCloses_advances
      | with_reducible apply State.lost_advances)
    | (apply Advances.intoOnly; first
      | with_reducible apply State.bumps_only
      | with_reducible apply State.modPort_only
      | with_reducible apply State.refill_only)
    | ((with_reducible show (_ || _) = false); exact rfl) | split)

theorem State.takeRequest_advances (sid : Nat) (msgId : Nat) (ly1 : Bool) (ops : List Nat) (s : State) :
    Advances s (State.takeRequest sid msgId ly1 ops s).2 := by
  unfold State.takeRequest
  repeat' (first
    | with_reducible exact Advances.refl _ | with_reducible assumption | with_reducible apply Advances.ite
    | (apply Advances.into; first
      | with_reducible apply State.judgeRequest_advances
      | (with_reducible apply State.judgeRequest_advances_eq; assumption))
    | (apply Advances.intoOnly; with_reducible apply State.takeMessage_only)
    | ((with_reducible show (_ || _) = false); exact rfl) | split)

theorem State.takeRequest_advances_eq {sid : Nat} {msgId : Nat} {ly1 : Bool} {ops : List Nat} {s : State} {p : _} {t : State} (h : State.takeRequest sid msgId ly1 ops s = (p, t)) :
    Advances s t := by
  have k := State.takeRequest_advances sid msgId ly1 ops s
  rw [h] at k
  exact k

theorem State.flush_advances (a : Ask) (s : State) :
    Advances s (State.flush a s) := by
  unfold State.flush
  repeat' (first
    | with_reducible exact Advances.refl _ | with_reducible assumption | (extract_lets +onlyGivenNames _x; first
      | (rename State => _y; refine Advances.bring _y ?_ ?_; rotate_left; clear_value _y; intro _; rotate_right; subst _y)
      | (rename _ × State => _y; refine Advances.bringSnd _y ?_ ?_; rotate_left; clear_value _y; intro _; rotate_right; subst _y)
      | skip)
    | (apply Advances.into; with_reducible apply State.settleCloses_advances)
    | (apply Advances.intoOnly; with_reducible apply State.modFlight_only)
    | ((with_reducible show (_ || _) = false); exact rfl) | split)

theorem State.onWire_advances (q : Port) (length : Nat) (s : State) :
    Advances s (State.onWire q length s) := by
  unfold State.onWire
  repeat' (first
    | with_reducible exact Advances.refl _ | with_reducible assumption | (extract_lets +onlyGivenNames _x; first
      | (rename State => _y; refine Advances.bring _y ?_ ?_; rotate_left; clear_value _y; intro _; rotate_right; subst _y)
      | (rename _ × State => _y; refine Advances.bringSnd _y ?_ ?_; rotate_left; clear_value _y; intro _; rotate_right; subst _y)
      | skip)
    | (apply Advances.into; with_reducible apply State.waitUntil_advances)
    | (apply Advances.intoOnly; with_reducible apply State.modPort_only)
    | ((with_reducible show (_ || _) = false); exact rfl))

theorem State.judgeFrame_advances (q : Port) (bad : Bool) (begun : Nat) (bytes : Bytes) (s : State) :
    Advances s (State.judgeFrame q bad begun bytes s) := by
  unfold State.judgeFrame
  repeat' (first
    | with_reducible exact Advances.refl _ | with_reducible assumption | (extract_lets +onlyGivenNames _x; first
      | (rename State => _y; refine Advances.bring _y ?_ ?_; rotate_left; clear_value _y; intro _; rotate_right; subst _y)
      | (rename _ × State => _y; refine Advances.bringSnd _y ?_ ?_; rotate_left; clear_value _y; intro _; rotate_right; subst _y)
      | skip)
    | with_reducible apply Advances.ite | (apply Advances.into; first
      | with_reducible apply State.event_advances
      | with_reducible apply State.bridgeFrame_advances)
    | (apply Advances.intoOnly; first
      | with_reducible apply State.bump_only
      | with_reducible apply State.modPort_only
      | with_reducible apply State.handOn_only)
    | ((with_reducible show (_ || _) = false); exact rfl))

theorem State.frameReceived_advances (q : Port) (pkt : MPacket) (err : RxError) (bytes : Bytes) (s : State) :
    Advances s (State.frameReceived q pkt err bytes s) := by
  unfold State.frameReceived
  repeat' (first
    | with_reducible exact Advances.refl _ | with_reducible assumption | (extract_lets +onlyGivenNames _x; first
      | (rename State => _y; refine Advances.bring _y ?_ ?_; rotate_left; clear_value _y; intro _; rotate_right; subst _y)
      | (rename _ × State => _y; refine Advances.bringSnd _y ?_ ?_; rotate_left; clear_value _y; intro _; rotate_right; subst _y)
      | skip)
    | with_reducible apply Advances.ite | with_reducible apply Advances.when | (apply Advances.into; first
      | with_reducible apply State.onWire_advances
      | with_reducible apply State.judgeFrame_advances)
    | (apply Advances.intoOnly; first
      | with_reducible apply State.modPort_only
      | with_reducible apply State.bump_only)
    | ((with_reducible show (_ || _) = false); exact rfl) | split)

theorem State.fwdTimeout_advances (q : Port) (s : State) :
    Advances s (State.fwdTimeout q s) := by
  unfold State.fwdTimeout
  repeat' (first
    | with_reducible exact Advances.refl _ | with_reducible assumption
    | (apply Advances.into; with_reducible apply State.waitUntil_advances) | (apply Advances.intoOnly; first
      | with_reducible apply State.bump_only
      | with_reducible apply State.modPort_only)
    | ((with_reducible show (_ || _) = false); exact rfl) | split)

theorem State.gateStart_advances (q : Port) (s : State) :
    Advances s (State.gateStart q s) := by
  unfold State.gateStart
  repeat' (first
    | with_reducible exact Advances.refl _ | with_reducible assumption | (extract_lets +onlyGivenNames _x; first
      | (rename State => _y; refine Advances.bring _y ?_ ?_; rotate_left; clear_value _y; intro _; rotate_right; subst _y)
      | (rename _ × State => _y; refine Advances.bringSnd _y ?_ ?_; rotate_left; clear_value _y; intro _; rotate_right; subst _y)
      | skip)
    | with_reducible apply Advances.ite | (apply Advances.into; with_reducible apply State.waitTime_advances)
    | (apply Advances.intoOnly; with_reducible apply State.modPort_only)
    | ((with_reducible show (_ || _) = false); exact rfl))

theorem State.gatewayTimer_advances (q : Port) (s : State) :
    Advances s (State.gatewayTimer q s) := by
  unfold State.gatewayTimer
  repeat' (first
    | with_reducible exact Advances.refl _ | with_reducible assumption
    | (apply Advances.into; with_reducible apply State.waitUntil_advances)
    | (apply Advances.intoOnly; with_reducible apply State.askGateway_only)
    | ((with_reducible show (_ || _) = false); exact rfl) | split)

theorem State.syncHeard_advances (q : Port) (seq : Nat) (origin : Nat) (corr : Int) (rate : Int) (interval : Int) (receipt : Nat) (s : State) :
    Advances s (State.syncHeard q seq origin corr rate interval receipt s) := by
  unfold State.syncHeard
  repeat' (first
    | with_reducible exact Advances.refl _ | with_reducible assumption | (extract_lets +onlyGivenNames _x; first
      | (rename State => _y; refine Advances.bring _y ?_ ?_; rotate_left; clear_value _y; intro _; rotate_right; subst _y)
      | (rename _ × State => _y; refine Advances.bringSnd _y ?_ ?_; rotate_left; clear_value _y; intro _; rotate_right; subst _y)
      | skip)
    | with_reducible apply Advances.ite | (apply Advances.into; first
      | with_reducible apply State.correct_advances
      | with_reducible apply State.setSynced_advances)
    | (apply Advances.intoOnly; first
      | with_reducible apply State.modGptp_only
      | with_reducible apply State.modTime_only
      | with_reducible apply State.sendGptp_only)
    | ((with_reducible show (_ || _) = false); exact rfl))

theorem State.gptpReceived_advances (s : State) :
    Advances s (State.gptpReceived s) := by
  unfold State.gptpReceived
  repeat' (first
    | with_reducible exact Advances.refl _ | with_reducible assumption | (extract_lets +onlyGivenNames _x; first
      | (rename State => _y; refine Advances.bring _y ?_ ?_; rotate_left; clear_value _y; intro _; rotate_right; subst _y)
      | (rename _ × State => _y; refine Advances.bringSnd _y ?_ ?_; rotate_left; clear_value _y; intro _; rotate_right; subst _y)
      | skip)
    | with_reducible apply Advances.ite | (apply Advances.into; first
      | with_reducible apply State.selectMaster_advances
      | with_reducible apply State.syncHeard_advances)
    | (apply Advances.intoOnly; first
      | with_reducible apply State.takeFrame_only
      | (with_reducible apply State.takeFrame_only_eq; assumption)
      | with_reducible apply State.sendGptp_only
      | with_reducible apply State.modGptp_only)
    | ((with_reducible show (_ || _) = false); exact rfl) | split)

theorem State.graftBack_advances (cause : Nat) (ns : Nat) (loaded : Bool) (s : State) :
    Advances s (State.graftBack cause ns loaded s) := by
  unfold State.graftBack
  repeat' (first
    | with_reducible exact Advances.refl _ | with_reducible assumption | (extract_lets +onlyGivenNames _x; first
      | (rename State => _y; refine Advances.bring _y ?_ ?_; rotate_left; clear_value _y; intro _; rotate_right; subst _y)
      | (rename _ × State => _y; refine Advances.bringSnd _y ?_ ?_; rotate_left; clear_value _y; intro _; rotate_right; subst _y)
      | skip)
    | with_reducible apply Advances.ite | (apply Advances.into; with_reducible apply State.event_advances)
    | (apply Advances.intoOnly; first
      | with_reducible apply State.modFw_only
      | with_reducible apply State.commitFallback_only)
    | ((with_reducible show (_ || _) = false); exact rfl) | split)

theorem State.graftDone_advances (e : Sess) (f : Flight) (p : Package) (ns : Nat) (s : State) :
    Advances s (State.graftDone e f p ns s) := by
  unfold State.graftDone
  repeat' (first
    | with_reducible exact Advances.refl _ | with_reducible assumption | (extract_lets +onlyGivenNames _x; first
      | (rename State => _y; refine Advances.bring _y ?_ ?_; rotate_left; clear_value _y; intro _; rotate_right; subst _y)
      | (rename _ × State => _y; refine Advances.bringSnd _y ?_ ?_; rotate_left; clear_value _y; intro _; rotate_right; subst _y)
      | skip)
    | (apply Advances.into; first
      | with_reducible apply State.event_advances
      | with_reducible apply State.finish_advances)
    | (apply Advances.intoOnly; first
      | with_reducible apply State.commitTrial_only
      | with_reducible apply State.modFw_only
      | with_reducible apply State.modFlight_only)
    | ((with_reducible show (_ || _) = false); exact rfl))

theorem State.graftFails_advances (e : Sess) (f : Flight) (s : State) :
    Advances s (State.graftFails e f s) := by
  unfold State.graftFails
  repeat' (first
    | with_reducible exact Advances.refl _ | with_reducible assumption | (extract_lets +onlyGivenNames _x; first
      | (rename State => _y; refine Advances.bring _y ?_ ?_; rotate_left; clear_value _y; intro _; rotate_right; subst _y)
      | (rename _ × State => _y; refine Advances.bringSnd _y ?_ ?_; rotate_left; clear_value _y; intro _; rotate_right; subst _y)
      | skip)
    | (apply Advances.into; first
      | with_reducible apply State.finish_advances
      | with_reducible apply State.event_advances)
    | (apply Advances.intoOnly; first
      | with_reducible apply State.markFailed_only
      | with_reducible apply State.modFw_only)
    | ((with_reducible show (_ || _) = false); exact rfl))

theorem State.handover_advances (loaded : Bool) (ns : Nat) (s : State) :
    Advances s (State.handover loaded ns s) := by
  unfold State.handover
  repeat' (first
    | with_reducible exact Advances.refl _ | with_reducible assumption | (extract_lets +onlyGivenNames _x; first
      | (rename State => _y; refine Advances.bring _y ?_ ?_; rotate_left; clear_value _y; intro _; rotate_right; subst _y)
      | (rename _ × State => _y; refine Advances.bringSnd _y ?_ ?_; rotate_left; clear_value _y; intro _; rotate_right; subst _y)
      | skip)
    | with_reducible apply Advances.ite | (apply Advances.into; first
      | with_reducible apply State.graftBack_advances
      | with_reducible apply State.graftDone_advances
      | with_reducible apply State.graftFails_advances)
    | (apply Advances.intoOnly; with_reducible apply State.modFw_only)
    | ((with_reducible show (_ || _) = false); exact rfl) | split)

theorem State.handshakeExpired_advances (sid : Nat) (s : State) :
    Advances s (State.handshakeExpired sid s) := by
  unfold State.handshakeExpired
  repeat' (first
    | with_reducible exact Advances.refl _ | with_reducible assumption | (apply Advances.into; first
      | with_reducible apply State.removeSess_advances
      | with_reducible apply State.waitUntil_advances)
    | split)

theorem State.verifyFails_advances (code : Nat) (e : Sess) (f : Flight) (s : State) :
    Advances s (State.verifyFails code e f s) := by
  unfold State.verifyFails
  repeat' (first
    | with_reducible exact Advances.refl _ | with_reducible assumption | (apply Advances.into; first
      | with_reducible apply State.finish_advances
      | with_reducible apply State.refusePackage_advances)
    | (apply Advances.intoOnly; with_reducible apply State.abortJobs_only)
    | ((with_reducible show (_ || _) = false); exact rfl) | split)

theorem State.hashesPass_advances (e : Sess) (f : Flight) (d : Download) (s : State) :
    Advances s (State.hashesPass e f d s) := by
  unfold State.hashesPass
  repeat' (first
    | with_reducible exact Advances.refl _ | with_reducible assumption | (extract_lets +onlyGivenNames _x; first
      | (rename State => _y; refine Advances.bring _y ?_ ?_; rotate_left; clear_value _y; intro _; rotate_right; subst _y)
      | (rename _ × State => _y; refine Advances.bringSnd _y ?_ ?_; rotate_left; clear_value _y; intro _; rotate_right; subst _y)
      | skip)
    | with_reducible apply Advances.ite | (apply Advances.into; with_reducible apply State.verifyFails_advances)
    | (apply Advances.intoOnly; first
      | with_reducible apply State.writeCommit_only
      | with_reducible apply State.modFw_only
      | with_reducible apply State.sayAdmin_only)
    | ((with_reducible show (_ || _) = false); exact rfl))

theorem State.runRangeDelete_advances (e : Sess) (f : Flight) (start : Bytes) (end_ : Option Bytes) (most : Nat) (s : State) :
    Advances s (State.runRangeDelete e f start end_ most s) := by
  unfold State.runRangeDelete
  repeat' (first
    | with_reducible exact Advances.refl _ | with_reducible assumption | (extract_lets +onlyGivenNames _x; first
      | (rename State => _y; refine Advances.bring _y ?_ ?_; rotate_left; clear_value _y; intro _; rotate_right; subst _y)
      | (rename _ × State => _y; refine Advances.bringSnd _y ?_ ?_; rotate_left; clear_value _y; intro _; rotate_right; subst _y)
      | skip)
    | (apply Advances.into; with_reducible apply State.endRangeDelete_advances) | (apply Advances.intoOnly; first
      | with_reducible apply State.modSes_only
      | (with_reducible apply State.windbreak_only; assumption)
      | with_reducible apply State.modStore_only
      | with_reducible apply State.commit_only
      | with_reducible apply State.expireRange_only
      | with_reducible apply State.stageExtent_only)
    | ((with_reducible show (_ || _) = false); exact rfl) | split)

theorem State.loseVersion_advances (r : RequestRef) (t : Nat) (k : Bytes) (num : Nat) (s : State) :
    Advances s (State.loseVersion r t k num s) := by
  unfold State.loseVersion
  repeat' (first
    | with_reducible exact Advances.refl _ | with_reducible assumption | with_reducible apply Advances.ite
    | (apply Advances.into; with_reducible apply State.losePage_advances) | split)

theorem State.keepInStart_advances (s : State) :
    Advances s (State.keepInStart s) := by
  unfold State.keepInStart
  repeat' (first
    | with_reducible exact Advances.refl _ | with_reducible assumption | with_reducible apply Advances.ite
    | (apply Advances.into; with_reducible apply State.drainNow_advances)
    | (apply Advances.intoOnly; with_reducible apply State.keepCompletions_only)
    | ((with_reducible show (_ || _) = false); exact rfl))

theorem State.endHeld_advances (sid : Nat) (msgId : Nat) (o : MediaOutcome) (s : State) :
    Advances s (State.endHeld sid msgId o s) := by
  unfold State.endHeld
  repeat' (first
    | with_reducible exact Advances.refl _ | with_reducible assumption | (extract_lets +onlyGivenNames _x; first
      | (rename State => _y; refine Advances.bring _y ?_ ?_; rotate_left; clear_value _y; intro _; rotate_right; subst _y)
      | (rename _ × State => _y; refine Advances.bringSnd _y ?_ ?_; rotate_left; clear_value _y; intro _; rotate_right; subst _y)
      | skip)
    | with_reducible apply Advances.ite | with_reducible apply Advances.when | (apply Advances.into; first
      | with_reducible apply State.loseVersion_advances
      | with_reducible apply State.finish_advances
      | with_reducible apply State.runRangeDelete_advances)
    | (apply Advances.intoOnly; first
      | with_reducible apply State.tookRead_only
      | with_reducible apply State.modStore_only
      | with_reducible apply State.modSes_only)
    | ((with_reducible show (_ || _) = false); exact rfl) | split)

theorem State.heldComplete_advances (sid : Nat) (msgId : Nat) (o : MediaOutcome) (s : State) :
    Advances s (State.heldComplete sid msgId o s) := by
  unfold State.heldComplete
  repeat' (first
    | with_reducible exact Advances.refl _ | (apply Advances.into; first
      | with_reducible apply State.keepInStart_advances
      | with_reducible apply State.endHeld_advances))

theorem State.historyInterval_advances (mean : Int) (s : State) :
    Advances s (State.historyInterval mean s) := by
  unfold State.historyInterval
  repeat' (first
    | with_reducible exact Advances.refl _ | with_reducible assumption | (extract_lets +onlyGivenNames _x; first
      | (rename State => _y; refine Advances.bring _y ?_ ?_; rotate_left; clear_value _y; intro _; rotate_right; subst _y)
      | (rename _ × State => _y; refine Advances.bringSnd _y ?_ ?_; rotate_left; clear_value _y; intro _; rotate_right; subst _y)
      | skip)
    | with_reducible apply Advances.ite | (apply Advances.into; with_reducible apply State.waitUntil_advances)
    | (apply Advances.intoOnly; with_reducible apply State.modAdmin_only)
    | ((with_reducible show (_ || _) = false); exact rfl))

theorem State.holdReset_advances (reference : Bool) (env : StartEnv) (s : State) :
    Advances s (State.holdReset reference env s) := by
  unfold State.holdReset
  repeat' (first
    | with_reducible exact Advances.refl _ | with_reducible assumption | with_reducible apply Advances.ite
    | (apply Advances.into; with_reducible apply State.coldClear_advances)
    | (apply Advances.intoOnly; with_reducible apply State.modStart_only)
    | ((with_reducible show (_ || _) = false); exact rfl))

theorem State.holdEnds_advances (resetLow : Bool) (vinSeen : Bool) (env : StartEnv) (s : State) :
    Advances s (State.holdEnds resetLow vinSeen env s) := by
  unfold State.holdEnds
  repeat' (first
    | with_reducible exact Advances.refl _ | with_reducible assumption | (extract_lets +onlyGivenNames _x; first
      | (rename State => _y; refine Advances.bring _y ?_ ?_; rotate_left; clear_value _y; intro _; rotate_right; subst _y)
      | (rename _ × State => _y; refine Advances.bringSnd _y ?_ ?_; rotate_left; clear_value _y; intro _; rotate_right; subst _y)
      | skip)
    | with_reducible apply Advances.ite | (apply Advances.into; first
      | with_reducible apply State.finishDusk_advances
      | with_reducible apply State.runStart_advances
      | with_reducible apply State.beginCold_advances
      | with_reducible apply State.holdReset_advances
      | with_reducible apply State.beginRun_advances
      | with_reducible apply State.waitUntil_advances)
    | (apply Advances.intoOnly; first
      | with_reducible apply State.leaveDusk_only
      | with_reducible apply State.switchOff_only
      | with_reducible apply State.modPower_only
      | with_reducible apply State.modReg_only
      | with_reducible apply State.setMode_only)
    | ((with_reducible show (_ || _) = false); exact rfl) | split)

theorem State.jobEnds_advances (j : ScanJob) (s : State) :
    Advances s (State.jobEnds j s) := by
  unfold State.jobEnds
  repeat' (first
    | with_reducible exact Advances.refl _ | with_reducible assumption | (extract_lets +onlyGivenNames _x; first
      | (rename State => _y; refine Advances.bring _y ?_ ?_; rotate_left; clear_value _y; intro _; rotate_right; subst _y)
      | (rename _ × State => _y; refine Advances.bringSnd _y ?_ ?_; rotate_left; clear_value _y; intro _; rotate_right; subst _y)
      | skip)
    | with_reducible apply Advances.ite | (apply Advances.into; first
      | with_reducible apply State.verifyFails_advances
      | with_reducible apply State.hashesPass_advances)
    | (apply Advances.intoOnly; first
      | with_reducible apply State.modWatch_only
      | with_reducible apply State.abortJobs_only)
    | ((with_reducible show (_ || _) = false); exact rfl) | split)

theorem State.waitForFlush_advances (s : State) :
    Advances s (State.waitForFlush s) := by
  unfold State.waitForFlush
  repeat' (first
    | with_reducible exact Advances.refl _ | with_reducible assumption | with_reducible apply Advances.ite
    | (apply Advances.into; with_reducible apply State.waitUntil_advances) | split)

theorem State.journalFlush_advances (s : State) :
    Advances s (State.journalFlush s) := by
  unfold State.journalFlush
  repeat' (first
    | with_reducible exact Advances.refl _ | with_reducible assumption | (extract_lets +onlyGivenNames _x; first
      | (rename State => _y; refine Advances.bring _y ?_ ?_; rotate_left; clear_value _y; intro _; rotate_right; subst _y)
      | (rename _ × State => _y; refine Advances.bringSnd _y ?_ ?_; rotate_left; clear_value _y; intro _; rotate_right; subst _y)
      | skip)
    | with_reducible apply Advances.ite | (apply Advances.into; first
      | with_reducible apply State.writeEntry_advances
      | with_reducible apply State.waitForFlush_advances)
    | (apply Advances.intoOnly; with_reducible apply State.kickAll_only)
    | ((with_reducible show (_ || _) = false); exact rfl))

theorem State.keepalive_advances (sid : Nat) (msgId : Nat) (s : State) :
    Advances s (State.keepalive sid msgId s) := by
  unfold State.keepalive
  repeat' (first
    | with_reducible exact Advances.refl _ | with_reducible assumption | (extract_lets +onlyGivenNames _x; first
      | (rename State => _y; refine Advances.bring _y ?_ ?_; rotate_left; clear_value _y; intro _; rotate_right; subst _y)
      | (rename _ × State => _y; refine Advances.bringSnd _y ?_ ?_; rotate_left; clear_value _y; intro _; rotate_right; subst _y)
      | skip)
    | (apply Advances.into; first
      | with_reducible apply State.takeRequest_advances
      | (with_reducible apply State.takeRequest_advances_eq; assumption)
      | with_reducible apply State.fail_advances
      | with_reducible apply State.finish_advances)
    | split)

theorem State.riskEntered_advances (j : Int) (s : State) :
    Advances s (State.riskEntered j s) := by
  unfold State.riskEntered
  repeat' (first
    | with_reducible exact Advances.refl _ | with_reducible assumption | with_reducible apply Advances.ite
    | (apply Advances.into; with_reducible apply State.event_advances) | (apply Advances.intoOnly; first
      | with_reducible apply State.modAdmin_only
      | with_reducible apply State.modPower_only)
    | ((with_reducible show (_ || _) = false); exact rfl))

theorem State.risk_advances (j : Int) (pace : Bool) (s : State) :
    Advances s (State.risk j pace s) := by
  unfold State.risk
  repeat' (first
    | with_reducible exact Advances.refl _ | with_reducible assumption | (extract_lets +onlyGivenNames _x; first
      | (rename State => _y; refine Advances.bring _y ?_ ?_; rotate_left; clear_value _y; intro _; rotate_right; subst _y)
      | (rename _ × State => _y; refine Advances.bringSnd _y ?_ ?_; rotate_left; clear_value _y; intro _; rotate_right; subst _y)
      | skip)
    | with_reducible apply Advances.ite | (apply Advances.into; with_reducible apply State.riskEntered_advances)
    | (apply Advances.intoOnly; first
      | with_reducible apply State.modPower_only
      | with_reducible apply State.noteJunction_only)
    | ((with_reducible show (_ || _) = false); exact rfl))

theorem State.lapse_advances (j : Int) (pace : Bool) (s : State) :
    Advances s (State.lapse j pace s) := by
  unfold State.lapse
  repeat' (first
    | with_reducible exact Advances.refl _ | with_reducible assumption | (extract_lets +onlyGivenNames _x; first
      | (rename State => _y; refine Advances.bring _y ?_ ?_; rotate_left; clear_value _y; intro _; rotate_right; subst _y)
      | (rename _ × State => _y; refine Advances.bringSnd _y ?_ ?_; rotate_left; clear_value _y; intro _; rotate_right; subst _y)
      | skip)
    | with_reducible apply Advances.ite | (apply Advances.into; first
      | with_reducible apply State.risk_advances
      | with_reducible apply State.event_advances)
    | (apply Advances.intoOnly; with_reducible apply State.modPower_only)
    | ((with_reducible show (_ || _) = false); exact rfl))

theorem State.limitClose_advances (s : State) :
    Advances s (State.limitClose s) := by
  unfold State.limitClose
  repeat' (first
    | with_reducible exact Advances.refl _ | with_reducible assumption
    | (apply Advances.into; with_reducible apply State.waitUntil_advances)
    | (apply Advances.intoOnly; with_reducible apply State.modStart_only)
    | ((with_reducible show (_ || _) = false); exact rfl) | split)

theorem State.linkUp_advances (q : Port) (speed : Nat) (resolved : Bool) (s : State) :
    Advances s (State.linkUp q speed resolved s) := by
  unfold State.linkUp
  repeat' (first
    | with_reducible exact Advances.refl _ | with_reducible assumption | with_reducible apply Advances.ite
    | (apply Advances.into; with_reducible apply State.bringUp_advances))

theorem State.lockDrained_advances (s : State) :
    Advances s (State.lockDrained s) := by
  unfold State.lockDrained
  repeat' (first
    | with_reducible exact Advances.refl _ | with_reducible assumption | with_reducible apply Advances.ite
    | (apply Advances.into; with_reducible apply State.drainNow_advances) | (apply Advances.intoOnly; first
      | with_reducible apply State.modStore_only
      | with_reducible apply State.modSec_only)
    | ((with_reducible show (_ || _) = false); exact rfl))

theorem State.refuseLy1_advances (a : Ask) (status : Nat) (reason : Nat) (range : Bool) (s : State) :
    Advances s (State.refuseLy1 a status reason range s) := by
  unfold State.refuseLy1
  repeat' (first
    | with_reducible exact Advances.refl _ | with_reducible assumption | with_reducible apply Advances.ite
    | (apply Advances.into; with_reducible apply State.finishLy1_advances) | (apply Advances.intoOnly; first
      | with_reducible apply State.say_only
      | with_reducible apply State.modFlight_only
      | with_reducible apply State.openImage_only)
    | ((with_reducible show (_ || _) = false); exact rfl) | split)

end Sys2Proof.Machine
end

