-- ==== Sys2Proof/Laws/Advances4.lean ====
section
/-!
SUPPORT. Every operation that touches the clock, START_COUNT or the logs advances, one lemma for each, callees before callers;
part 4 of 4.
-/
set_option linter.tactic.unusedName false
set_option linter.unusedSimpArgs false
namespace Sys2Proof.Machine

theorem State.ndReceived_advances (s : State) :
    Advances s (State.ndReceived s) := by
  unfold State.ndReceived
  repeat' (first
    | with_reducible exact Advances.refl _ | with_reducible assumption | (extract_lets +onlyGivenNames _x; first
      | (rename State => _y; refine Advances.bring _y ?_ ?_; rotate_left; clear_value _y; intro _; rotate_right; subst _y)
      | (rename _ × State => _y; refine Advances.bringSnd _y ?_ ?_; rotate_left; clear_value _y; intro _; rotate_right; subst _y)
      | skip)
    | with_reducible apply Advances.ite | (apply Advances.into; with_reducible apply State.conflict_advances)
    | (apply Advances.intoOnly; first
      | with_reducible apply State.takeFrame_only
      | (with_reducible apply State.takeFrame_only_eq; assumption)
      | with_reducible apply State.sendRaw_only)
    | ((with_reducible show (_ || _) = false); exact rfl) | split)

theorem State.oscillated_advances (ch : Nat) (o : OscEvent) (s : State) :
    Advances s (State.oscillated ch o s) := by
  unfold State.oscillated
  repeat' (first
    | with_reducible exact Advances.refl _ | with_reducible assumption
    | (apply Advances.into; with_reducible apply State.event_advances) | split)

theorem State.overheated_advances (junction : Int) (paid : Bool) (s : State) :
    Advances s (State.overheated junction paid s) := by
  unfold State.overheated
  repeat' (first
    | with_reducible exact Advances.refl _ | with_reducible assumption | (extract_lets +onlyGivenNames _x; first
      | (rename State => _y; refine Advances.bring _y ?_ ?_; rotate_left; clear_value _y; intro _; rotate_right; subst _y)
      | (rename _ × State => _y; refine Advances.bringSnd _y ?_ ?_; rotate_left; clear_value _y; intro _; rotate_right; subst _y)
      | skip)
    | with_reducible apply Advances.ite | (apply Advances.into; first
      | with_reducible apply State.commitDusk_advances
      | with_reducible apply State.deferEvent_advances)
    | (apply Advances.intoOnly; first
      | with_reducible apply State.modPower_only
      | with_reducible apply State.noteJunction_only
      | with_reducible apply State.modAdmin_only)
    | ((with_reducible show (_ || _) = false); exact rfl))

theorem State.overvolted_advances (vin : Nat) (paid : Bool) (s : State) :
    Advances s (State.overvolted vin paid s) := by
  unfold State.overvolted
  repeat' (first
    | with_reducible exact Advances.refl _ | with_reducible assumption | with_reducible apply Advances.ite
    | (apply Advances.into; with_reducible apply State.supplyDusk_advances))

theorem State.pauseAgain_advances (q : Port) (s : State) :
    Advances s (State.pauseAgain q s) := by
  unfold State.pauseAgain
  repeat' (first
    | with_reducible exact Advances.refl _ | with_reducible assumption | (extract_lets +onlyGivenNames _x; first
      | (rename State => _y; refine Advances.bring _y ?_ ?_; rotate_left; clear_value _y; intro _; rotate_right; subst _y)
      | (rename _ × State => _y; refine Advances.bringSnd _y ?_ ?_; rotate_left; clear_value _y; intro _; rotate_right; subst _y)
      | skip)
    | (apply Advances.into; with_reducible apply State.waitUntil_advances)
    | (apply Advances.intoOnly; with_reducible apply State.modPort_only)
    | ((with_reducible show (_ || _) = false); exact rfl) | split)

theorem State.pauseOver_advances (q : Port) (s : State) :
    Advances s (State.pauseOver q s) := by
  unfold State.pauseOver
  repeat' (first
    | with_reducible exact Advances.refl _ | with_reducible assumption
    | (apply Advances.into; with_reducible apply State.waitUntil_advances)
    | (apply Advances.intoOnly; with_reducible apply State.modPort_only)
    | ((with_reducible show (_ || _) = false); exact rfl) | split)

theorem State.pdelayRequest_advances (s : State) :
    Advances s (State.pdelayRequest s) := by
  unfold State.pdelayRequest
  repeat' (first
    | with_reducible exact Advances.refl _ | with_reducible assumption | (extract_lets +onlyGivenNames _x; first
      | (rename State => _y; refine Advances.bring _y ?_ ?_; rotate_left; clear_value _y; intro _; rotate_right; subst _y)
      | (rename _ × State => _y; refine Advances.bringSnd _y ?_ ?_; rotate_left; clear_value _y; intro _; rotate_right; subst _y)
      | skip)
    | with_reducible apply Advances.ite | with_reducible apply Advances.when
    | (apply Advances.into; with_reducible apply State.waitUntil_advances) | (apply Advances.intoOnly; first
      | with_reducible apply State.sendGptp_only
      | with_reducible apply State.modGptp_only
      | with_reducible apply State.modTime_only)
    | ((with_reducible show (_ || _) = false); exact rfl))

theorem State.warned_advances (cause : BraceCause) (s : State) :
    Advances s (State.warned cause s) := by
  unfold State.warned
  repeat' (first
    | with_reducible exact Advances.refl _ | with_reducible assumption | (apply Advances.into; first
      | with_reducible apply State.event_advances
      | with_reducible apply State.enterBrace_advances)
    | (apply Advances.intoOnly; with_reducible apply State.modPower_only)
    | ((with_reducible show (_ || _) = false); exact rfl) | split)

theorem State.pfwWarned_advances (s : State) :
    Advances s (State.pfwWarned s) := by
  unfold State.pfwWarned
  repeat' (first
    | with_reducible exact Advances.refl _ | with_reducible assumption | with_reducible apply Advances.ite
    | (apply Advances.into; with_reducible apply State.warned_advances)
    | (apply Advances.intoOnly; with_reducible apply State.modPower_only)
    | ((with_reducible show (_ || _) = false); exact rfl))

theorem State.plainRow_advances (opcode : Nat) (sid : Nat) (msgId : Nat) (s : State) :
    Advances s (State.plainRow opcode sid msgId s) := by
  unfold State.plainRow
  repeat' (first
    | with_reducible exact Advances.refl _ | with_reducible assumption | (extract_lets +onlyGivenNames _x; first
      | (rename State => _y; refine Advances.bring _y ?_ ?_; rotate_left; clear_value _y; intro _; rotate_right; subst _y)
      | (rename _ × State => _y; refine Advances.bringSnd _y ?_ ?_; rotate_left; clear_value _y; intro _; rotate_right; subst _y)
      | skip)
    | (apply Advances.into; first
      | with_reducible apply State.takeRequest_advances
      | (with_reducible apply State.takeRequest_advances_eq; assumption)
      | with_reducible apply State.finish_advances)
    | (apply Advances.intoOnly; with_reducible apply State.askAdmin_only)
    | ((with_reducible show (_ || _) = false); exact rfl) | split)

theorem State.portCloses_advances (env : StartEnv) (s : State) :
    Advances s (State.portCloses env s) := by
  unfold State.portCloses
  repeat' (first
    | with_reducible exact Advances.refl _ | with_reducible assumption | (extract_lets +onlyGivenNames _x; first
      | (rename State => _y; refine Advances.bring _y ?_ ?_; rotate_left; clear_value _y; intro _; rotate_right; subst _y)
      | (rename _ × State => _y; refine Advances.bringSnd _y ?_ ?_; rotate_left; clear_value _y; intro _; rotate_right; subst _y)
      | skip)
    | with_reducible apply Advances.ite | (apply Advances.into; first
      | with_reducible apply State.runStart_advances
      | with_reducible apply State.beginCold_advances
      | with_reducible apply State.stopRecord_advances
      | with_reducible apply State.quiesce_advances)
    | (apply Advances.intoOnly; first
      | with_reducible apply State.modStart_only
      | with_reducible apply State.modSec_only
      | with_reducible apply State.startWatch_only)
    | ((with_reducible show (_ || _) = false); exact rfl))

theorem State.sealForPort_advances (s : State) :
    Advances s (State.sealForPort s) := by
  unfold State.sealForPort
  repeat' (first
    | with_reducible exact Advances.refl _ | with_reducible assumption | with_reducible apply Advances.ite
    | (apply Advances.into; first
      | with_reducible apply State.eraseAll_advances
      | with_reducible apply State.event_advances
      | with_reducible apply State.sealErased_advances)
    | (apply Advances.intoOnly; with_reducible apply State.enter_only)
    | ((with_reducible show (_ || _) = false); exact rfl))

theorem State.portOpens_advances (s : State) :
    Advances s (State.portOpens s) := by
  unfold State.portOpens
  repeat' (first
    | with_reducible exact Advances.refl _ | with_reducible assumption | (extract_lets +onlyGivenNames _x; first
      | (rename State => _y; refine Advances.bring _y ?_ ?_; rotate_left; clear_value _y; intro _; rotate_right; subst _y)
      | (rename _ × State => _y; refine Advances.bringSnd _y ?_ ?_; rotate_left; clear_value _y; intro _; rotate_right; subst _y)
      | skip)
    | with_reducible apply Advances.ite | (apply Advances.into; first
      | with_reducible apply State.awaken_advances
      | with_reducible apply State.sealForPort_advances)
    | (apply Advances.intoOnly; first
      | with_reducible apply State.stopWatch_only
      | with_reducible apply State.modStart_only)
    | ((with_reducible show (_ || _) = false); exact rfl))

theorem State.ppsUse_advances (stamp : Nat) (s : State) :
    Advances s (State.ppsUse stamp s) := by
  unfold State.ppsUse
  repeat' (first
    | with_reducible exact Advances.refl _ | with_reducible assumption | (extract_lets +onlyGivenNames _x; first
      | (rename State => _y; refine Advances.bring _y ?_ ?_; rotate_left; clear_value _y; intro _; rotate_right; subst _y)
      | (rename _ × State => _y; refine Advances.bringSnd _y ?_ ?_; rotate_left; clear_value _y; intro _; rotate_right; subst _y)
      | skip)
    | with_reducible apply Advances.ite | (apply Advances.into; first
      | with_reducible apply State.stepTime_advances
      | with_reducible apply State.correct_advances)
    | (apply Advances.intoOnly; first
      | with_reducible apply State.modTime_only
      | with_reducible apply State.ppsReject_only)
    | ((with_reducible show (_ || _) = false); exact rfl) | split)

theorem State.ppsEdge_advances (lowNs : Nat) (highNs : Nat) (s : State) :
    Advances s (State.ppsEdge lowNs highNs s) := by
  unfold State.ppsEdge
  repeat' (first
    | with_reducible exact Advances.refl _ | with_reducible assumption | (extract_lets +onlyGivenNames _x; first
      | (rename State => _y; refine Advances.bring _y ?_ ?_; rotate_left; clear_value _y; intro _; rotate_right; subst _y)
      | (rename _ × State => _y; refine Advances.bringSnd _y ?_ ?_; rotate_left; clear_value _y; intro _; rotate_right; subst _y)
      | skip)
    | with_reducible apply Advances.ite | (apply Advances.into; first
      | with_reducible apply State.ppsUse_advances
      | with_reducible apply State.waitUntil_advances)
    | (apply Advances.intoOnly; first
      | with_reducible apply State.count_only
      | with_reducible apply State.modTime_only)
    | ((with_reducible show (_ || _) = false); exact rfl))

theorem State.ppsFall_advances (s : State) :
    Advances s (State.ppsFall s) := by
  unfold State.ppsFall
  repeat' (first
    | with_reducible exact Advances.refl _ | with_reducible assumption
    | (apply Advances.into; with_reducible apply State.waitUntil_advances)
    | (apply Advances.intoOnly; with_reducible apply State.modTime_only)
    | ((with_reducible show (_ || _) = false); exact rfl) | split)

theorem State.ppsOut_advances (s : State) :
    Advances s (State.ppsOut s) := by
  unfold State.ppsOut
  repeat' (first
    | with_reducible exact Advances.refl _ | with_reducible assumption | (extract_lets +onlyGivenNames _x; first
      | (rename State => _y; refine Advances.bring _y ?_ ?_; rotate_left; clear_value _y; intro _; rotate_right; subst _y)
      | (rename _ × State => _y; refine Advances.bringSnd _y ?_ ?_; rotate_left; clear_value _y; intro _; rotate_right; subst _y)
      | skip)
    | with_reducible apply Advances.ite | (apply Advances.into; with_reducible apply State.waitTime_advances)
    | (apply Advances.intoOnly; with_reducible apply State.modTime_only)
    | ((with_reducible show (_ || _) = false); exact rfl) | split)

theorem State.promote_advances (op : Nat) (s : State) :
    Advances s (State.promote op s) := by
  unfold State.promote
  repeat' (first
    | with_reducible exact Advances.refl _ | with_reducible assumption | with_reducible apply Advances.ite
    | (apply Advances.into; with_reducible apply State.waitUntil_advances)
    | (apply Advances.intoOnly; with_reducible apply State.modMedia_only)
    | ((with_reducible show (_ || _) = false); exact rfl) | split)

theorem State.readFails_advances (a : Ask) (p : Ly1Body) (i : Nat) (s : State) :
    Advances s (State.readFails a p i s) := by
  unfold State.readFails
  repeat' (first
    | with_reducible exact Advances.refl _ | with_reducible assumption | (extract_lets +onlyGivenNames _x; first
      | (rename State => _y; refine Advances.bring _y ?_ ?_; rotate_left; clear_value _y; intro _; rotate_right; subst _y)
      | (rename _ × State => _y; refine Advances.bringSnd _y ?_ ?_; rotate_left; clear_value _y; intro _; rotate_right; subst _y)
      | skip)
    | (apply Advances.into; with_reducible apply State.finishLy1_advances))

theorem State.readKnown_advances (lost : Option Nat) (a : Ask) (p : Ly1Body) (s : State) :
    Advances s (State.readKnown lost a p s) := by
  unfold State.readKnown
  repeat' (first
    | with_reducible exact Advances.refl _ | with_reducible assumption | (apply Advances.into; first
      | with_reducible apply State.readFails_advances
      | with_reducible apply State.finishLy1_advances)
    | split)

theorem State.readSectors_advances (o : SectorOutcome) (a : Ask) (p : Ly1Body) (s : State) :
    Advances s (State.readSectors o a p s) := by
  unfold State.readSectors
  repeat' (first
    | with_reducible exact Advances.refl _ | with_reducible assumption | (extract_lets +onlyGivenNames _x; first
      | (rename State => _y; refine Advances.bring _y ?_ ?_; rotate_left; clear_value _y; intro _; rotate_right; subst _y)
      | (rename _ × State => _y; refine Advances.bringSnd _y ?_ ?_; rotate_left; clear_value _y; intro _; rotate_right; subst _y)
      | skip)
    | with_reducible apply Advances.ite | (apply Advances.into; first
      | with_reducible apply State.readKnown_advances
      | with_reducible apply State.loseVersion_advances
      | with_reducible apply State.readFails_advances
      | with_reducible apply State.checkMismatch_advances)
    | (apply Advances.intoOnly; first
      | with_reducible apply State.hardSector_only
      | with_reducible apply State.countSectors_only)
    | ((with_reducible show (_ || _) = false); exact rfl) | (with_reducible apply Advances.foldl; (intro _ _)) | split)

theorem State.readyEntry_advances (s : State) :
    Advances s (State.readyEntry s) := by
  unfold State.readyEntry
  repeat' (first
    | with_reducible exact Advances.refl _ | with_reducible assumption | with_reducible apply Advances.ite
    | (apply Advances.into; with_reducible apply State.enterTop_advances) | split)

theorem State.rearm_advances (s : State) :
    Advances s (State.rearm s) := by
  unfold State.rearm
  repeat' (first
    | with_reducible exact Advances.refl _ | with_reducible assumption | (extract_lets +onlyGivenNames _x; first
      | (rename State => _y; refine Advances.bring _y ?_ ?_; rotate_left; clear_value _y; intro _; rotate_right; subst _y)
      | (rename _ × State => _y; refine Advances.bringSnd _y ?_ ?_; rotate_left; clear_value _y; intro _; rotate_right; subst _y)
      | skip)
    | with_reducible apply Advances.ite | (apply Advances.into; with_reducible apply State.waitUntil_advances)
    | (apply Advances.intoOnly; with_reducible apply State.modPower_only)
    | ((with_reducible show (_ || _) = false); exact rfl) | split)

theorem State.referenceBack_advances (env : StartEnv) (s : State) :
    Advances s (State.referenceBack env s) := by
  unfold State.referenceBack
  repeat' (first
    | with_reducible exact Advances.refl _ | with_reducible assumption | (extract_lets +onlyGivenNames _x; first
      | (rename State => _y; refine Advances.bring _y ?_ ?_; rotate_left; clear_value _y; intro _; rotate_right; subst _y)
      | (rename _ × State => _y; refine Advances.bringSnd _y ?_ ?_; rotate_left; clear_value _y; intro _; rotate_right; subst _y)
      | skip)
    | with_reducible apply Advances.ite | (apply Advances.into; first
      | with_reducible apply State.runStart_advances
      | with_reducible apply State.beginCold_advances)
    | (apply Advances.intoOnly; with_reducible apply State.modPower_only)
    | ((with_reducible show (_ || _) = false); exact rfl))

theorem State.referenceLost_advances (paid : Bool) (s : State) :
    Advances s (State.referenceLost paid s) := by
  unfold State.referenceLost
  repeat' (first
    | with_reducible exact Advances.refl _ | with_reducible assumption | (extract_lets +onlyGivenNames _x; first
      | (rename State => _y; refine Advances.bring _y ?_ ?_; rotate_left; clear_value _y; intro _; rotate_right; subst _y)
      | (rename _ × State => _y; refine Advances.bringSnd _y ?_ ?_; rotate_left; clear_value _y; intro _; rotate_right; subst _y)
      | skip)
    | with_reducible apply Advances.ite | (apply Advances.into; first
      | with_reducible apply State.commitDusk_advances
      | with_reducible apply State.deferEvent_advances)
    | (apply Advances.intoOnly; with_reducible apply State.modPower_only)
    | ((with_reducible show (_ || _) = false); exact rfl))

theorem State.resetHeld_advances (s : State) :
    Advances s (State.resetHeld s) := by
  unfold State.resetHeld
  repeat' (first
    | with_reducible exact Advances.refl _ | with_reducible assumption | with_reducible apply Advances.ite
    | (apply Advances.into; first
      | with_reducible apply State.coldClear_advances
      | with_reducible apply State.waitUntil_advances)
    | (apply Advances.intoOnly; with_reducible apply State.modStart_only)
    | ((with_reducible show (_ || _) = false); exact rfl) | split)

theorem State.resetReleased_advances (env : StartEnv) (s : State) :
    Advances s (State.resetReleased env s) := by
  unfold State.resetReleased
  repeat' (first
    | with_reducible exact Advances.refl _ | with_reducible assumption | (extract_lets +onlyGivenNames _x; first
      | (rename State => _y; refine Advances.bring _y ?_ ?_; rotate_left; clear_value _y; intro _; rotate_right; subst _y)
      | (rename _ × State => _y; refine Advances.bringSnd _y ?_ ?_; rotate_left; clear_value _y; intro _; rotate_right; subst _y)
      | skip)
    | with_reducible apply Advances.ite | (apply Advances.into; first
      | with_reducible apply State.resetHeld_advances
      | with_reducible apply State.runStart_advances
      | with_reducible apply State.beginCold_advances
      | with_reducible apply State.beginRun_advances
      | with_reducible apply State.restartWarm_advances)
    | (apply Advances.intoOnly; with_reducible apply State.modStart_only)
    | ((with_reducible show (_ || _) = false); exact rfl) | split)

theorem State.resetSeen_advances (s : State) :
    Advances s (State.resetSeen s) := by
  unfold State.resetSeen
  repeat' (first
    | with_reducible exact Advances.refl _ | with_reducible assumption | with_reducible apply Advances.ite
    | (apply Advances.into; first
      | with_reducible apply State.holdEnds_advances
      | with_reducible apply State.orderlyStop_advances)
    | (apply Advances.intoOnly; with_reducible apply State.noteResetLow_only)
    | ((with_reducible show (_ || _) = false); exact rfl) | split)

theorem State.retryProgram_advances (id : Nat) (s : State) :
    Advances s (State.retryProgram id s) := by
  unfold State.retryProgram
  repeat' (first
    | with_reducible exact Advances.refl _ | with_reducible assumption | with_reducible apply Advances.ite
    | (apply Advances.into; with_reducible apply State.waitUntil_advances) | (apply Advances.intoOnly; first
      | with_reducible apply State.requestDrain_only
      | with_reducible apply State.modStore_only)
    | ((with_reducible show (_ || _) = false); exact rfl) | split)

theorem State.riskCleared_advances (j : Int) (s : State) :
    Advances s (State.riskCleared j s) := by
  unfold State.riskCleared
  repeat' (first
    | with_reducible exact Advances.refl _ | with_reducible assumption | with_reducible apply Advances.ite
    | (apply Advances.into; with_reducible apply State.event_advances) | (apply Advances.intoOnly; first
      | with_reducible apply State.modPower_only
      | with_reducible apply State.noteJunction_only)
    | ((with_reducible show (_ || _) = false); exact rfl))

theorem State.runBegin_advances (a : Ask) (op : AdminOp) (s : State) :
    Advances s (State.runBegin a op s) := by
  unfold State.runBegin
  repeat' (first
    | with_reducible exact Advances.refl _ | with_reducible assumption | with_reducible apply Advances.ite
    | (apply Advances.into; first
      | with_reducible apply State.finish_advances
      | with_reducible apply State.refusePackage_advances)
    | (apply Advances.intoOnly; with_reducible apply State.askAdmin_only)
    | ((with_reducible show (_ || _) = false); exact rfl) | split)

theorem State.runDelete_advances (x : Admitted) (s : State) :
    Advances s (State.runDelete x s) := by
  unfold State.runDelete
  repeat' (first
    | with_reducible exact Advances.refl _ | with_reducible assumption | (extract_lets +onlyGivenNames _x; first
      | (rename State => _y; refine Advances.bring _y ?_ ?_; rotate_left; clear_value _y; intro _; rotate_right; subst _y)
      | (rename _ × State => _y; refine Advances.bringSnd _y ?_ ?_; rotate_left; clear_value _y; intro _; rotate_right; subst _y)
      | skip)
    | with_reducible apply Advances.ite | (apply Advances.into; first
      | with_reducible apply State.fail_advances
      | with_reducible apply State.finish_advances)
    | (apply Advances.intoOnly; first
      | with_reducible apply State.expirePin_only
      | (with_reducible apply State.windbreak_only; assumption)
      | with_reducible apply State.modStore_only
      | with_reducible apply State.commit_only
      | with_reducible apply State.stageExtent_only)
    | ((with_reducible show (_ || _) = false); exact rfl) | split)

theorem State.runGet_advances (x : Admitted) (s : State) :
    Advances s (State.runGet x s) := by
  unfold State.runGet
  repeat' (first
    | with_reducible exact Advances.refl _ | with_reducible assumption | (extract_lets +onlyGivenNames _x; first
      | (rename State => _y; refine Advances.bring _y ?_ ?_; rotate_left; clear_value _y; intro _; rotate_right; subst _y)
      | (rename _ × State => _y; refine Advances.bringSnd _y ?_ ?_; rotate_left; clear_value _y; intro _; rotate_right; subst _y)
      | skip)
    | with_reducible apply Advances.ite | (apply Advances.into; first
      | with_reducible apply State.fail_advances
      | with_reducible apply State.finish_advances)
    | (apply Advances.intoOnly; first
      | with_reducible apply State.expirePin_only
      | with_reducible apply State.hold_only
      | with_reducible apply State.requestRead_only)
    | ((with_reducible show (_ || _) = false); exact rfl) | split)

theorem State.runGraft_advances (a : Ask) (x1 : AdminOp) (s : State) :
    Advances s (State.runGraft a x1 s) := by
  unfold State.runGraft
  repeat' (first
    | with_reducible exact Advances.refl _ | with_reducible assumption
    | (apply Advances.into; with_reducible apply State.abortTest_advances) | (apply Advances.intoOnly; first
      | with_reducible apply State.startWork_only
      | (with_reducible apply State.startWork_only_eq; assumption)
      | with_reducible apply State.modFw_only)
    | ((with_reducible show (_ || _) = false); exact rfl) | split)

theorem State.runPin_advances (x : Admitted) (s : State) :
    Advances s (State.runPin x s) := by
  unfold State.runPin
  repeat' (first
    | with_reducible exact Advances.refl _ | with_reducible assumption | (extract_lets +onlyGivenNames _x; first
      | (rename State => _y; refine Advances.bring _y ?_ ?_; rotate_left; clear_value _y; intro _; rotate_right; subst _y)
      | (rename _ × State => _y; refine Advances.bringSnd _y ?_ ?_; rotate_left; clear_value _y; intro _; rotate_right; subst _y)
      | skip)
    | with_reducible apply Advances.ite | (apply Advances.into; first
      | with_reducible apply State.fail_advances
      | with_reducible apply State.finish_advances)
    | (apply Advances.intoOnly; first
      | with_reducible apply State.expirePin_only
      | with_reducible apply State.modFlight_only
      | with_reducible apply State.mapChanged_only
      | with_reducible apply State.modStore_only
      | with_reducible apply State.hold_only
      | with_reducible apply State.requestRead_only)
    | ((with_reducible show (_ || _) = false); exact rfl) | split)

theorem State.runRange_advances (del : Bool) (x : Admitted) (s : State) :
    Advances s (State.runRange del x s) := by
  unfold State.runRange
  repeat' (first
    | with_reducible exact Advances.refl _ | with_reducible assumption | (extract_lets +onlyGivenNames _x; first
      | (rename State => _y; refine Advances.bring _y ?_ ?_; rotate_left; clear_value _y; intro _; rotate_right; subst _y)
      | (rename _ × State => _y; refine Advances.bringSnd _y ?_ ?_; rotate_left; clear_value _y; intro _; rotate_right; subst _y)
      | skip)
    | with_reducible apply Advances.ite | (apply Advances.into; first
      | with_reducible apply State.fail_advances
      | with_reducible apply State.finish_advances)
    | (apply Advances.intoOnly; with_reducible apply State.askLock_only)
    | ((with_reducible show (_ || _) = false); exact rfl) | split)

theorem State.runUnpin_advances (x : Admitted) (s : State) :
    Advances s (State.runUnpin x s) := by
  unfold State.runUnpin
  repeat' (first
    | with_reducible exact Advances.refl _ | with_reducible assumption | (extract_lets +onlyGivenNames _x; first
      | (rename State => _y; refine Advances.bring _y ?_ ?_; rotate_left; clear_value _y; intro _; rotate_right; subst _y)
      | (rename _ × State => _y; refine Advances.bringSnd _y ?_ ?_; rotate_left; clear_value _y; intro _; rotate_right; subst _y)
      | skip)
    | (apply Advances.into; first
      | with_reducible apply State.fail_advances
      | with_reducible apply State.finish_advances)
    | (apply Advances.intoOnly; first
      | with_reducible apply State.mapChanged_only
      | with_reducible apply State.modStore_only
      | with_reducible apply State.modFlight_only)
    | ((with_reducible show (_ || _) = false); exact rfl) | split)

theorem State.runVerify_advances (a : Ask) (op : AdminOp) (s : State) :
    Advances s (State.runVerify a op s) := by
  unfold State.runVerify
  repeat' (first
    | with_reducible exact Advances.refl _ | with_reducible assumption | (extract_lets +onlyGivenNames _x; first
      | (rename State => _y; refine Advances.bring _y ?_ ?_; rotate_left; clear_value _y; intro _; rotate_right; subst _y)
      | (rename _ × State => _y; refine Advances.bringSnd _y ?_ ?_; rotate_left; clear_value _y; intro _; rotate_right; subst _y)
      | skip)
    | (apply Advances.into; first
      | with_reducible apply State.finish_advances
      | with_reducible apply State.refusePackage_advances)
    | (apply Advances.intoOnly; first
      | with_reducible apply State.startWork_only
      | (with_reducible apply State.startWork_only_eq; assumption)
      | with_reducible apply State.submitVerify_only
      | with_reducible apply State.modFw_only
      | with_reducible apply State.abortJobs_only)
    | ((with_reducible show (_ || _) = false); exact rfl) | split)

theorem State.runWrite_advances (append : Bool) (early : Bool) (x : Admitted) (poison : Option Nat) (s : State) :
    Advances s (State.runWrite append early x poison s) := by
  unfold State.runWrite
  repeat' (first
    | with_reducible exact Advances.refl _ | with_reducible assumption | (extract_lets +onlyGivenNames _x; first
      | (rename State => _y; refine Advances.bring _y ?_ ?_; rotate_left; clear_value _y; intro _; rotate_right; subst _y)
      | (rename _ × State => _y; refine Advances.bringSnd _y ?_ ?_; rotate_left; clear_value _y; intro _; rotate_right; subst _y)
      | skip)
    | with_reducible apply Advances.ite | (apply Advances.into; first
      | with_reducible apply State.fail_advances
      | with_reducible apply State.finish_advances
      | with_reducible apply State.eventFor_advances)
    | (apply Advances.intoOnly; first
      | with_reducible apply State.expirePin_only
      | (with_reducible apply State.windbreak_only; assumption)
      | with_reducible apply State.commit_only
      | with_reducible apply State.storeVersion_only
      | with_reducible apply State.modFlight_only)
    | ((with_reducible show (_ || _) = false); exact rfl) | split)

theorem State.sampleCh0_advances (pace : Int) (s : State) :
    Advances s (State.sampleCh0 pace s) := by
  unfold State.sampleCh0
  repeat' (first
    | with_reducible exact Advances.refl _ | with_reducible assumption | (extract_lets +onlyGivenNames _x; first
      | (rename State => _y; refine Advances.bring _y ?_ ?_; rotate_left; clear_value _y; intro _; rotate_right; subst _y)
      | (rename _ × State => _y; refine Advances.bringSnd _y ?_ ?_; rotate_left; clear_value _y; intro _; rotate_right; subst _y)
      | skip)
    | with_reducible apply Advances.ite | (apply Advances.into; with_reducible apply State.oscillated_advances)
    | (apply Advances.intoOnly; with_reducible apply State.modReg_only)
    | ((with_reducible show (_ || _) = false); exact rfl) | split)

theorem State.chargeSample_advances (mv : Nat) (s : State) :
    Advances s (State.chargeSample mv s) := by
  unfold State.chargeSample
  repeat' (first
    | with_reducible exact Advances.refl _ | with_reducible assumption | (extract_lets +onlyGivenNames _x; first
      | (rename State => _y; refine Advances.bring _y ?_ ?_; rotate_left; clear_value _y; intro _; rotate_right; subst _y)
      | (rename _ × State => _y; refine Advances.bringSnd _y ?_ ?_; rotate_left; clear_value _y; intro _; rotate_right; subst _y)
      | skip)
    | with_reducible apply Advances.ite | (apply Advances.into; first
      | with_reducible apply State.oscillated_advances
      | with_reducible apply State.ch1Fails_advances)
    | (apply Advances.intoOnly; with_reducible apply State.modReg_only)
    | ((with_reducible show (_ || _) = false); exact rfl) | split)

theorem State.sampleCh1_advances (mv : Nat) (s : State) :
    Advances s (State.sampleCh1 mv s) := by
  unfold State.sampleCh1
  repeat' (first
    | with_reducible exact Advances.refl _ | with_reducible assumption | (extract_lets +onlyGivenNames _x; first
      | (rename State => _y; refine Advances.bring _y ?_ ?_; rotate_left; clear_value _y; intro _; rotate_right; subst _y)
      | (rename _ × State => _y; refine Advances.bringSnd _y ?_ ?_; rotate_left; clear_value _y; intro _; rotate_right; subst _y)
      | skip)
    | with_reducible apply Advances.ite | (apply Advances.into; with_reducible apply State.chargeSample_advances)
    | (apply Advances.intoOnly; first
      | with_reducible apply State.noteBank_only
      | with_reducible apply State.noteRate_only)
    | ((with_reducible show (_ || _) = false); exact rfl))

theorem State.sampleLoops_advances (junction : Int) (pace : Int) (s : State) :
    Advances s (State.sampleLoops junction pace s) := by
  unfold State.sampleLoops
  repeat' (first
    | with_reducible exact Advances.refl _ | with_reducible assumption | (extract_lets +onlyGivenNames _x; first
      | (rename State => _y; refine Advances.bring _y ?_ ?_; rotate_left; clear_value _y; intro _; rotate_right; subst _y)
      | (rename _ × State => _y; refine Advances.bringSnd _y ?_ ?_; rotate_left; clear_value _y; intro _; rotate_right; subst _y)
      | skip)
    | with_reducible apply Advances.ite | (apply Advances.into; with_reducible apply State.oscillated_advances)
    | (apply Advances.intoOnly; first
      | with_reducible apply State.noteJunction_only
      | with_reducible apply State.stirSegments_only
      | with_reducible apply State.modReg_only)
    | ((with_reducible show (_ || _) = false); exact rfl) | (with_reducible apply Advances.foldl; (intro _ _)))

theorem State.scanComplete_advances (own : Option (Nat × Bool)) (s : State) :
    Advances s (State.scanComplete own s) := by
  unfold State.scanComplete
  repeat' (first
    | with_reducible exact Advances.refl _ | with_reducible assumption | with_reducible apply Advances.ite
    | (apply Advances.into; first
      | with_reducible apply State.event_advances
      | with_reducible apply State.jobEnds_advances)
    | split)

theorem State.scrubDue_advances (b : BlockId) (s : State) :
    Advances s (State.scrubDue b s) := by
  unfold State.scrubDue
  repeat' (first
    | with_reducible exact Advances.refl _ | with_reducible assumption | (extract_lets +onlyGivenNames _x; first
      | (rename State => _y; refine Advances.bring _y ?_ ?_; rotate_left; clear_value _y; intro _; rotate_right; subst _y)
      | (rename _ × State => _y; refine Advances.bringSnd _y ?_ ?_; rotate_left; clear_value _y; intro _; rotate_right; subst _y)
      | skip)
    | with_reducible apply Advances.ite | (apply Advances.into; with_reducible apply State.waitUntil_advances)
    | (apply Advances.intoOnly; first
      | with_reducible apply State.addOp_only
      | with_reducible apply State.kick_only
      | with_reducible apply State.modMedia_only)
    | ((with_reducible show (_ || _) = false); exact rfl) | split)

theorem State.securityRow_advances (opcode : Nat) (sid : Nat) (msgId : Nat) (s : State) :
    Advances s (State.securityRow opcode sid msgId s) := by
  unfold State.securityRow
  repeat' (first
    | with_reducible exact Advances.refl _ | with_reducible assumption | (extract_lets +onlyGivenNames _x; first
      | (rename State => _y; refine Advances.bring _y ?_ ?_; rotate_left; clear_value _y; intro _; rotate_right; subst _y)
      | (rename _ × State => _y; refine Advances.bringSnd _y ?_ ?_; rotate_left; clear_value _y; intro _; rotate_right; subst _y)
      | skip)
    | (apply Advances.into; first
      | with_reducible apply State.takeRequest_advances
      | (with_reducible apply State.takeRequest_advances_eq; assumption)
      | with_reducible apply State.finish_advances)
    | (apply Advances.intoOnly; with_reducible apply State.askAdmin_only)
    | ((with_reducible show (_ || _) = false); exact rfl) | split)

theorem State.segmentCut_advances (sid : Nat) (msgId : Nat) (s : State) :
    Advances s (State.segmentCut sid msgId s) := by
  unfold State.segmentCut
  repeat' (first
    | with_reducible exact Advances.refl _ | with_reducible assumption | (extract_lets +onlyGivenNames _x; first
      | (rename State => _y; refine Advances.bring _y ?_ ?_; rotate_left; clear_value _y; intro _; rotate_right; subst _y)
      | (rename _ × State => _y; refine Advances.bringSnd _y ?_ ?_; rotate_left; clear_value _y; intro _; rotate_right; subst _y)
      | skip)
    | with_reducible apply Advances.ite | (apply Advances.into; first
      | with_reducible apply State.waitUntil_advances
      | with_reducible apply State.cutWrite_advances)
    | (apply Advances.intoOnly; (with_reducible apply State.windbreak_only; assumption))
    | ((with_reducible show (_ || _) = false); exact rfl) | split)

theorem State.stageSegment_advances (e : Sess) (a : Assembly) (f : Flight) (k : Bytes) (v : Version) (base : Option (Nat × Nat)) (n : Nat) (s : State) :
    Advances s (State.stageSegment e a f k v base n s) := by
  unfold State.stageSegment
  repeat' (first
    | with_reducible exact Advances.refl _ | with_reducible assumption | (extract_lets +onlyGivenNames _x; first
      | (rename State => _y; refine Advances.bring _y ?_ ?_; rotate_left; clear_value _y; intro _; rotate_right; subst _y)
      | (rename _ × State => _y; refine Advances.bringSnd _y ?_ ?_; rotate_left; clear_value _y; intro _; rotate_right; subst _y)
      | skip)
    | with_reducible apply Advances.ite | (apply Advances.into; first
      | with_reducible apply State.finish_advances
      | with_reducible apply State.wake_advances)
    | (apply Advances.intoOnly; first
      | with_reducible apply State.stageExtent_only
      | with_reducible apply State.putOpen_only
      | with_reducible apply State.freeStaged_only
      | with_reducible apply State.takeMessage_only
      | with_reducible apply State.modFlight_only)
    | ((with_reducible show (_ || _) = false); exact rfl))

theorem State.judgeSegment_advances (o : Open) (n : Nat) (poison : Option Nat) (s : State) :
    Advances s (State.judgeSegment o n poison s) := by
  unfold State.judgeSegment
  repeat' (first
    | with_reducible exact Advances.refl _ | with_reducible assumption | (apply Advances.into; first
      | with_reducible apply State.cutWrite_advances
      | with_reducible apply State.eventFor_advances
      | with_reducible apply State.stageSegment_advances)
    | (apply Advances.intoOnly; first
      | (with_reducible apply State.windbreak_only; assumption)
      | with_reducible apply State.holdSegment_only)
    | ((with_reducible show (_ || _) = false); exact rfl) | split)

theorem State.segmentStage_advances (sid : Nat) (msgId : Nat) (poison : Option Nat) (s : State) :
    Advances s (State.segmentStage sid msgId poison s) := by
  unfold State.segmentStage
  repeat' (first
    | with_reducible exact Advances.refl _ | with_reducible assumption | with_reducible apply Advances.ite
    | (apply Advances.into; first
      | with_reducible apply State.keepInStart_advances
      | with_reducible apply State.judgeSegment_advances
      | with_reducible apply State.waitUntil_advances)
    | split)

theorem State.sessionClose_advances (s : State) :
    Advances s (State.sessionClose s) := by
  unfold State.sessionClose
  repeat' (first
    | with_reducible exact Advances.refl _ | with_reducible assumption | (extract_lets +onlyGivenNames _x; first
      | (rename State => _y; refine Advances.bring _y ?_ ?_; rotate_left; clear_value _y; intro _; rotate_right; subst _y)
      | (rename _ × State => _y; refine Advances.bringSnd _y ?_ ?_; rotate_left; clear_value _y; intro _; rotate_right; subst _y)
      | skip)
    | with_reducible apply Advances.ite | (apply Advances.into; first
      | with_reducible apply State.settleCloses_advances
      | with_reducible apply State.cancelAll_advances)
    | (apply Advances.intoOnly; first
      | with_reducible apply State.takeFrame_only
      | (with_reducible apply State.takeFrame_only_eq; assumption)
      | with_reducible apply State.noteAdmission_only
      | with_reducible apply State.modSess_only
      | with_reducible apply State.dropAssemblies_only)
    | ((with_reducible show (_ || _) = false); exact rfl) | split)

theorem State.sessionConfirm_advances (tampered : Bool) (s : State) :
    Advances s (State.sessionConfirm tampered s) := by
  unfold State.sessionConfirm
  repeat' (first
    | with_reducible exact Advances.refl _ | with_reducible assumption | (extract_lets +onlyGivenNames _x; first
      | (rename State => _y; refine Advances.bring _y ?_ ?_; rotate_left; clear_value _y; intro _; rotate_right; subst _y)
      | (rename _ × State => _y; refine Advances.bringSnd _y ?_ ?_; rotate_left; clear_value _y; intro _; rotate_right; subst _y)
      | skip)
    | with_reducible apply Advances.ite | (apply Advances.into; with_reducible apply State.removeSess_advances)
    | (apply Advances.intoOnly; first
      | with_reducible apply State.takeFrame_only
      | (with_reducible apply State.takeFrame_only_eq; assumption)
      | with_reducible apply State.sayRefusal_only
      | with_reducible apply State.answerConfirm_only
      | with_reducible apply State.modSess_only
      | with_reducible apply State.count_only)
    | ((with_reducible show (_ || _) = false); exact rfl) | split)

theorem State.sgmiiStatus_advances (q : Port) (up : Bool) (speed : Nat) (full : Bool) (s : State) :
    Advances s (State.sgmiiStatus q up speed full s) := by
  unfold State.sgmiiStatus
  repeat' (first
    | with_reducible exact Advances.refl _ | with_reducible assumption | (extract_lets +onlyGivenNames _x; first
      | (rename State => _y; refine Advances.bring _y ?_ ?_; rotate_left; clear_value _y; intro _; rotate_right; subst _y)
      | (rename _ × State => _y; refine Advances.bringSnd _y ?_ ?_; rotate_left; clear_value _y; intro _; rotate_right; subst _y)
      | skip)
    | with_reducible apply Advances.ite | (apply Advances.into; first
      | with_reducible apply State.linkDown_advances
      | with_reducible apply State.event_advances
      | with_reducible apply State.bringUp_advances)
    | (apply Advances.intoOnly; with_reducible apply State.modPort_only)
    | ((with_reducible show (_ || _) = false); exact rfl))

theorem State.wakeUp_advances (source : Nat) (s : State) :
    Advances s (State.wakeUp source s) := by
  unfold State.wakeUp
  repeat' (first
    | with_reducible exact Advances.refl _ | with_reducible assumption | (extract_lets +onlyGivenNames _x; first
      | (rename State => _y; refine Advances.bring _y ?_ ?_; rotate_left; clear_value _y; intro _; rotate_right; subst _y)
      | (rename _ × State => _y; refine Advances.bringSnd _y ?_ ?_; rotate_left; clear_value _y; intro _; rotate_right; subst _y)
      | skip)
    | with_reducible apply Advances.ite | (apply Advances.into; with_reducible apply State.awaken_advances)
    | (apply Advances.intoOnly; first
      | with_reducible apply State.beginSeries_only
      | with_reducible apply State.setMode_only
      | with_reducible apply State.kickAll_only)
    | ((with_reducible show (_ || _) = false); exact rfl) | split)

theorem State.sleepNow_advances (m : Mode) (s : State) :
    Advances s (State.sleepNow m s) := by
  unfold State.sleepNow
  repeat' (first
    | with_reducible exact Advances.refl _ | with_reducible assumption | (extract_lets +onlyGivenNames _x; first
      | (rename State => _y; refine Advances.bring _y ?_ ?_; rotate_left; clear_value _y; intro _; rotate_right; subst _y)
      | (rename _ × State => _y; refine Advances.bringSnd _y ?_ ?_; rotate_left; clear_value _y; intro _; rotate_right; subst _y)
      | skip)
    | (apply Advances.into; first
      | with_reducible apply State.writeEntry_advances
      | with_reducible apply State.drainNow_advances
      | with_reducible apply State.event_advances)
    | (apply Advances.intoOnly; first
      | with_reducible apply State.stopWatch_only
      | with_reducible apply State.abortJobs_only
      | with_reducible apply State.modNet_only
      | with_reducible apply State.modReg_only
      | with_reducible apply State.modStart_only
      | with_reducible apply State.modPower_only
      | with_reducible apply State.setMode_only)
    | ((with_reducible show (_ || _) = false); exact rfl))

theorem State.sleepComplete_advances (wakeHigh : Bool) (s : State) :
    Advances s (State.sleepComplete wakeHigh s) := by
  unfold State.sleepComplete
  repeat' (first
    | with_reducible exact Advances.refl _ | with_reducible assumption | (extract_lets +onlyGivenNames _x; first
      | (rename State => _y; refine Advances.bring _y ?_ ?_; rotate_left; clear_value _y; intro _; rotate_right; subst _y)
      | (rename _ × State => _y; refine Advances.bringSnd _y ?_ ?_; rotate_left; clear_value _y; intro _; rotate_right; subst _y)
      | skip)
    | with_reducible apply Advances.ite | (apply Advances.into; first
      | with_reducible apply State.sleepNow_advances
      | with_reducible apply State.wakeUp_advances)
    | split)

theorem State.snapshotExpired_advances (id : Nat) (s : State) :
    Advances s (State.snapshotExpired id s) := by
  unfold State.snapshotExpired
  repeat' (first
    | with_reducible exact Advances.refl _ | with_reducible assumption
    | (apply Advances.into; with_reducible apply State.waitUntil_advances)
    | (apply Advances.intoOnly; with_reducible apply State.modAdmin_only)
    | ((with_reducible show (_ || _) = false); exact rfl) | split)

theorem State.svcIgnored_advances (len : Nat) (s : State) :
    Advances s (State.svcIgnored len s) := by
  unfold State.svcIgnored
  repeat' (first
    | with_reducible exact Advances.refl _ | with_reducible assumption | with_reducible apply Advances.ite
    | (apply Advances.into; with_reducible apply State.event_advances) | (apply Advances.intoOnly; first
      | with_reducible apply State.modStart_only
      | with_reducible apply State.draw_only
      | (with_reducible apply State.draw_only_eq; assumption)
      | with_reducible apply State.count_only)
    | ((with_reducible show (_ || _) = false); exact rfl) | split)

theorem State.sweep_advances (s : State) :
    Advances s (State.sweep s) := by
  unfold State.sweep
  repeat' (first
    | with_reducible exact Advances.refl _ | with_reducible assumption | (extract_lets +onlyGivenNames _x; first
      | (rename State => _y; refine Advances.bring _y ?_ ?_; rotate_left; clear_value _y; intro _; rotate_right; subst _y)
      | (rename _ × State => _y; refine Advances.bringSnd _y ?_ ?_; rotate_left; clear_value _y; intro _; rotate_right; subst _y)
      | skip)
    | with_reducible apply Advances.ite | (apply Advances.into; with_reducible apply State.waitUntil_advances)
    | (apply Advances.intoOnly; first
      | with_reducible apply State.modStore_only
      | with_reducible apply State.mapChanged_only)
    | ((with_reducible show (_ || _) = false); exact rfl))

theorem State.syncSend_advances (s : State) :
    Advances s (State.syncSend s) := by
  unfold State.syncSend
  repeat' (first
    | with_reducible exact Advances.refl _ | with_reducible assumption | (extract_lets +onlyGivenNames _x; first
      | (rename State => _y; refine Advances.bring _y ?_ ?_; rotate_left; clear_value _y; intro _; rotate_right; subst _y)
      | (rename _ × State => _y; refine Advances.bringSnd _y ?_ ?_; rotate_left; clear_value _y; intro _; rotate_right; subst _y)
      | skip)
    | with_reducible apply Advances.ite | (apply Advances.into; with_reducible apply State.waitUntil_advances)
    | (apply Advances.intoOnly; first
      | with_reducible apply State.sendGptp_only
      | with_reducible apply State.modTime_only)
    | ((with_reducible show (_ || _) = false); exact rfl))

theorem State.syncTimeout_advances (s : State) :
    Advances s (State.syncTimeout s) := by
  unfold State.syncTimeout
  repeat' (first
    | with_reducible exact Advances.refl _ | with_reducible assumption | (apply Advances.into; first
      | with_reducible apply State.setSynced_advances
      | with_reducible apply State.waitUntil_advances)
    | (apply Advances.intoOnly; first
      | with_reducible apply State.modTime_only
      | with_reducible apply State.modGptp_only)
    | ((with_reducible show (_ || _) = false); exact rfl) | split)

theorem State.tamperSample_advances (r : TamperReading) (s : State) :
    Advances s (State.tamperSample r s) := by
  unfold State.tamperSample
  repeat' (first
    | with_reducible exact Advances.refl _ | with_reducible assumption | (extract_lets +onlyGivenNames _x; first
      | (rename State => _y; refine Advances.bring _y ?_ ?_; rotate_left; clear_value _y; intro _; rotate_right; subst _y)
      | (rename _ × State => _y; refine Advances.bringSnd _y ?_ ?_; rotate_left; clear_value _y; intro _; rotate_right; subst _y)
      | skip)
    | with_reducible apply Advances.ite | (apply Advances.into; first
      | with_reducible apply State.alarmAsleep_advances
      | with_reducible apply State.alarm_advances)
    | (apply Advances.intoOnly; first
      | with_reducible apply State.judgeLoop_only
      | (with_reducible apply State.judgeLoop_only_eq; assumption)
      | with_reducible apply State.modSec_only)
    | ((with_reducible show (_ || _) = false); exact rfl) | split)

theorem State.testEnds_advances (r : TestRecord) (c : BankClass) (s : State) :
    Advances s (State.testEnds r c s) := by
  unfold State.testEnds
  repeat' (first
    | with_reducible exact Advances.refl _ | with_reducible assumption | (extract_lets +onlyGivenNames _x; first
      | (rename State => _y; refine Advances.bring _y ?_ ?_; rotate_left; clear_value _y; intro _; rotate_right; subst _y)
      | (rename _ × State => _y; refine Advances.bringSnd _y ?_ ?_; rotate_left; clear_value _y; intro _; rotate_right; subst _y)
      | skip)
    | with_reducible apply Advances.ite | (apply Advances.into; first
      | with_reducible apply State.setClass_advances
      | with_reducible apply State.event_advances)
    | (apply Advances.intoOnly; first
      | with_reducible apply State.modPower_only
      | with_reducible apply State.leaveReady_only
      | with_reducible apply State.resumeCharge_only)
    | ((with_reducible show (_ || _) = false); exact rfl))

theorem State.testComplete_advances (stepMv : Nat) (fallUs : Nat) (s : State) :
    Advances s (State.testComplete stepMv fallUs s) := by
  unfold State.testComplete
  repeat' (first
    | with_reducible exact Advances.refl _ | with_reducible assumption | (extract_lets +onlyGivenNames _x; first
      | (rename State => _y; refine Advances.bring _y ?_ ?_; rotate_left; clear_value _y; intro _; rotate_right; subst _y)
      | (rename _ × State => _y; refine Advances.bringSnd _y ?_ ?_; rotate_left; clear_value _y; intro _; rotate_right; subst _y)
      | skip)
    | with_reducible apply Advances.ite | (apply Advances.into; first
      | with_reducible apply State.waitUntil_advances
      | with_reducible apply State.testEnds_advances)
    | (apply Advances.intoOnly; with_reducible apply State.modPower_only)
    | ((with_reducible show (_ || _) = false); exact rfl) | split)

theorem State.testStart_advances (s : State) :
    Advances s (State.testStart s) := by
  unfold State.testStart
  repeat' (first
    | with_reducible exact Advances.refl _ | with_reducible assumption | (extract_lets +onlyGivenNames _x; first
      | (rename State => _y; refine Advances.bring _y ?_ ?_; rotate_left; clear_value _y; intro _; rotate_right; subst _y)
      | (rename _ × State => _y; refine Advances.bringSnd _y ?_ ?_; rotate_left; clear_value _y; intro _; rotate_right; subst _y)
      | skip)
    | with_reducible apply Advances.ite | (apply Advances.into; with_reducible apply State.waitUntil_advances)
    | (apply Advances.intoOnly; first
      | with_reducible apply State.modPower_only
      | with_reducible apply State.modReg_only)
    | ((with_reducible show (_ || _) = false); exact rfl) | split)

theorem State.testTimeout_advances (s : State) :
    Advances s (State.testTimeout s) := by
  unfold State.testTimeout
  repeat' (first
    | with_reducible exact Advances.refl _ | with_reducible assumption | (extract_lets +onlyGivenNames _x; first
      | (rename State => _y; refine Advances.bring _y ?_ ?_; rotate_left; clear_value _y; intro _; rotate_right; subst _y)
      | (rename _ × State => _y; refine Advances.bringSnd _y ?_ ?_; rotate_left; clear_value _y; intro _; rotate_right; subst _y)
      | skip)
    | (apply Advances.into; first
      | with_reducible apply State.waitUntil_advances
      | with_reducible apply State.testEnds_advances)
    | split)

theorem State.verifyDone_advances (q : Port) (ok : Bool) (s : State) :
    Advances s (State.verifyDone q ok s) := by
  unfold State.verifyDone
  repeat' (first
    | with_reducible exact Advances.refl _ | with_reducible assumption | (extract_lets +onlyGivenNames _x; first
      | (rename State => _y; refine Advances.bring _y ?_ ?_; rotate_left; clear_value _y; intro _; rotate_right; subst _y)
      | (rename _ × State => _y; refine Advances.bringSnd _y ?_ ?_; rotate_left; clear_value _y; intro _; rotate_right; subst _y)
      | skip)
    | with_reducible apply Advances.ite | (apply Advances.into; first
      | with_reducible apply State.event_advances
      | with_reducible apply State.waitUntil_advances)
    | (apply Advances.intoOnly; with_reducible apply State.modPort_only)
    | ((with_reducible show (_ || _) = false); exact rfl))

theorem State.vinOn_advances (resetLow : Bool) (env : StartEnv) (s : State) :
    Advances s (State.vinOn resetLow env s) := by
  unfold State.vinOn
  repeat' (first
    | with_reducible exact Advances.refl _ | with_reducible assumption | (extract_lets +onlyGivenNames _x; first
      | (rename State => _y; refine Advances.bring _y ?_ ?_; rotate_left; clear_value _y; intro _; rotate_right; subst _y)
      | (rename _ × State => _y; refine Advances.bringSnd _y ?_ ?_; rotate_left; clear_value _y; intro _; rotate_right; subst _y)
      | skip)
    | with_reducible apply Advances.ite | (apply Advances.into; first
      | with_reducible apply State.holdReset_advances
      | with_reducible apply State.runStart_advances
      | with_reducible apply State.beginCold_advances)
    | (apply Advances.intoOnly; with_reducible apply State.switchOn_only)
    | ((with_reducible show (_ || _) = false); exact rfl))

theorem State.vinWarned_advances (vin : Nat) (s : State) :
    Advances s (State.vinWarned vin s) := by
  unfold State.vinWarned
  repeat' (first
    | with_reducible exact Advances.refl _ | with_reducible assumption | with_reducible apply Advances.ite
    | (apply Advances.into; with_reducible apply State.warned_advances) | (apply Advances.intoOnly; first
      | with_reducible apply State.noteVin_only
      | with_reducible apply State.modPower_only)
    | ((with_reducible show (_ || _) = false); exact rfl))

theorem State.wakeFrame_advances (s : State) :
    Advances s (State.wakeFrame s) := by
  unfold State.wakeFrame
  repeat' (first
    | with_reducible exact Advances.refl _ | with_reducible assumption | with_reducible apply Advances.ite
    | (apply Advances.into; with_reducible apply State.wakeUp_advances) | (apply Advances.intoOnly; first
      | with_reducible apply State.takeFrame_only
      | (with_reducible apply State.takeFrame_only_eq; assumption))
    | ((with_reducible show (_ || _) = false); exact rfl) | split)

theorem State.watchRunsOut_advances (env : StartEnv) (s : State) :
    Advances s (State.watchRunsOut env s) := by
  unfold State.watchRunsOut
  repeat' (first
    | with_reducible exact Advances.refl _ | with_reducible assumption | with_reducible apply Advances.ite
    | (apply Advances.into; first
      | with_reducible apply State.watchExpires_advances
      | with_reducible apply State.waitUntil_advances))

theorem State.windowEnds_advances (s : State) :
    Advances s (State.windowEnds s) := by
  unfold State.windowEnds
  repeat' (first
    | with_reducible exact Advances.refl _ | with_reducible assumption | with_reducible apply Advances.ite
    | (apply Advances.into; first
      | with_reducible apply State.beginFallback_advances
      | with_reducible apply State.waitUntil_advances)
    | split)

theorem State.write_advances (append : Bool) (sid : Nat) (msgId : Nat) (poison : Option Nat) (s : State) :
    Advances s (State.write append sid msgId poison s) := by
  unfold State.write
  repeat' (first
    | with_reducible exact Advances.refl _ | with_reducible assumption | (extract_lets +onlyGivenNames _x; first
      | (rename State => _y; refine Advances.bring _y ?_ ?_; rotate_left; clear_value _y; intro _; rotate_right; subst _y)
      | (rename _ × State => _y; refine Advances.bringSnd _y ?_ ?_; rotate_left; clear_value _y; intro _; rotate_right; subst _y)
      | skip)
    | with_reducible apply Advances.ite | (apply Advances.into; first
      | with_reducible apply State.judgeRequest_advances
      | (with_reducible apply State.judgeRequest_advances_eq; assumption)
      | with_reducible apply State.runWrite_advances)
    | (apply Advances.intoOnly; first
      | with_reducible apply State.endMessage_only
      | with_reducible apply State.freeStaged_only
      | with_reducible apply State.takeMessage_only)
    | ((with_reducible show (_ || _) = false); exact rfl) | split)

theorem State.writeSectors_advances (poison : Option (Nat × Nat)) (a : Ask) (p : Ly1Body) (s : State) :
    Advances s (State.writeSectors poison a p s) := by
  unfold State.writeSectors
  repeat' (first
    | with_reducible exact Advances.refl _ | with_reducible assumption | (extract_lets +onlyGivenNames _x; first
      | (rename State => _y; refine Advances.bring _y ?_ ?_; rotate_left; clear_value _y; intro _; rotate_right; subst _y)
      | (rename _ × State => _y; refine Advances.bringSnd _y ?_ ?_; rotate_left; clear_value _y; intro _; rotate_right; subst _y)
      | skip)
    | with_reducible apply Advances.ite | (apply Advances.into; first
      | with_reducible apply State.finishLy1_advances
      | with_reducible apply State.eventFor_advances)
    | (apply Advances.intoOnly; first
      | (with_reducible apply State.windbreak_only; assumption)
      | with_reducible apply State.commit_only
      | with_reducible apply State.storeSectors_only)
    | ((with_reducible show (_ || _) = false); exact rfl) | split)

end Sys2Proof.Machine
end

