-- ==== Sys2Proof/Laws/Rows.lean ====
section
/-!
SUPPORT. What the rows of the LY1 commands and of the firmware opcodes can touch, by what their own part touches; and the
updates of one part of the state, field by field.
-/
namespace Sys2Proof.Machine

theorem State.ly1Row_only {l : List Area} {run : Ask → Ly1Body → State → State} (hr : ∀ a p t, Only l t (run a p t))
    (hl : areasIn [.draws, .log, .net, .time, .ses] l = true) (sid msgId op : Nat) (s : State) :
    Only l s (s.ly1Row sid msgId op run) := by
  unfold State.ly1Row
  split
  · exact (State.takeRequest_only_eq (by assumption)).mono (by simp_all [areasIn])
  · have k := (State.takeRequest_only_eq (by assumption)).mono (m := l) (by simp_all [areasIn])
    split
    · exact k.trans ((State.refuseLy1_only _ _ _ _ _).mono (by simp_all [areasIn]))
    · exact k.trans (hr _ _ _)

theorem State.ly1Row_advances {run : Ask → Ly1Body → State → State} (hr : ∀ a p t, Advances t (run a p t))
    (sid msgId op : Nat) (s : State) : Advances s (s.ly1Row sid msgId op run) := by
  unfold State.ly1Row
  split
  · exact State.takeRequest_advances_eq (by assumption)
  · have k := State.takeRequest_advances_eq (by assumption)
    split
    · exact k.trans (State.refuseLy1_advances _ _ _ _ _)
    · exact k.trans (hr _ _ _)

theorem State.firmwareRow_only {l : List Area} {run : Ask → AdminOp → State → State} (hr : ∀ a p t, Only l t (run a p t))
    (hl : areasIn [.log, .net, .time, .ses, .fw] l = true) (opcode sid msgId : Nat) (fails : Bool) (s : State) :
    Only l s (s.firmwareRow opcode sid msgId fails run) := by
  unfold State.firmwareRow
  split
  · exact (State.takeRequest_only_eq (by assumption)).mono (by simp_all [areasIn])
  · have k := (State.takeRequest_only_eq (by assumption)).mono (m := l) (by simp_all [areasIn])
    extract_lets p op0 op t
    have k2 : Only l s t := k.trans ((State.touchDownload_only _ _).mono (by simp_all [areasIn]))
    clear_value t
    split
    · exact k2.trans ((State.finish_only _ _ _ _ _).mono (by simp_all [areasIn]))
    · exact k2.trans (hr _ _ _)

theorem State.firmwareRow_advances {run : Ask → AdminOp → State → State} (hr : ∀ a p t, Advances t (run a p t))
    (opcode sid msgId : Nat) (fails : Bool) (s : State) : Advances s (s.firmwareRow opcode sid msgId fails run) := by
  unfold State.firmwareRow
  split
  · exact State.takeRequest_advances_eq (by assumption)
  · have k := State.takeRequest_advances_eq (by assumption)
    extract_lets p op0 op t
    have k2 : Advances s t := k.trans (Advances.ofOnly (State.touchDownload_only _ _) rfl)
    clear_value t
    split
    · exact k2.trans (State.finish_advances _ _ _ _ _)
    · exact k2.trans (hr _ _ _)

end Sys2Proof.Machine
end

