-- ==== Sys2Proof/Laws/State.lean ====
section
/-!
SUPPORT. Every field of the state after every named update of one part of it, so that no proof unfolds a record update.
-/
namespace Sys2Proof.Machine
@[simp] theorem State.modNet_pending (f : NetState → NetState) (s : State) : (s.modNet f).pending = s.pending := rfl
@[simp] theorem State.modNet_mode (f : NetState → NetState) (s : State) : (s.modNet f).mode = s.mode := rfl
@[simp] theorem State.modNet_elapsed (f : NetState → NetState) (s : State) : (s.modNet f).elapsed = s.elapsed := rfl
@[simp] theorem State.modNet_draws (f : NetState → NetState) (s : State) : (s.modNet f).draws = s.draws := rfl
@[simp] theorem State.modNet_fused (f : NetState → NetState) (s : State) : (s.modNet f).fused = s.fused := rfl
@[simp] theorem State.modNet_cfg (f : NetState → NetState) (s : State) : (s.modNet f).cfg = s.cfg := rfl
@[simp] theorem State.modNet_log (f : NetState → NetState) (s : State) : (s.modNet f).log = s.log := rfl
@[simp] theorem State.modNet_admin (f : NetState → NetState) (s : State) : (s.modNet f).admin = s.admin := rfl
@[simp] theorem State.modNet_net (f : NetState → NetState) (s : State) : (s.modNet f).net = f s.net := rfl
@[simp] theorem State.modNet_time (f : NetState → NetState) (s : State) : (s.modNet f).time = s.time := rfl
@[simp] theorem State.modNet_ses (f : NetState → NetState) (s : State) : (s.modNet f).ses = s.ses := rfl
@[simp] theorem State.modNet_store (f : NetState → NetState) (s : State) : (s.modNet f).store = s.store := rfl
@[simp] theorem State.modNet_power (f : NetState → NetState) (s : State) : (s.modNet f).power = s.power := rfl
@[simp] theorem State.modNet_reg (f : NetState → NetState) (s : State) : (s.modNet f).reg = s.reg := rfl
@[simp] theorem State.modNet_start (f : NetState → NetState) (s : State) : (s.modNet f).start = s.start := rfl
@[simp] theorem State.modNet_media (f : NetState → NetState) (s : State) : (s.modNet f).media = s.media := rfl
@[simp] theorem State.modNet_journal (f : NetState → NetState) (s : State) : (s.modNet f).journal = s.journal := rfl
@[simp] theorem State.modNet_watch (f : NetState → NetState) (s : State) : (s.modNet f).watch = s.watch := rfl
@[simp] theorem State.modNet_sec (f : NetState → NetState) (s : State) : (s.modNet f).sec = s.sec := rfl
@[simp] theorem State.modNet_fw (f : NetState → NetState) (s : State) : (s.modNet f).fw = s.fw := rfl
@[simp] theorem State.modNet_startCount (f : NetState → NetState) (s : State) : (s.modNet f).startCount = s.startCount := rfl

@[simp] theorem State.modTime_pending (f : TimeState → TimeState) (s : State) : (s.modTime f).pending = s.pending := rfl
@[simp] theorem State.modTime_mode (f : TimeState → TimeState) (s : State) : (s.modTime f).mode = s.mode := rfl
@[simp] theorem State.modTime_elapsed (f : TimeState → TimeState) (s : State) : (s.modTime f).elapsed = s.elapsed := rfl
@[simp] theorem State.modTime_draws (f : TimeState → TimeState) (s : State) : (s.modTime f).draws = s.draws := rfl
@[simp] theorem State.modTime_fused (f : TimeState → TimeState) (s : State) : (s.modTime f).fused = s.fused := rfl
@[simp] theorem State.modTime_cfg (f : TimeState → TimeState) (s : State) : (s.modTime f).cfg = s.cfg := rfl
@[simp] theorem State.modTime_log (f : TimeState → TimeState) (s : State) : (s.modTime f).log = s.log := rfl
@[simp] theorem State.modTime_admin (f : TimeState → TimeState) (s : State) : (s.modTime f).admin = s.admin := rfl
@[simp] theorem State.modTime_net (f : TimeState → TimeState) (s : State) : (s.modTime f).net = s.net := rfl
@[simp] theorem State.modTime_time (f : TimeState → TimeState) (s : State) : (s.modTime f).time = f s.time := rfl
@[simp] theorem State.modTime_ses (f : TimeState → TimeState) (s : State) : (s.modTime f).ses = s.ses := rfl
@[simp] theorem State.modTime_store (f : TimeState → TimeState) (s : State) : (s.modTime f).store = s.store := rfl
@[simp] theorem State.modTime_power (f : TimeState → TimeState) (s : State) : (s.modTime f).power = s.power := rfl
@[simp] theorem State.modTime_reg (f : TimeState → TimeState) (s : State) : (s.modTime f).reg = s.reg := rfl
@[simp] theorem State.modTime_start (f : TimeState → TimeState) (s : State) : (s.modTime f).start = s.start := rfl
@[simp] theorem State.modTime_media (f : TimeState → TimeState) (s : State) : (s.modTime f).media = s.media := rfl
@[simp] theorem State.modTime_journal (f : TimeState → TimeState) (s : State) : (s.modTime f).journal = s.journal := rfl
@[simp] theorem State.modTime_watch (f : TimeState → TimeState) (s : State) : (s.modTime f).watch = s.watch := rfl
@[simp] theorem State.modTime_sec (f : TimeState → TimeState) (s : State) : (s.modTime f).sec = s.sec := rfl
@[simp] theorem State.modTime_fw (f : TimeState → TimeState) (s : State) : (s.modTime f).fw = s.fw := rfl
@[simp] theorem State.modTime_startCount (f : TimeState → TimeState) (s : State) : (s.modTime f).startCount = s.startCount := rfl

@[simp] theorem State.modSes_pending (f : SessionState → SessionState) (s : State) : (s.modSes f).pending = s.pending := rfl
@[simp] theorem State.modSes_mode (f : SessionState → SessionState) (s : State) : (s.modSes f).mode = s.mode := rfl
@[simp] theorem State.modSes_elapsed (f : SessionState → SessionState) (s : State) : (s.modSes f).elapsed = s.elapsed := rfl
@[simp] theorem State.modSes_draws (f : SessionState → SessionState) (s : State) : (s.modSes f).draws = s.draws := rfl
@[simp] theorem State.modSes_fused (f : SessionState → SessionState) (s : State) : (s.modSes f).fused = s.fused := rfl
@[simp] theorem State.modSes_cfg (f : SessionState → SessionState) (s : State) : (s.modSes f).cfg = s.cfg := rfl
@[simp] theorem State.modSes_log (f : SessionState → SessionState) (s : State) : (s.modSes f).log = s.log := rfl
@[simp] theorem State.modSes_admin (f : SessionState → SessionState) (s : State) : (s.modSes f).admin = s.admin := rfl
@[simp] theorem State.modSes_net (f : SessionState → SessionState) (s : State) : (s.modSes f).net = s.net := rfl
@[simp] theorem State.modSes_time (f : SessionState → SessionState) (s : State) : (s.modSes f).time = s.time := rfl
@[simp] theorem State.modSes_ses (f : SessionState → SessionState) (s : State) : (s.modSes f).ses = f s.ses := rfl
@[simp] theorem State.modSes_store (f : SessionState → SessionState) (s : State) : (s.modSes f).store = s.store := rfl
@[simp] theorem State.modSes_power (f : SessionState → SessionState) (s : State) : (s.modSes f).power = s.power := rfl
@[simp] theorem State.modSes_reg (f : SessionState → SessionState) (s : State) : (s.modSes f).reg = s.reg := rfl
@[simp] theorem State.modSes_start (f : SessionState → SessionState) (s : State) : (s.modSes f).start = s.start := rfl
@[simp] theorem State.modSes_media (f : SessionState → SessionState) (s : State) : (s.modSes f).media = s.media := rfl
@[simp] theorem State.modSes_journal (f : SessionState → SessionState) (s : State) : (s.modSes f).journal = s.journal := rfl
@[simp] theorem State.modSes_watch (f : SessionState → SessionState) (s : State) : (s.modSes f).watch = s.watch := rfl
@[simp] theorem State.modSes_sec (f : SessionState → SessionState) (s : State) : (s.modSes f).sec = s.sec := rfl
@[simp] theorem State.modSes_fw (f : SessionState → SessionState) (s : State) : (s.modSes f).fw = s.fw := rfl
@[simp] theorem State.modSes_startCount (f : SessionState → SessionState) (s : State) : (s.modSes f).startCount = s.startCount := rfl

@[simp] theorem State.modStore_pending (f : StoreState → StoreState) (s : State) : (s.modStore f).pending = s.pending := rfl
@[simp] theorem State.modStore_mode (f : StoreState → StoreState) (s : State) : (s.modStore f).mode = s.mode := rfl
@[simp] theorem State.modStore_elapsed (f : StoreState → StoreState) (s : State) : (s.modStore f).elapsed = s.elapsed := rfl
@[simp] theorem State.modStore_draws (f : StoreState → StoreState) (s : State) : (s.modStore f).draws = s.draws := rfl
@[simp] theorem State.modStore_fused (f : StoreState → StoreState) (s : State) : (s.modStore f).fused = s.fused := rfl
@[simp] theorem State.modStore_cfg (f : StoreState → StoreState) (s : State) : (s.modStore f).cfg = s.cfg := rfl
@[simp] theorem State.modStore_log (f : StoreState → StoreState) (s : State) : (s.modStore f).log = s.log := rfl
@[simp] theorem State.modStore_admin (f : StoreState → StoreState) (s : State) : (s.modStore f).admin = s.admin := rfl
@[simp] theorem State.modStore_net (f : StoreState → StoreState) (s : State) : (s.modStore f).net = s.net := rfl
@[simp] theorem State.modStore_time (f : StoreState → StoreState) (s : State) : (s.modStore f).time = s.time := rfl
@[simp] theorem State.modStore_ses (f : StoreState → StoreState) (s : State) : (s.modStore f).ses = s.ses := rfl
@[simp] theorem State.modStore_store (f : StoreState → StoreState) (s : State) : (s.modStore f).store = f s.store := rfl
@[simp] theorem State.modStore_power (f : StoreState → StoreState) (s : State) : (s.modStore f).power = s.power := rfl
@[simp] theorem State.modStore_reg (f : StoreState → StoreState) (s : State) : (s.modStore f).reg = s.reg := rfl
@[simp] theorem State.modStore_start (f : StoreState → StoreState) (s : State) : (s.modStore f).start = s.start := rfl
@[simp] theorem State.modStore_media (f : StoreState → StoreState) (s : State) : (s.modStore f).media = s.media := rfl
@[simp] theorem State.modStore_journal (f : StoreState → StoreState) (s : State) : (s.modStore f).journal = s.journal := rfl
@[simp] theorem State.modStore_watch (f : StoreState → StoreState) (s : State) : (s.modStore f).watch = s.watch := rfl
@[simp] theorem State.modStore_sec (f : StoreState → StoreState) (s : State) : (s.modStore f).sec = s.sec := rfl
@[simp] theorem State.modStore_fw (f : StoreState → StoreState) (s : State) : (s.modStore f).fw = s.fw := rfl
@[simp] theorem State.modStore_startCount (f : StoreState → StoreState) (s : State) : (s.modStore f).startCount = s.startCount := rfl

@[simp] theorem State.modPower_pending (f : PowerState → PowerState) (s : State) : (s.modPower f).pending = s.pending := rfl
@[simp] theorem State.modPower_mode (f : PowerState → PowerState) (s : State) : (s.modPower f).mode = s.mode := rfl
@[simp] theorem State.modPower_elapsed (f : PowerState → PowerState) (s : State) : (s.modPower f).elapsed = s.elapsed := rfl
@[simp] theorem State.modPower_draws (f : PowerState → PowerState) (s : State) : (s.modPower f).draws = s.draws := rfl
@[simp] theorem State.modPower_fused (f : PowerState → PowerState) (s : State) : (s.modPower f).fused = s.fused := rfl
@[simp] theorem State.modPower_cfg (f : PowerState → PowerState) (s : State) : (s.modPower f).cfg = s.cfg := rfl
@[simp] theorem State.modPower_log (f : PowerState → PowerState) (s : State) : (s.modPower f).log = s.log := rfl
@[simp] theorem State.modPower_admin (f : PowerState → PowerState) (s : State) : (s.modPower f).admin = s.admin := rfl
@[simp] theorem State.modPower_net (f : PowerState → PowerState) (s : State) : (s.modPower f).net = s.net := rfl
@[simp] theorem State.modPower_time (f : PowerState → PowerState) (s : State) : (s.modPower f).time = s.time := rfl
@[simp] theorem State.modPower_ses (f : PowerState → PowerState) (s : State) : (s.modPower f).ses = s.ses := rfl
@[simp] theorem State.modPower_store (f : PowerState → PowerState) (s : State) : (s.modPower f).store = s.store := rfl
@[simp] theorem State.modPower_power (f : PowerState → PowerState) (s : State) : (s.modPower f).power = f s.power := rfl
@[simp] theorem State.modPower_reg (f : PowerState → PowerState) (s : State) : (s.modPower f).reg = s.reg := rfl
@[simp] theorem State.modPower_start (f : PowerState → PowerState) (s : State) : (s.modPower f).start = s.start := rfl
@[simp] theorem State.modPower_media (f : PowerState → PowerState) (s : State) : (s.modPower f).media = s.media := rfl
@[simp] theorem State.modPower_journal (f : PowerState → PowerState) (s : State) : (s.modPower f).journal = s.journal := rfl
@[simp] theorem State.modPower_watch (f : PowerState → PowerState) (s : State) : (s.modPower f).watch = s.watch := rfl
@[simp] theorem State.modPower_sec (f : PowerState → PowerState) (s : State) : (s.modPower f).sec = s.sec := rfl
@[simp] theorem State.modPower_fw (f : PowerState → PowerState) (s : State) : (s.modPower f).fw = s.fw := rfl
@[simp] theorem State.modPower_startCount (f : PowerState → PowerState) (s : State) : (s.modPower f).startCount = s.startCount := rfl

@[simp] theorem State.modReg_pending (f : RegState → RegState) (s : State) : (s.modReg f).pending = s.pending := rfl
@[simp] theorem State.modReg_mode (f : RegState → RegState) (s : State) : (s.modReg f).mode = s.mode := rfl
@[simp] theorem State.modReg_elapsed (f : RegState → RegState) (s : State) : (s.modReg f).elapsed = s.elapsed := rfl
@[simp] theorem State.modReg_draws (f : RegState → RegState) (s : State) : (s.modReg f).draws = s.draws := rfl
@[simp] theorem State.modReg_fused (f : RegState → RegState) (s : State) : (s.modReg f).fused = s.fused := rfl
@[simp] theorem State.modReg_cfg (f : RegState → RegState) (s : State) : (s.modReg f).cfg = s.cfg := rfl
@[simp] theorem State.modReg_log (f : RegState → RegState) (s : State) : (s.modReg f).log = s.log := rfl
@[simp] theorem State.modReg_admin (f : RegState → RegState) (s : State) : (s.modReg f).admin = s.admin := rfl
@[simp] theorem State.modReg_net (f : RegState → RegState) (s : State) : (s.modReg f).net = s.net := rfl
@[simp] theorem State.modReg_time (f : RegState → RegState) (s : State) : (s.modReg f).time = s.time := rfl
@[simp] theorem State.modReg_ses (f : RegState → RegState) (s : State) : (s.modReg f).ses = s.ses := rfl
@[simp] theorem State.modReg_store (f : RegState → RegState) (s : State) : (s.modReg f).store = s.store := rfl
@[simp] theorem State.modReg_power (f : RegState → RegState) (s : State) : (s.modReg f).power = s.power := rfl
@[simp] theorem State.modReg_reg (f : RegState → RegState) (s : State) : (s.modReg f).reg = f s.reg := rfl
@[simp] theorem State.modReg_start (f : RegState → RegState) (s : State) : (s.modReg f).start = s.start := rfl
@[simp] theorem State.modReg_media (f : RegState → RegState) (s : State) : (s.modReg f).media = s.media := rfl
@[simp] theorem State.modReg_journal (f : RegState → RegState) (s : State) : (s.modReg f).journal = s.journal := rfl
@[simp] theorem State.modReg_watch (f : RegState → RegState) (s : State) : (s.modReg f).watch = s.watch := rfl
@[simp] theorem State.modReg_sec (f : RegState → RegState) (s : State) : (s.modReg f).sec = s.sec := rfl
@[simp] theorem State.modReg_fw (f : RegState → RegState) (s : State) : (s.modReg f).fw = s.fw := rfl
@[simp] theorem State.modReg_startCount (f : RegState → RegState) (s : State) : (s.modReg f).startCount = s.startCount := rfl

@[simp] theorem State.modAdmin_pending (f : AdminState → AdminState) (s : State) : (s.modAdmin f).pending = s.pending := rfl
@[simp] theorem State.modAdmin_mode (f : AdminState → AdminState) (s : State) : (s.modAdmin f).mode = s.mode := rfl
@[simp] theorem State.modAdmin_elapsed (f : AdminState → AdminState) (s : State) : (s.modAdmin f).elapsed = s.elapsed := rfl
@[simp] theorem State.modAdmin_draws (f : AdminState → AdminState) (s : State) : (s.modAdmin f).draws = s.draws := rfl
@[simp] theorem State.modAdmin_fused (f : AdminState → AdminState) (s : State) : (s.modAdmin f).fused = s.fused := rfl
@[simp] theorem State.modAdmin_cfg (f : AdminState → AdminState) (s : State) : (s.modAdmin f).cfg = s.cfg := rfl
@[simp] theorem State.modAdmin_log (f : AdminState → AdminState) (s : State) : (s.modAdmin f).log = s.log := rfl
@[simp] theorem State.modAdmin_admin (f : AdminState → AdminState) (s : State) : (s.modAdmin f).admin = f s.admin := rfl
@[simp] theorem State.modAdmin_net (f : AdminState → AdminState) (s : State) : (s.modAdmin f).net = s.net := rfl
@[simp] theorem State.modAdmin_time (f : AdminState → AdminState) (s : State) : (s.modAdmin f).time = s.time := rfl
@[simp] theorem State.modAdmin_ses (f : AdminState → AdminState) (s : State) : (s.modAdmin f).ses = s.ses := rfl
@[simp] theorem State.modAdmin_store (f : AdminState → AdminState) (s : State) : (s.modAdmin f).store = s.store := rfl
@[simp] theorem State.modAdmin_power (f : AdminState → AdminState) (s : State) : (s.modAdmin f).power = s.power := rfl
@[simp] theorem State.modAdmin_reg (f : AdminState → AdminState) (s : State) : (s.modAdmin f).reg = s.reg := rfl
@[simp] theorem State.modAdmin_start (f : AdminState → AdminState) (s : State) : (s.modAdmin f).start = s.start := rfl
@[simp] theorem State.modAdmin_media (f : AdminState → AdminState) (s : State) : (s.modAdmin f).media = s.media := rfl
@[simp] theorem State.modAdmin_journal (f : AdminState → AdminState) (s : State) : (s.modAdmin f).journal = s.journal := rfl
@[simp] theorem State.modAdmin_watch (f : AdminState → AdminState) (s : State) : (s.modAdmin f).watch = s.watch := rfl
@[simp] theorem State.modAdmin_sec (f : AdminState → AdminState) (s : State) : (s.modAdmin f).sec = s.sec := rfl
@[simp] theorem State.modAdmin_fw (f : AdminState → AdminState) (s : State) : (s.modAdmin f).fw = s.fw := rfl
@[simp] theorem State.modAdmin_startCount (f : AdminState → AdminState) (s : State) : (s.modAdmin f).startCount = s.startCount := rfl

@[simp] theorem State.modLog_pending (f : LogState → LogState) (s : State) : (s.modLog f).pending = s.pending := rfl
@[simp] theorem State.modLog_mode (f : LogState → LogState) (s : State) : (s.modLog f).mode = s.mode := rfl
@[simp] theorem State.modLog_elapsed (f : LogState → LogState) (s : State) : (s.modLog f).elapsed = s.elapsed := rfl
@[simp] theorem State.modLog_draws (f : LogState → LogState) (s : State) : (s.modLog f).draws = s.draws := rfl
@[simp] theorem State.modLog_fused (f : LogState → LogState) (s : State) : (s.modLog f).fused = s.fused := rfl
@[simp] theorem State.modLog_cfg (f : LogState → LogState) (s : State) : (s.modLog f).cfg = s.cfg := rfl
@[simp] theorem State.modLog_log (f : LogState → LogState) (s : State) : (s.modLog f).log = f s.log := rfl
@[simp] theorem State.modLog_admin (f : LogState → LogState) (s : State) : (s.modLog f).admin = s.admin := rfl
@[simp] theorem State.modLog_net (f : LogState → LogState) (s : State) : (s.modLog f).net = s.net := rfl
@[simp] theorem State.modLog_time (f : LogState → LogState) (s : State) : (s.modLog f).time = s.time := rfl
@[simp] theorem State.modLog_ses (f : LogState → LogState) (s : State) : (s.modLog f).ses = s.ses := rfl
@[simp] theorem State.modLog_store (f : LogState → LogState) (s : State) : (s.modLog f).store = s.store := rfl
@[simp] theorem State.modLog_power (f : LogState → LogState) (s : State) : (s.modLog f).power = s.power := rfl
@[simp] theorem State.modLog_reg (f : LogState → LogState) (s : State) : (s.modLog f).reg = s.reg := rfl
@[simp] theorem State.modLog_start (f : LogState → LogState) (s : State) : (s.modLog f).start = s.start := rfl
@[simp] theorem State.modLog_media (f : LogState → LogState) (s : State) : (s.modLog f).media = s.media := rfl
@[simp] theorem State.modLog_journal (f : LogState → LogState) (s : State) : (s.modLog f).journal = s.journal := rfl
@[simp] theorem State.modLog_watch (f : LogState → LogState) (s : State) : (s.modLog f).watch = s.watch := rfl
@[simp] theorem State.modLog_sec (f : LogState → LogState) (s : State) : (s.modLog f).sec = s.sec := rfl
@[simp] theorem State.modLog_fw (f : LogState → LogState) (s : State) : (s.modLog f).fw = s.fw := rfl
@[simp] theorem State.modLog_startCount (f : LogState → LogState) (s : State) : (s.modLog f).startCount = s.startCount := rfl

@[simp] theorem State.modCfg_pending (f : CfgState → CfgState) (s : State) : (s.modCfg f).pending = s.pending := rfl
@[simp] theorem State.modCfg_mode (f : CfgState → CfgState) (s : State) : (s.modCfg f).mode = s.mode := rfl
@[simp] theorem State.modCfg_elapsed (f : CfgState → CfgState) (s : State) : (s.modCfg f).elapsed = s.elapsed := rfl
@[simp] theorem State.modCfg_draws (f : CfgState → CfgState) (s : State) : (s.modCfg f).draws = s.draws := rfl
@[simp] theorem State.modCfg_fused (f : CfgState → CfgState) (s : State) : (s.modCfg f).fused = s.fused := rfl
@[simp] theorem State.modCfg_cfg (f : CfgState → CfgState) (s : State) : (s.modCfg f).cfg = f s.cfg := rfl
@[simp] theorem State.modCfg_log (f : CfgState → CfgState) (s : State) : (s.modCfg f).log = s.log := rfl
@[simp] theorem State.modCfg_admin (f : CfgState → CfgState) (s : State) : (s.modCfg f).admin = s.admin := rfl
@[simp] theorem State.modCfg_net (f : CfgState → CfgState) (s : State) : (s.modCfg f).net = s.net := rfl
@[simp] theorem State.modCfg_time (f : CfgState → CfgState) (s : State) : (s.modCfg f).time = s.time := rfl
@[simp] theorem State.modCfg_ses (f : CfgState → CfgState) (s : State) : (s.modCfg f).ses = s.ses := rfl
@[simp] theorem State.modCfg_store (f : CfgState → CfgState) (s : State) : (s.modCfg f).store = s.store := rfl
@[simp] theorem State.modCfg_power (f : CfgState → CfgState) (s : State) : (s.modCfg f).power = s.power := rfl
@[simp] theorem State.modCfg_reg (f : CfgState → CfgState) (s : State) : (s.modCfg f).reg = s.reg := rfl
@[simp] theorem State.modCfg_start (f : CfgState → CfgState) (s : State) : (s.modCfg f).start = s.start := rfl
@[simp] theorem State.modCfg_media (f : CfgState → CfgState) (s : State) : (s.modCfg f).media = s.media := rfl
@[simp] theorem State.modCfg_journal (f : CfgState → CfgState) (s : State) : (s.modCfg f).journal = s.journal := rfl
@[simp] theorem State.modCfg_watch (f : CfgState → CfgState) (s : State) : (s.modCfg f).watch = s.watch := rfl
@[simp] theorem State.modCfg_sec (f : CfgState → CfgState) (s : State) : (s.modCfg f).sec = s.sec := rfl
@[simp] theorem State.modCfg_fw (f : CfgState → CfgState) (s : State) : (s.modCfg f).fw = s.fw := rfl
@[simp] theorem State.modCfg_startCount (f : CfgState → CfgState) (s : State) : (s.modCfg f).startCount = s.startCount := rfl

@[simp] theorem State.modWatch_pending (f : WatchState → WatchState) (s : State) : (s.modWatch f).pending = s.pending := rfl
@[simp] theorem State.modWatch_mode (f : WatchState → WatchState) (s : State) : (s.modWatch f).mode = s.mode := rfl
@[simp] theorem State.modWatch_elapsed (f : WatchState → WatchState) (s : State) : (s.modWatch f).elapsed = s.elapsed := rfl
@[simp] theorem State.modWatch_draws (f : WatchState → WatchState) (s : State) : (s.modWatch f).draws = s.draws := rfl
@[simp] theorem State.modWatch_fused (f : WatchState → WatchState) (s : State) : (s.modWatch f).fused = s.fused := rfl
@[simp] theorem State.modWatch_cfg (f : WatchState → WatchState) (s : State) : (s.modWatch f).cfg = s.cfg := rfl
@[simp] theorem State.modWatch_log (f : WatchState → WatchState) (s : State) : (s.modWatch f).log = s.log := rfl
@[simp] theorem State.modWatch_admin (f : WatchState → WatchState) (s : State) : (s.modWatch f).admin = s.admin := rfl
@[simp] theorem State.modWatch_net (f : WatchState → WatchState) (s : State) : (s.modWatch f).net = s.net := rfl
@[simp] theorem State.modWatch_time (f : WatchState → WatchState) (s : State) : (s.modWatch f).time = s.time := rfl
@[simp] theorem State.modWatch_ses (f : WatchState → WatchState) (s : State) : (s.modWatch f).ses = s.ses := rfl
@[simp] theorem State.modWatch_store (f : WatchState → WatchState) (s : State) : (s.modWatch f).store = s.store := rfl
@[simp] theorem State.modWatch_power (f : WatchState → WatchState) (s : State) : (s.modWatch f).power = s.power := rfl
@[simp] theorem State.modWatch_reg (f : WatchState → WatchState) (s : State) : (s.modWatch f).reg = s.reg := rfl
@[simp] theorem State.modWatch_start (f : WatchState → WatchState) (s : State) : (s.modWatch f).start = s.start := rfl
@[simp] theorem State.modWatch_media (f : WatchState → WatchState) (s : State) : (s.modWatch f).media = s.media := rfl
@[simp] theorem State.modWatch_journal (f : WatchState → WatchState) (s : State) : (s.modWatch f).journal = s.journal := rfl
@[simp] theorem State.modWatch_watch (f : WatchState → WatchState) (s : State) : (s.modWatch f).watch = f s.watch := rfl
@[simp] theorem State.modWatch_sec (f : WatchState → WatchState) (s : State) : (s.modWatch f).sec = s.sec := rfl
@[simp] theorem State.modWatch_fw (f : WatchState → WatchState) (s : State) : (s.modWatch f).fw = s.fw := rfl
@[simp] theorem State.modWatch_startCount (f : WatchState → WatchState) (s : State) : (s.modWatch f).startCount = s.startCount := rfl

@[simp] theorem State.modFw_pending (f : FwState → FwState) (s : State) : (s.modFw f).pending = s.pending := rfl
@[simp] theorem State.modFw_mode (f : FwState → FwState) (s : State) : (s.modFw f).mode = s.mode := rfl
@[simp] theorem State.modFw_elapsed (f : FwState → FwState) (s : State) : (s.modFw f).elapsed = s.elapsed := rfl
@[simp] theorem State.modFw_draws (f : FwState → FwState) (s : State) : (s.modFw f).draws = s.draws := rfl
@[simp] theorem State.modFw_fused (f : FwState → FwState) (s : State) : (s.modFw f).fused = s.fused := rfl
@[simp] theorem State.modFw_cfg (f : FwState → FwState) (s : State) : (s.modFw f).cfg = s.cfg := rfl
@[simp] theorem State.modFw_log (f : FwState → FwState) (s : State) : (s.modFw f).log = s.log := rfl
@[simp] theorem State.modFw_admin (f : FwState → FwState) (s : State) : (s.modFw f).admin = s.admin := rfl
@[simp] theorem State.modFw_net (f : FwState → FwState) (s : State) : (s.modFw f).net = s.net := rfl
@[simp] theorem State.modFw_time (f : FwState → FwState) (s : State) : (s.modFw f).time = s.time := rfl
@[simp] theorem State.modFw_ses (f : FwState → FwState) (s : State) : (s.modFw f).ses = s.ses := rfl
@[simp] theorem State.modFw_store (f : FwState → FwState) (s : State) : (s.modFw f).store = s.store := rfl
@[simp] theorem State.modFw_power (f : FwState → FwState) (s : State) : (s.modFw f).power = s.power := rfl
@[simp] theorem State.modFw_reg (f : FwState → FwState) (s : State) : (s.modFw f).reg = s.reg := rfl
@[simp] theorem State.modFw_start (f : FwState → FwState) (s : State) : (s.modFw f).start = s.start := rfl
@[simp] theorem State.modFw_media (f : FwState → FwState) (s : State) : (s.modFw f).media = s.media := rfl
@[simp] theorem State.modFw_journal (f : FwState → FwState) (s : State) : (s.modFw f).journal = s.journal := rfl
@[simp] theorem State.modFw_watch (f : FwState → FwState) (s : State) : (s.modFw f).watch = s.watch := rfl
@[simp] theorem State.modFw_sec (f : FwState → FwState) (s : State) : (s.modFw f).sec = s.sec := rfl
@[simp] theorem State.modFw_fw (f : FwState → FwState) (s : State) : (s.modFw f).fw = f s.fw := rfl
@[simp] theorem State.modFw_startCount (f : FwState → FwState) (s : State) : (s.modFw f).startCount = s.startCount := rfl

@[simp] theorem State.modStart_pending (f : StartState → StartState) (s : State) : (s.modStart f).pending = s.pending := rfl
@[simp] theorem State.modStart_mode (f : StartState → StartState) (s : State) : (s.modStart f).mode = s.mode := rfl
@[simp] theorem State.modStart_elapsed (f : StartState → StartState) (s : State) : (s.modStart f).elapsed = s.elapsed := rfl
@[simp] theorem State.modStart_draws (f : StartState → StartState) (s : State) : (s.modStart f).draws = s.draws := rfl
@[simp] theorem State.modStart_fused (f : StartState → StartState) (s : State) : (s.modStart f).fused = s.fused := rfl
@[simp] theorem State.modStart_cfg (f : StartState → StartState) (s : State) : (s.modStart f).cfg = s.cfg := rfl
@[simp] theorem State.modStart_log (f : StartState → StartState) (s : State) : (s.modStart f).log = s.log := rfl
@[simp] theorem State.modStart_admin (f : StartState → StartState) (s : State) : (s.modStart f).admin = s.admin := rfl
@[simp] theorem State.modStart_net (f : StartState → StartState) (s : State) : (s.modStart f).net = s.net := rfl
@[simp] theorem State.modStart_time (f : StartState → StartState) (s : State) : (s.modStart f).time = s.time := rfl
@[simp] theorem State.modStart_ses (f : StartState → StartState) (s : State) : (s.modStart f).ses = s.ses := rfl
@[simp] theorem State.modStart_store (f : StartState → StartState) (s : State) : (s.modStart f).store = s.store := rfl
@[simp] theorem State.modStart_power (f : StartState → StartState) (s : State) : (s.modStart f).power = s.power := rfl
@[simp] theorem State.modStart_reg (f : StartState → StartState) (s : State) : (s.modStart f).reg = s.reg := rfl
@[simp] theorem State.modStart_start (f : StartState → StartState) (s : State) : (s.modStart f).start = f s.start := rfl
@[simp] theorem State.modStart_media (f : StartState → StartState) (s : State) : (s.modStart f).media = s.media := rfl
@[simp] theorem State.modStart_journal (f : StartState → StartState) (s : State) : (s.modStart f).journal = s.journal := rfl
@[simp] theorem State.modStart_watch (f : StartState → StartState) (s : State) : (s.modStart f).watch = s.watch := rfl
@[simp] theorem State.modStart_sec (f : StartState → StartState) (s : State) : (s.modStart f).sec = s.sec := rfl
@[simp] theorem State.modStart_fw (f : StartState → StartState) (s : State) : (s.modStart f).fw = s.fw := rfl
@[simp] theorem State.modStart_startCount (f : StartState → StartState) (s : State) : (s.modStart f).startCount = s.startCount := rfl

@[simp] theorem State.modMedia_pending (f : MediaState → MediaState) (s : State) : (s.modMedia f).pending = s.pending := rfl
@[simp] theorem State.modMedia_mode (f : MediaState → MediaState) (s : State) : (s.modMedia f).mode = s.mode := rfl
@[simp] theorem State.modMedia_elapsed (f : MediaState → MediaState) (s : State) : (s.modMedia f).elapsed = s.elapsed := rfl
@[simp] theorem State.modMedia_draws (f : MediaState → MediaState) (s : State) : (s.modMedia f).draws = s.draws := rfl
@[simp] theorem State.modMedia_fused (f : MediaState → MediaState) (s : State) : (s.modMedia f).fused = s.fused := rfl
@[simp] theorem State.modMedia_cfg (f : MediaState → MediaState) (s : State) : (s.modMedia f).cfg = s.cfg := rfl
@[simp] theorem State.modMedia_log (f : MediaState → MediaState) (s : State) : (s.modMedia f).log = s.log := rfl
@[simp] theorem State.modMedia_admin (f : MediaState → MediaState) (s : State) : (s.modMedia f).admin = s.admin := rfl
@[simp] theorem State.modMedia_net (f : MediaState → MediaState) (s : State) : (s.modMedia f).net = s.net := rfl
@[simp] theorem State.modMedia_time (f : MediaState → MediaState) (s : State) : (s.modMedia f).time = s.time := rfl
@[simp] theorem State.modMedia_ses (f : MediaState → MediaState) (s : State) : (s.modMedia f).ses = s.ses := rfl
@[simp] theorem State.modMedia_store (f : MediaState → MediaState) (s : State) : (s.modMedia f).store = s.store := rfl
@[simp] theorem State.modMedia_power (f : MediaState → MediaState) (s : State) : (s.modMedia f).power = s.power := rfl
@[simp] theorem State.modMedia_reg (f : MediaState → MediaState) (s : State) : (s.modMedia f).reg = s.reg := rfl
@[simp] theorem State.modMedia_start (f : MediaState → MediaState) (s : State) : (s.modMedia f).start = s.start := rfl
@[simp] theorem State.modMedia_media (f : MediaState → MediaState) (s : State) : (s.modMedia f).media = f s.media := rfl
@[simp] theorem State.modMedia_journal (f : MediaState → MediaState) (s : State) : (s.modMedia f).journal = s.journal := rfl
@[simp] theorem State.modMedia_watch (f : MediaState → MediaState) (s : State) : (s.modMedia f).watch = s.watch := rfl
@[simp] theorem State.modMedia_sec (f : MediaState → MediaState) (s : State) : (s.modMedia f).sec = s.sec := rfl
@[simp] theorem State.modMedia_fw (f : MediaState → MediaState) (s : State) : (s.modMedia f).fw = s.fw := rfl
@[simp] theorem State.modMedia_startCount (f : MediaState → MediaState) (s : State) : (s.modMedia f).startCount = s.startCount := rfl

@[simp] theorem State.modJournal_pending (f : JournalState → JournalState) (s : State) : (s.modJournal f).pending = s.pending := rfl
@[simp] theorem State.modJournal_mode (f : JournalState → JournalState) (s : State) : (s.modJournal f).mode = s.mode := rfl
@[simp] theorem State.modJournal_elapsed (f : JournalState → JournalState) (s : State) : (s.modJournal f).elapsed = s.elapsed := rfl
@[simp] theorem State.modJournal_draws (f : JournalState → JournalState) (s : State) : (s.modJournal f).draws = s.draws := rfl
@[simp] theorem State.modJournal_fused (f : JournalState → JournalState) (s : State) : (s.modJournal f).fused = s.fused := rfl
@[simp] theorem State.modJournal_cfg (f : JournalState → JournalState) (s : State) : (s.modJournal f).cfg = s.cfg := rfl
@[simp] theorem State.modJournal_log (f : JournalState → JournalState) (s : State) : (s.modJournal f).log = s.log := rfl
@[simp] theorem State.modJournal_admin (f : JournalState → JournalState) (s : State) : (s.modJournal f).admin = s.admin := rfl
@[simp] theorem State.modJournal_net (f : JournalState → JournalState) (s : State) : (s.modJournal f).net = s.net := rfl
@[simp] theorem State.modJournal_time (f : JournalState → JournalState) (s : State) : (s.modJournal f).time = s.time := rfl
@[simp] theorem State.modJournal_ses (f : JournalState → JournalState) (s : State) : (s.modJournal f).ses = s.ses := rfl
@[simp] theorem State.modJournal_store (f : JournalState → JournalState) (s : State) : (s.modJournal f).store = s.store := rfl
@[simp] theorem State.modJournal_power (f : JournalState → JournalState) (s : State) : (s.modJournal f).power = s.power := rfl
@[simp] theorem State.modJournal_reg (f : JournalState → JournalState) (s : State) : (s.modJournal f).reg = s.reg := rfl
@[simp] theorem State.modJournal_start (f : JournalState → JournalState) (s : State) : (s.modJournal f).start = s.start := rfl
@[simp] theorem State.modJournal_media (f : JournalState → JournalState) (s : State) : (s.modJournal f).media = s.media := rfl
@[simp] theorem State.modJournal_journal (f : JournalState → JournalState) (s : State) : (s.modJournal f).journal = f s.journal := rfl
@[simp] theorem State.modJournal_watch (f : JournalState → JournalState) (s : State) : (s.modJournal f).watch = s.watch := rfl
@[simp] theorem State.modJournal_sec (f : JournalState → JournalState) (s : State) : (s.modJournal f).sec = s.sec := rfl
@[simp] theorem State.modJournal_fw (f : JournalState → JournalState) (s : State) : (s.modJournal f).fw = s.fw := rfl
@[simp] theorem State.modJournal_startCount (f : JournalState → JournalState) (s : State) : (s.modJournal f).startCount = s.startCount := rfl

@[simp] theorem State.modSec_pending (f : SecState → SecState) (s : State) : (s.modSec f).pending = s.pending := rfl
@[simp] theorem State.modSec_mode (f : SecState → SecState) (s : State) : (s.modSec f).mode = s.mode := rfl
@[simp] theorem State.modSec_elapsed (f : SecState → SecState) (s : State) : (s.modSec f).elapsed = s.elapsed := rfl
@[simp] theorem State.modSec_draws (f : SecState → SecState) (s : State) : (s.modSec f).draws = s.draws := rfl
@[simp] theorem State.modSec_fused (f : SecState → SecState) (s : State) : (s.modSec f).fused = s.fused := rfl
@[simp] theorem State.modSec_cfg (f : SecState → SecState) (s : State) : (s.modSec f).cfg = s.cfg := rfl
@[simp] theorem State.modSec_log (f : SecState → SecState) (s : State) : (s.modSec f).log = s.log := rfl
@[simp] theorem State.modSec_admin (f : SecState → SecState) (s : State) : (s.modSec f).admin = s.admin := rfl
@[simp] theorem State.modSec_net (f : SecState → SecState) (s : State) : (s.modSec f).net = s.net := rfl
@[simp] theorem State.modSec_time (f : SecState → SecState) (s : State) : (s.modSec f).time = s.time := rfl
@[simp] theorem State.modSec_ses (f : SecState → SecState) (s : State) : (s.modSec f).ses = s.ses := rfl
@[simp] theorem State.modSec_store (f : SecState → SecState) (s : State) : (s.modSec f).store = s.store := rfl
@[simp] theorem State.modSec_power (f : SecState → SecState) (s : State) : (s.modSec f).power = s.power := rfl
@[simp] theorem State.modSec_reg (f : SecState → SecState) (s : State) : (s.modSec f).reg = s.reg := rfl
@[simp] theorem State.modSec_start (f : SecState → SecState) (s : State) : (s.modSec f).start = s.start := rfl
@[simp] theorem State.modSec_media (f : SecState → SecState) (s : State) : (s.modSec f).media = s.media := rfl
@[simp] theorem State.modSec_journal (f : SecState → SecState) (s : State) : (s.modSec f).journal = s.journal := rfl
@[simp] theorem State.modSec_watch (f : SecState → SecState) (s : State) : (s.modSec f).watch = s.watch := rfl
@[simp] theorem State.modSec_sec (f : SecState → SecState) (s : State) : (s.modSec f).sec = f s.sec := rfl
@[simp] theorem State.modSec_fw (f : SecState → SecState) (s : State) : (s.modSec f).fw = s.fw := rfl
@[simp] theorem State.modSec_startCount (f : SecState → SecState) (s : State) : (s.modSec f).startCount = s.startCount := rfl

@[simp] theorem State.setMode_pending (m : Mode) (s : State) : (s.setMode m).pending = s.pending := rfl
@[simp] theorem State.setMode_mode (m : Mode) (s : State) : (s.setMode m).mode = m := rfl
@[simp] theorem State.setMode_elapsed (m : Mode) (s : State) : (s.setMode m).elapsed = s.elapsed := rfl
@[simp] theorem State.setMode_draws (m : Mode) (s : State) : (s.setMode m).draws = s.draws := rfl
@[simp] theorem State.setMode_fused (m : Mode) (s : State) : (s.setMode m).fused = s.fused := rfl
@[simp] theorem State.setMode_cfg (m : Mode) (s : State) : (s.setMode m).cfg = s.cfg := rfl
@[simp] theorem State.setMode_log (m : Mode) (s : State) : (s.setMode m).log = s.log := rfl
@[simp] theorem State.setMode_admin (m : Mode) (s : State) : (s.setMode m).admin = s.admin := rfl
@[simp] theorem State.setMode_net (m : Mode) (s : State) : (s.setMode m).net = s.net := rfl
@[simp] theorem State.setMode_time (m : Mode) (s : State) : (s.setMode m).time = s.time := rfl
@[simp] theorem State.setMode_ses (m : Mode) (s : State) : (s.setMode m).ses = s.ses := rfl
@[simp] theorem State.setMode_store (m : Mode) (s : State) : (s.setMode m).store = s.store := rfl
@[simp] theorem State.setMode_power (m : Mode) (s : State) : (s.setMode m).power = s.power := rfl
@[simp] theorem State.setMode_reg (m : Mode) (s : State) : (s.setMode m).reg = s.reg := rfl
@[simp] theorem State.setMode_start (m : Mode) (s : State) : (s.setMode m).start = s.start := rfl
@[simp] theorem State.setMode_media (m : Mode) (s : State) : (s.setMode m).media = s.media := rfl
@[simp] theorem State.setMode_journal (m : Mode) (s : State) : (s.setMode m).journal = s.journal := rfl
@[simp] theorem State.setMode_watch (m : Mode) (s : State) : (s.setMode m).watch = s.watch := rfl
@[simp] theorem State.setMode_sec (m : Mode) (s : State) : (s.setMode m).sec = s.sec := rfl
@[simp] theorem State.setMode_fw (m : Mode) (s : State) : (s.setMode m).fw = s.fw := rfl
@[simp] theorem State.setMode_startCount (m : Mode) (s : State) : (s.setMode m).startCount = s.startCount := rfl

@[simp] theorem State.waitUntil_pending (n : Nat) (s : State) : (s.waitUntil n).pending = s.pending := rfl
@[simp] theorem State.waitUntil_mode (n : Nat) (s : State) : (s.waitUntil n).mode = s.mode := rfl
@[simp] theorem State.waitUntil_elapsed (n : Nat) (s : State) : (s.waitUntil n).elapsed = max s.elapsed n := rfl
@[simp] theorem State.waitUntil_draws (n : Nat) (s : State) : (s.waitUntil n).draws = s.draws := rfl
@[simp] theorem State.waitUntil_fused (n : Nat) (s : State) : (s.waitUntil n).fused = s.fused := rfl
@[simp] theorem State.waitUntil_cfg (n : Nat) (s : State) : (s.waitUntil n).cfg = s.cfg := rfl
@[simp] theorem State.waitUntil_log (n : Nat) (s : State) : (s.waitUntil n).log = s.log := rfl
@[simp] theorem State.waitUntil_admin (n : Nat) (s : State) : (s.waitUntil n).admin = s.admin := rfl
@[simp] theorem State.waitUntil_net (n : Nat) (s : State) : (s.waitUntil n).net = s.net := rfl
@[simp] theorem State.waitUntil_time (n : Nat) (s : State) : (s.waitUntil n).time = s.time := rfl
@[simp] theorem State.waitUntil_ses (n : Nat) (s : State) : (s.waitUntil n).ses = s.ses := rfl
@[simp] theorem State.waitUntil_store (n : Nat) (s : State) : (s.waitUntil n).store = s.store := rfl
@[simp] theorem State.waitUntil_power (n : Nat) (s : State) : (s.waitUntil n).power = s.power := rfl
@[simp] theorem State.waitUntil_reg (n : Nat) (s : State) : (s.waitUntil n).reg = s.reg := rfl
@[simp] theorem State.waitUntil_start (n : Nat) (s : State) : (s.waitUntil n).start = s.start := rfl
@[simp] theorem State.waitUntil_media (n : Nat) (s : State) : (s.waitUntil n).media = s.media := rfl
@[simp] theorem State.waitUntil_journal (n : Nat) (s : State) : (s.waitUntil n).journal = s.journal := rfl
@[simp] theorem State.waitUntil_watch (n : Nat) (s : State) : (s.waitUntil n).watch = s.watch := rfl
@[simp] theorem State.waitUntil_sec (n : Nat) (s : State) : (s.waitUntil n).sec = s.sec := rfl
@[simp] theorem State.waitUntil_fw (n : Nat) (s : State) : (s.waitUntil n).fw = s.fw := rfl
@[simp] theorem State.waitUntil_startCount (n : Nat) (s : State) : (s.waitUntil n).startCount = s.startCount := rfl

@[simp] theorem State.countStart_pending (s : State) : (s.countStart).pending = s.pending := rfl
@[simp] theorem State.countStart_mode (s : State) : (s.countStart).mode = s.mode := rfl
@[simp] theorem State.countStart_elapsed (s : State) : (s.countStart).elapsed = s.elapsed := rfl
@[simp] theorem State.countStart_draws (s : State) : (s.countStart).draws = s.draws := rfl
@[simp] theorem State.countStart_fused (s : State) : (s.countStart).fused = s.fused := rfl
@[simp] theorem State.countStart_cfg (s : State) : (s.countStart).cfg = s.cfg := rfl
@[simp] theorem State.countStart_log (s : State) : (s.countStart).log = s.log := rfl
@[simp] theorem State.countStart_admin (s : State) : (s.countStart).admin = s.admin := rfl
@[simp] theorem State.countStart_net (s : State) : (s.countStart).net = s.net := rfl
@[simp] theorem State.countStart_time (s : State) : (s.countStart).time = s.time := rfl
@[simp] theorem State.countStart_ses (s : State) : (s.countStart).ses = s.ses := rfl
@[simp] theorem State.countStart_store (s : State) : (s.countStart).store = s.store := rfl
@[simp] theorem State.countStart_power (s : State) : (s.countStart).power = s.power := rfl
@[simp] theorem State.countStart_reg (s : State) : (s.countStart).reg = s.reg := rfl
@[simp] theorem State.countStart_start (s : State) : (s.countStart).start = s.start := rfl
@[simp] theorem State.countStart_media (s : State) : (s.countStart).media = s.media := rfl
@[simp] theorem State.countStart_journal (s : State) : (s.countStart).journal = s.journal := rfl
@[simp] theorem State.countStart_watch (s : State) : (s.countStart).watch = s.watch := rfl
@[simp] theorem State.countStart_sec (s : State) : (s.countStart).sec = s.sec := rfl
@[simp] theorem State.countStart_fw (s : State) : (s.countStart).fw = s.fw := rfl
@[simp] theorem State.countStart_startCount (s : State) : (s.countStart).startCount = inc32 s.startCount := rfl

@[simp] theorem State.modPort_pending (q : Port) (f : PortState → PortState) (s : State) : (s.modPort q f).pending = s.pending := rfl
@[simp] theorem State.modPort_mode (q : Port) (f : PortState → PortState) (s : State) : (s.modPort q f).mode = s.mode := rfl
@[simp] theorem State.modPort_elapsed (q : Port) (f : PortState → PortState) (s : State) : (s.modPort q f).elapsed = s.elapsed := rfl
@[simp] theorem State.modPort_draws (q : Port) (f : PortState → PortState) (s : State) : (s.modPort q f).draws = s.draws := rfl
@[simp] theorem State.modPort_fused (q : Port) (f : PortState → PortState) (s : State) : (s.modPort q f).fused = s.fused := rfl
@[simp] theorem State.modPort_cfg (q : Port) (f : PortState → PortState) (s : State) : (s.modPort q f).cfg = s.cfg := rfl
@[simp] theorem State.modPort_log (q : Port) (f : PortState → PortState) (s : State) : (s.modPort q f).log = s.log := rfl
@[simp] theorem State.modPort_admin (q : Port) (f : PortState → PortState) (s : State) : (s.modPort q f).admin = s.admin := rfl
@[simp] theorem State.modPort_net (q : Port) (f : PortState → PortState) (s : State) : (s.modPort q f).net = { s.net with port := s.net.port.modify q f } := rfl
@[simp] theorem State.modPort_time (q : Port) (f : PortState → PortState) (s : State) : (s.modPort q f).time = s.time := rfl
@[simp] theorem State.modPort_ses (q : Port) (f : PortState → PortState) (s : State) : (s.modPort q f).ses = s.ses := rfl
@[simp] theorem State.modPort_store (q : Port) (f : PortState → PortState) (s : State) : (s.modPort q f).store = s.store := rfl
@[simp] theorem State.modPort_power (q : Port) (f : PortState → PortState) (s : State) : (s.modPort q f).power = s.power := rfl
@[simp] theorem State.modPort_reg (q : Port) (f : PortState → PortState) (s : State) : (s.modPort q f).reg = s.reg := rfl
@[simp] theorem State.modPort_start (q : Port) (f : PortState → PortState) (s : State) : (s.modPort q f).start = s.start := rfl
@[simp] theorem State.modPort_media (q : Port) (f : PortState → PortState) (s : State) : (s.modPort q f).media = s.media := rfl
@[simp] theorem State.modPort_journal (q : Port) (f : PortState → PortState) (s : State) : (s.modPort q f).journal = s.journal := rfl
@[simp] theorem State.modPort_watch (q : Port) (f : PortState → PortState) (s : State) : (s.modPort q f).watch = s.watch := rfl
@[simp] theorem State.modPort_sec (q : Port) (f : PortState → PortState) (s : State) : (s.modPort q f).sec = s.sec := rfl
@[simp] theorem State.modPort_fw (q : Port) (f : PortState → PortState) (s : State) : (s.modPort q f).fw = s.fw := rfl
@[simp] theorem State.modPort_startCount (q : Port) (f : PortState → PortState) (s : State) : (s.modPort q f).startCount = s.startCount := rfl

@[simp] theorem State.modSess_pending (n : Nat) (f : Sess → Sess) (s : State) : (s.modSess n f).pending = s.pending := rfl
@[simp] theorem State.modSess_mode (n : Nat) (f : Sess → Sess) (s : State) : (s.modSess n f).mode = s.mode := rfl
@[simp] theorem State.modSess_elapsed (n : Nat) (f : Sess → Sess) (s : State) : (s.modSess n f).elapsed = s.elapsed := rfl
@[simp] theorem State.modSess_draws (n : Nat) (f : Sess → Sess) (s : State) : (s.modSess n f).draws = s.draws := rfl
@[simp] theorem State.modSess_fused (n : Nat) (f : Sess → Sess) (s : State) : (s.modSess n f).fused = s.fused := rfl
@[simp] theorem State.modSess_cfg (n : Nat) (f : Sess → Sess) (s : State) : (s.modSess n f).cfg = s.cfg := rfl
@[simp] theorem State.modSess_log (n : Nat) (f : Sess → Sess) (s : State) : (s.modSess n f).log = s.log := rfl
@[simp] theorem State.modSess_admin (n : Nat) (f : Sess → Sess) (s : State) : (s.modSess n f).admin = s.admin := rfl
@[simp] theorem State.modSess_net (n : Nat) (f : Sess → Sess) (s : State) : (s.modSess n f).net = s.net := rfl
@[simp] theorem State.modSess_time (n : Nat) (f : Sess → Sess) (s : State) : (s.modSess n f).time = s.time := rfl
@[simp] theorem State.modSess_ses (n : Nat) (f : Sess → Sess) (s : State) : (s.modSess n f).ses = { s.ses with sessions := s.ses.sessions.map fun e => if e.id = n then f e else e } := rfl
@[simp] theorem State.modSess_store (n : Nat) (f : Sess → Sess) (s : State) : (s.modSess n f).store = s.store := rfl
@[simp] theorem State.modSess_power (n : Nat) (f : Sess → Sess) (s : State) : (s.modSess n f).power = s.power := rfl
@[simp] theorem State.modSess_reg (n : Nat) (f : Sess → Sess) (s : State) : (s.modSess n f).reg = s.reg := rfl
@[simp] theorem State.modSess_start (n : Nat) (f : Sess → Sess) (s : State) : (s.modSess n f).start = s.start := rfl
@[simp] theorem State.modSess_media (n : Nat) (f : Sess → Sess) (s : State) : (s.modSess n f).media = s.media := rfl
@[simp] theorem State.modSess_journal (n : Nat) (f : Sess → Sess) (s : State) : (s.modSess n f).journal = s.journal := rfl
@[simp] theorem State.modSess_watch (n : Nat) (f : Sess → Sess) (s : State) : (s.modSess n f).watch = s.watch := rfl
@[simp] theorem State.modSess_sec (n : Nat) (f : Sess → Sess) (s : State) : (s.modSess n f).sec = s.sec := rfl
@[simp] theorem State.modSess_fw (n : Nat) (f : Sess → Sess) (s : State) : (s.modSess n f).fw = s.fw := rfl
@[simp] theorem State.modSess_startCount (n : Nat) (f : Sess → Sess) (s : State) : (s.modSess n f).startCount = s.startCount := rfl

@[simp] theorem State.modFlight_pending (n k : Nat) (f : Flight → Flight) (s : State) : (s.modFlight n k f).pending = s.pending := rfl
@[simp] theorem State.modFlight_mode (n k : Nat) (f : Flight → Flight) (s : State) : (s.modFlight n k f).mode = s.mode := rfl
@[simp] theorem State.modFlight_elapsed (n k : Nat) (f : Flight → Flight) (s : State) : (s.modFlight n k f).elapsed = s.elapsed := rfl
@[simp] theorem State.modFlight_draws (n k : Nat) (f : Flight → Flight) (s : State) : (s.modFlight n k f).draws = s.draws := rfl
@[simp] theorem State.modFlight_fused (n k : Nat) (f : Flight → Flight) (s : State) : (s.modFlight n k f).fused = s.fused := rfl
@[simp] theorem State.modFlight_cfg (n k : Nat) (f : Flight → Flight) (s : State) : (s.modFlight n k f).cfg = s.cfg := rfl
@[simp] theorem State.modFlight_log (n k : Nat) (f : Flight → Flight) (s : State) : (s.modFlight n k f).log = s.log := rfl
@[simp] theorem State.modFlight_admin (n k : Nat) (f : Flight → Flight) (s : State) : (s.modFlight n k f).admin = s.admin := rfl
@[simp] theorem State.modFlight_net (n k : Nat) (f : Flight → Flight) (s : State) : (s.modFlight n k f).net = s.net := rfl
@[simp] theorem State.modFlight_time (n k : Nat) (f : Flight → Flight) (s : State) : (s.modFlight n k f).time = s.time := rfl
@[simp] theorem State.modFlight_ses (n k : Nat) (f : Flight → Flight) (s : State) : (s.modFlight n k f).ses = { s.ses with sessions := s.ses.sessions.map fun e => if e.id = n then { e with flights := e.flights.map fun x => if x.msgId = k then f x else x } else e } := rfl
@[simp] theorem State.modFlight_store (n k : Nat) (f : Flight → Flight) (s : State) : (s.modFlight n k f).store = s.store := rfl
@[simp] theorem State.modFlight_power (n k : Nat) (f : Flight → Flight) (s : State) : (s.modFlight n k f).power = s.power := rfl
@[simp] theorem State.modFlight_reg (n k : Nat) (f : Flight → Flight) (s : State) : (s.modFlight n k f).reg = s.reg := rfl
@[simp] theorem State.modFlight_start (n k : Nat) (f : Flight → Flight) (s : State) : (s.modFlight n k f).start = s.start := rfl
@[simp] theorem State.modFlight_media (n k : Nat) (f : Flight → Flight) (s : State) : (s.modFlight n k f).media = s.media := rfl
@[simp] theorem State.modFlight_journal (n k : Nat) (f : Flight → Flight) (s : State) : (s.modFlight n k f).journal = s.journal := rfl
@[simp] theorem State.modFlight_watch (n k : Nat) (f : Flight → Flight) (s : State) : (s.modFlight n k f).watch = s.watch := rfl
@[simp] theorem State.modFlight_sec (n k : Nat) (f : Flight → Flight) (s : State) : (s.modFlight n k f).sec = s.sec := rfl
@[simp] theorem State.modFlight_fw (n k : Nat) (f : Flight → Flight) (s : State) : (s.modFlight n k f).fw = s.fw := rfl
@[simp] theorem State.modFlight_startCount (n k : Nat) (f : Flight → Flight) (s : State) : (s.modFlight n k f).startCount = s.startCount := rfl

@[simp] theorem State.settle_pending (s : State) : (s.settle).pending = s.pending := rfl
@[simp] theorem State.settle_mode (s : State) : (s.settle).mode = s.mode := rfl
@[simp] theorem State.settle_elapsed (s : State) : (s.settle).elapsed = s.elapsed := rfl
@[simp] theorem State.settle_draws (s : State) : (s.settle).draws = s.draws := rfl
@[simp] theorem State.settle_fused (s : State) : (s.settle).fused = s.fused := rfl
@[simp] theorem State.settle_cfg (s : State) : (s.settle).cfg = s.cfg := rfl
@[simp] theorem State.settle_log (s : State) : (s.settle).log = s.log := rfl
@[simp] theorem State.settle_admin (s : State) : (s.settle).admin = s.admin := rfl
@[simp] theorem State.settle_net (s : State) : (s.settle).net = s.net := rfl
@[simp] theorem State.settle_time (s : State) : (s.settle).time = s.time := rfl
@[simp] theorem State.settle_ses (s : State) : (s.settle).ses = s.ses := rfl
@[simp] theorem State.settle_store (s : State) : (s.settle).store = s.store := rfl
@[simp] theorem State.settle_power (s : State) : (s.settle).power = s.power := rfl
@[simp] theorem State.settle_reg (s : State) : (s.settle).reg = s.reg := rfl
@[simp] theorem State.settle_media (s : State) : (s.settle).media = s.media := rfl
@[simp] theorem State.settle_journal (s : State) : (s.settle).journal = s.journal := rfl
@[simp] theorem State.settle_watch (s : State) : (s.settle).watch = s.watch := rfl
@[simp] theorem State.settle_sec (s : State) : (s.settle).sec = s.sec := rfl
@[simp] theorem State.settle_fw (s : State) : (s.settle).fw = s.fw := rfl
@[simp] theorem State.settle_startCount (s : State) : (s.settle).startCount = s.startCount := rfl

/-- Settling the outputs changes of the start part the two status outputs alone. -/
@[simp] theorem State.settle_run (s : State) : s.settle.start.run = s.start.run := rfl
@[simp] theorem State.done_next (s t : State) : s.done = .next t ↔ s.settle = t := by simp [State.done]

end Sys2Proof.Machine
end

