-- ==== Sys2Proof/WellFormed.lean ====
section
/-!
DEFINITION. Which commands are well formed: every operand lies in the range its field or quantity has in the manual.
-/
namespace Sys2Proof.Machine

/-- Straps of R50: three address bits and four slot bits. -/
def Straps.wf (x : Straps) : Bool := decide (x.addr < 8) && decide (x.slot < 16)

/-- What a start finds: its straps, a configuration window of at most 64 KiB, a 7-bit bus address, an 8-byte SFDP header,
voltages in mV, parts of Table 19-1 (0x01 to 0x04) and copies of the commit record, 0 and 1. -/
def StartEnv.wf (e : StartEnv) : Bool :=
  e.straps.wf && decide (e.memory.bytes.length ≤ 65536) && decide (e.memory.i2cAddr < 128) && decide (e.memory.sfdp.length = 8) &&
  decide (e.vinMv < 65536) && decide (e.servingVinMv.getD 0 < 65536) && decide (e.bankMv < 65536) &&
  (e.badRunning ++ e.badPrevious).all (fun k => decide (1 ≤ k ∧ k ≤ 4)) && e.badCopies.all fun c => decide (c < 2)

/-- The numbers of a fragment run modulo 4. -/
def MPacket.wf (p : MPacket) : Bool :=
  match p with
  | .whole => true
  | .first n => decide (n < 4)
  | .continuation n k => decide (n < 4) && decide (k < 4)

/-- A read decoded at one of the steps of Table 14-6 before the last. -/
def DieResult.wf (r : DieResult) : Bool :=
  match r with
  | .decoded step _ _ => decide (1 ≤ step ∧ step ≤ 4)
  | .uncorrectable | .passed | .failed => true

/-- The levels of a tamper sample in mV. -/
def TamperReading.wf (r : TamperReading) : Bool :=
  decide (r.idleOutMv < 65536) && decide (r.idleRetMv < 65536) && decide (r.pulseOutMv < 65536) && decide (r.pulseRetMv < 65536)

/-- Sectors of one command, at most 16 of them (Table 11-5), each hard one decoded at step 2 or 3 of Table 14-6 at one of 16
threshold indexes, and a CRC-16. -/
def SectorOutcome.wf (o : SectorOutcome) : Bool :=
  match o with
  | .read hard => hard.all fun h => decide (h.1 < 16) && decide (2 ≤ h.2.1 ∧ h.2.1 ≤ 3) && decide (h.2.2 < 16)
  | .uncorrectable i => decide (i < 16)
  | .mismatch i crc => decide (i < 16) && decide (crc < 65536)

end Sys2Proof.Machine

namespace Sys2Proof

/-- A SESSION_ID (Table 9-2). -/
def sidOk (n : Nat) : Bool := decide (n < 65536)
/-- A MSG_ID (Table 9-2). -/
def msgIdOk (n : Nat) : Bool := decide (n < 4294967296)
/-- A voltage in mV, as the 16-bit fields of the log pages hold it. -/
def mvOk (n : Nat) : Bool := decide (n < 65536)
/-- A link speed in Mb/s (R150). -/
def speedOk (n : Nat) : Bool := decide (n = 10 ∨ n = 100 ∨ n = 1000)

/-- A well-formed command. -/
def Instr.wf (i : Instr) : Bool :=
  match i with
  | .vinValid _ env => env.wf
  | .readyEntry => true
  | .resetNRecognised => true
  | .resetNHeldCold => true
  | .resetNReleased env => env.wf
  | .vinBelowWarning vin => mvOk vin
  | .pfwNWarning => true
  | .braceExit vin => mvOk vin
  | .supplyUnstableRearm => true
  | .vinBelowCut vin _ => mvOk vin
  | .inputCollapse vin _ _ => mvOk vin
  | .overvoltage vin _ => mvOk vin
  | .postDuskHoldEnd _ _ env => env.wf
  | .referenceClockLost _ => true
  | .referenceClockReturn env => env.wf
  | .thermalShutdown _ _ => true
  | .junctionCooled env => env.wf
  | .deadlineRisk _ _ => true
  | .deadlineLapse _ _ => true
  | .deadlineRiskCleared _ => true
  | .wakeInput => true
  | .svcEnIgnored _ => true
  | .servicePortOpen => true
  | .servicePortClose env => env.wf
  | .tamperSample r => r.wf
  | .lockDrainComplete => true
  | .linkUp _ speed _ => speedOk speed
  | .linkDown _ => true
  | .sgmiiStatusChange _ _ speed _ => speedOk speed
  | .preemptVerifyDone _ _ => true
  | .frameReceived _ line bytes => line.pkt.wf && decide (bytes.length ≤ 65536)
  | .pauseFrameReceived => true
  | .pauseQuantaExpired _ => true
  | .pauseRepeat _ => true
  | .learnEntryAged _ => true
  | .txQueueTimeout _ => true
  | .epTxExpired _ => true
  | .egressSelect _ _ => true
  | .statActExpired => true
  | .gptpFrameReceived => true
  | .syncReceiptTimeout => true
  | .syncSend => true
  | .pdelayRequest => true
  | .ppsOutEdge => true
  | .ppsInEdge _ _ => true
  | .gateEntryStart _ => true
  | .dawnRepeat => true
  | .dawnSolicitation => true
  | .startLimitWindowClose => true
  | .wakeFrame => true
  | .arpRequest => true
  | .arpGatewayTimer _ => true
  | .neighborSolicitation => true
  | .echoRequest _ => true
  | .sessionOpen _ => true
  | .sessionConfirm _ => true
  | .sessionClose => true
  | .handshakeExpired sid => sidOk sid
  | .aliveTimeout sid => sidOk sid
  | .messageAssemblyTimeout sid kind msgId => sidOk sid && decide (kind < 256) && msgIdOk msgId
  | .cancel sid msgId => sidOk sid && msgIdOk msgId
  | .keepalive sid msgId => sidOk sid && msgIdOk msgId
  | .get sid msgId => sidOk sid && msgIdOk msgId
  | .put sid msgId _ => sidOk sid && msgIdOk msgId
  | .append sid msgId _ => sidOk sid && msgIdOk msgId
  | .delete sid msgId => sidOk sid && msgIdOk msgId
  | .rangeRead sid msgId => sidOk sid && msgIdOk msgId
  | .rangeDelete sid msgId => sidOk sid && msgIdOk msgId
  | .pin sid msgId => sidOk sid && msgIdOk msgId
  | .unpin sid msgId => sidOk sid && msgIdOk msgId
  | .rangeLockGrant => true
  | .heldCompletion sid msgId _ => sidOk sid && msgIdOk msgId
  | .segmentStage sid msgId _ => sidOk sid && msgIdOk msgId
  | .segmentCut sid msgId => sidOk sid && msgIdOk msgId
  | .nop sid msgId => sidOk sid && msgIdOk msgId
  | .readSectors sid msgId o => sidOk sid && msgIdOk msgId && o.wf
  | .writeSectors sid msgId _ => sidOk sid && msgIdOk msgId
  | .trim sid msgId => sidOk sid && msgIdOk msgId
  | .flush sid msgId => sidOk sid && msgIdOk msgId
  | .statusRead sid msgId => sidOk sid && msgIdOk msgId
  | .identifyWindow sid msgId => sidOk sid && msgIdOk msgId
  | .identify sid msgId => sidOk sid && msgIdOk msgId
  | .getLog sid msgId => sidOk sid && msgIdOk msgId
  | .logSnapshot sid msgId => sidOk sid && msgIdOk msgId
  | .snapshotExpired _ => true
  | .answerCacheExpired sid msgId => sidOk sid && msgIdOk msgId
  | .getFeature sid msgId => sidOk sid && msgIdOk msgId
  | .setFeature sid msgId => sidOk sid && msgIdOk msgId
  | .restart sid msgId env => sidOk sid && msgIdOk msgId && env.wf
  | .deepSleep sid msgId => sidOk sid && msgIdOk msgId
  | .deepSleepEntryComplete _ => true
  | .closeSession sid msgId => sidOk sid && msgIdOk msgId
  | .clearFaults sid msgId => sidOk sid && msgIdOk msgId
  | .fwBegin sid msgId => sidOk sid && msgIdOk msgId
  | .fwData sid msgId _ => sidOk sid && msgIdOk msgId
  | .fwVerify sid msgId _ => sidOk sid && msgIdOk msgId
  | .fwGraft sid msgId => sidOk sid && msgIdOk msgId
  | .graftHandover _ _ => true
  | .fwActivate sid msgId => sidOk sid && msgIdOk msgId
  | .activation env => env.wf
  | .fwConfirm sid msgId => sidOk sid && msgIdOk msgId
  | .fwAbort sid msgId => sidOk sid && msgIdOk msgId
  | .fwDownloadTimeout => true
  | .confirmWindowExpired => true
  | .secStatus sid msgId => sidOk sid && msgIdOk msgId
  | .secUnlock sid msgId => sidOk sid && msgIdOk msgId
  | .secSetCredential sid msgId => sidOk sid && msgIdOk msgId
  | .secResetCredential sid msgId => sidOk sid && msgIdOk msgId
  | .secEraseTenant sid msgId => sidOk sid && msgIdOk msgId
  | .watchdogCheckIn activity env => decide (activity ≤ 8) && env.wf
  | .watchdogExpiry env => env.wf
  | .scanJobComplete _ => true
  | .ch0Sample _ => true
  | .ch1Sample mv => mvOk mv
  | .windbreakLoopSample _ _ => true
  | .rateEstimatorSample mv => mvOk mv
  | .bankTestStart => true
  | .bankTestComplete stepMv _ => mvOk stepMv
  | .bankTestTimeout => true
  | .bankChargeJudged bankMv => mvOk bankMv
  | .drainExtentComplete _ _ => true
  | .dieOperationComplete die r => decide (die < 32) && r.wf
  | .operationAgePromote _ => true
  | .dieTimeout die _ => decide (die < 32)
  | .programRetryBackoff _ => true
  | .scrubDue die block => decide (die < 32) && decide (block < 4096)
  | .bgCollectionIdle => true
  | .journalFlush => true
  | .expirySweep => true
  | .backstopExpiry sid msgId => sidOk sid && msgIdOk msgId
  | .statusBlinkToggle _ => true
  | .ppsOutFallingEdge => true
  | .inputProtectionTrip vin => mvOk vin
  | .moduleSupplyFails => true
  | .trstNLow => true
  | .tckEdge _ _ _ => true
  | .creditPerBitTime _ cls => decide (cls = 5 ∨ cls = 6)
  | .announceSend => true
  | .announceReceiptTimeout _ => true
  | .temperatureHistoryInterval _ => true

end Sys2Proof
end

