-- ==== Sys2Proof/Tests/Slice0.lean ====
section
/-!
SUPPORT. Small tests of the model against the manual's tables and worked cases, the well-formedness checks, and for each
statement concrete states and operands that meet its hypotheses.
-/
namespace Sys2Proof.Tests
open Sys2Proof Sys2Proof.Machine
set_option maxRecDepth 20000
set_option Elab.async false

/-! ## Well-formedness: each check refuses a term that breaks it -/

def env0 : StartEnv := {}
/-- Whether a command answers a next state with some property. -/
def nextWith (o : Host.Outcome State Fault Refusal) (q : State → Bool) : Bool :=
  match o with
  | .next t => q t
  | .fault _ => false
  | .refused _ => false
theorem test_wf_env : env0.wf = true := by decide
theorem test_wf_strapAddress : ({ env0 with straps := { env0.straps with addr := 8 } } : StartEnv).wf = false := by decide
theorem test_wf_strapSlot : ({ env0 with straps := { env0.straps with slot := 16 } } : StartEnv).wf = false := by decide
theorem test_wf_sfdp : ({ env0 with memory := { env0.memory with sfdp := [] } } : StartEnv).wf = false := by decide
theorem test_wf_window (l : Bytes) (h : 65536 < l.length) : ({ env0 with memory := { env0.memory with bytes := l } } : StartEnv).wf = false := by
  have h2 : ¬ l.length ≤ 65536 := by omega
  simp [StartEnv.wf, h2]
theorem test_wf_vin : ({ env0 with vinMv := 65536 } : StartEnv).wf = false := by decide
theorem test_wf_bank : ({ env0 with bankMv := 65536 } : StartEnv).wf = false := by decide
theorem test_wf_address : ({ env0 with memory := { env0.memory with i2cAddr := 128 } } : StartEnv).wf = false := by decide
theorem test_wf_servingVin : ({ env0 with servingVinMv := some 65536 } : StartEnv).wf = false := by decide
theorem test_wf_parts : ({ env0 with badRunning := [5] } : StartEnv).wf = false ∧ ({ env0 with badPrevious := [0] } : StartEnv).wf = false ∧
    ({ env0 with badCopies := [2] } : StartEnv).wf = false := by decide
theorem test_wf_tamper : (Instr.tamperSample { idleOutMv := 65536 }).wf = false ∧ (Instr.tamperSample { idleRetMv := 65536 }).wf = false ∧
    (Instr.tamperSample { pulseOutMv := 65536 }).wf = false ∧ (Instr.tamperSample { pulseRetMv := 65536 }).wf = false := by decide
theorem test_wf_sectors : (Instr.readSectors 0 0 (.read [(16, 2, 0)])).wf = false ∧ (Instr.readSectors 0 0 (.read [(0, 4, 0)])).wf = false ∧
    (Instr.readSectors 0 0 (.read [(0, 3, 16)])).wf = false ∧ (Instr.readSectors 0 0 (.uncorrectable 16)).wf = false ∧
    (Instr.readSectors 0 0 (.mismatch 16 0)).wf = false ∧ (Instr.readSectors 0 0 (.mismatch 0 65536)).wf = false := by decide
theorem test_wf_fragment : (Instr.frameReceived .A ⟨.first 4, .none⟩ []).wf = false ∧ (Instr.frameReceived .A ⟨.continuation 4 0, .none⟩ []).wf = false ∧
    (Instr.frameReceived .A ⟨.continuation 0 4, .none⟩ []).wf = false := by decide
theorem test_wf_startCommands : [Instr.vinValid false { env0 with vinMv := 65536 }, .resetNReleased { env0 with vinMv := 65536 },
    .postDuskHoldEnd false true { env0 with vinMv := 65536 }, .referenceClockReturn { env0 with vinMv := 65536 },
    .junctionCooled { env0 with vinMv := 65536 }, .servicePortClose { env0 with vinMv := 65536 }, .activation { env0 with vinMv := 65536 },
    .watchdogExpiry { env0 with vinMv := 65536 }, .watchdogCheckIn 0 { env0 with vinMv := 65536 }, .watchdogCheckIn 9 env0,
    .restart 0 0 { env0 with vinMv := 65536 }].all (fun i => !i.wf) = true := by decide
theorem test_wf_voltages : [Instr.vinBelowWarning 65536, .braceExit 65536, .vinBelowCut 65536 true, .inputCollapse 65536 false true,
    .overvoltage 65536 true, .ch1Sample 65536, .rateEstimatorSample 65536, .bankTestComplete 65536 0, .bankChargeJudged 65536,
    .inputProtectionTrip 65536].all (fun i => !i.wf) = true := by decide
theorem test_wf_speed : (Instr.linkUp .A 2500 false).wf = false ∧ (Instr.sgmiiStatusChange .A true 0 false).wf = false := by decide
theorem test_wf_session : (Instr.get 65536 0).wf = false ∧ (Instr.aliveTimeout 65536).wf = false ∧ (Instr.get 65535 4294967295).wf = true := by decide
theorem test_wf_message : (Instr.put 0 4294967296 none).wf = false ∧ (Instr.messageAssemblyTimeout 0 256 0).wf = false := by decide
theorem test_wf_media : (Instr.dieOperationComplete 32 .passed).wf = false ∧ (Instr.dieOperationComplete 0 (.decoded 5 0 0)).wf = false ∧
    (Instr.dieTimeout 32 true).wf = false ∧ (Instr.scrubDue 32 0).wf = false ∧ (Instr.scrubDue 0 4096).wf = false := by decide
theorem test_wf_class : (Instr.creditPerBitTime .A 4).wf = false := by decide
theorem test_wf_bytes (l : Bytes) (h : 65536 < l.length) : (Instr.frameReceived .A ⟨.whole, .none⟩ l).wf = false := by
  have h2 : ¬ l.length ≤ 65536 := by omega
  simp [Instr.wf, h2]

/-! ## The manual's own figures -/

/-- Table 17-3: the register after "123456789" and through the fold, and the plain check of R429. -/
theorem test_crc32c : crc32c (ascii "123456789") = 0xE3069283 ∧ crc32cRun 0xFFFFFFFF#32 (ascii "123456789") = 0x1CF96D7C#32 ∧
    crc32cRun 0x1CF96D7C#32 [0, 0, 0, 0, 0, 0, 0, 2] = 0xA78BACA8#32 ∧ crc32cRun 0xA78BACA8#32 [0, 1] = 0x043F84BD#32 := by decide +kernel
/-- SHA-256 of "abc" (FIPS 180-4's published example). -/
theorem test_sha256 : sha256 (ascii "abc") = beBytes 32 0xba7816bf8f01cfea414140de5dae2223b00361a396177a9cb410ff61f20015ad := by
  decide +kernel
/-- AES-256 (FIPS 197, appendix C.3), and GCM's tag of nothing under a zero key and IV (the GCM submission's test case 13). -/
theorem test_aes256 : aesBlock (roundKeys ((List.range 32).map byte)) ((List.range 16).map fun i => byte (17 * i)) =
    beBytes 16 0x8ea2b7ca516745bfeafc49904b496089 ∧ gmac (zeros 32) (zeros 12) [] = beBytes 16 0x530f8afbc74536b9a963b4f1c4cb738b := by
  decide +kernel
/-- The signature of "sample" in RFC 6979, appendix A.2.5, verifies under its key, and not for another digest. -/
theorem test_ecdsa :
    let pub := beBytes 32 0x60FED4BA255A9D31C961EB74C6356D68C049B8923B61FA6CE669622E60F29FB6 ++
      beBytes 32 0x7903FE1008B8BC99A41AE9E95628BC64F2F1B20C2D7E9F5177A3C294D4462299
    let sig := beBytes 32 0xEFD48B2AACB6A8FD1140DD9CD45E81D69D2C877B56AAF991C34D0EA84EAF3716 ++
      beBytes 32 0xF7CB1C942D657C41D436C7A1B6E29F65F3E900DBB9AFF4064DC4AB2F843ACDA8
    p256Valid pub = true ∧ ecdsaVerify pub (sha256 (ascii "sample")) sig = true ∧ ecdsaVerify pub (sha256 (ascii "simple")) sig = false := by
  decide +kernel
/-- The worked cases of chapters 3 and 4: the ledger at 45.00 V, its need at 6.50 MiB, and the staging limit. -/
theorem test_ledger : availUj 45000 1584 = 1425600 ∧ needUj 6815744 = 612500 ∧ stagingLimitMib 1584 = 16 ∧ availUj 45000 1620 = 1458000 := by
  decide +kernel
/-- Table 5-12: joint rule 3 on six tenants with 4, 8, 8, 6, 6 and 4 sessions, and joint rule 5 on 60 and 65 percent. -/
theorem test_joint3 : ((joint3 { State.reset.cfg.inUse with tenants := [4, 8, 8, 6, 6, 4].map fun n =>
    { State.reset.cfg.inUse.tenants.getD 0 {} with enable := 1, sessionsMax := n } }).1.tenants.map TenantCfg.sessionsMax) = [4, 6, 6, 6, 6, 4] := by decide +kernel
theorem test_joint5 : (joint5 { State.reset.cfg.inUse with bridge := { State.reset.cfg.inUse.bridge with pauseHighPct := 60, pauseLowPct := 65 } }).1.bridge.pauseLowPct = 50 := by
  decide +kernel
/-- The worked case of chapter 7: the default watermarks. -/
theorem test_watermarks : State.reset.highMark = 147456 ∧ State.reset.lowMark = 78592 := by decide
/-- The worked case of chapter 8: the bounds of class 6 at 100,000 and 200,000 kb/s, and a bit time that sends and one that waits. -/
theorem test_shaper : (Shaper.bounds 100000 1000000 12336 {}).hi = 1233600000 ∧ (Shaper.bounds 100000 1000000 12336 {}).lo = -11102400000 ∧
    (Shaper.bounds 200000 1000000 12336 {}).lo = -9868800000 ∧
    (Shaper.bitTime 1000000 true true true (Shaper.bounds 100000 1000000 12336 {})).cs = -900000 ∧
    (Shaper.bitTime 1000000 true false true { Shaper.bounds 100000 1000000 12336 {} with cs := -900000 }).cs = -800000 := by decide
/-- Step 7 of Table 16-10: a deficit of 10,485.76 bytes at CH3's 0x00180000. -/
theorem test_retry : retryUs 0x00180000 (5505024 * 4294967296 / 100) 65536 = 417 := by decide +kernel
/-- Steps 7 to 9 of Table 13-17: SET_FEATURE 0x02 of 55 with a low watermark of 50, then of 40. -/
theorem test_setFeature :
    ((feature .ekv5480 0x02 0).bind fun f => f.set 55 { State.reset.cfg.inUse with bridge := { State.reset.cfg.inUse.bridge with pauseLowPct := 50 } }).isNone = true ∧
    (((feature .ekv5480 0x02 0).bind fun f => f.set 55 State.reset.cfg.inUse).map Prod.fst) = some 55 := by decide +kernel
/-- Step 10 of Table 13-17: CLEAR_FAULTS with every bit leaves bit 0. -/
theorem test_clearFaults : (({ State.reset with log := { State.reset.log with latched := 0x801#32 } }).formClear ⟨0x8C, 0, 0, 0xFFFFFFFF, 0, [], false⟩).body.result = 1 := by
  decide
/-- Step 2 of Table 13-17: the fifth snapshot since start 2,323. -/
theorem test_snapshotId : (State.takeSnapshot 7 5 [] { State.reset with startCount := 2323, admin := { State.reset.admin with snapshotSeq := 5 } }).1 = 0x0000091300000005 := by
  decide
/-- Step 4 of Table 17-8: slot 3 absent at the end of P, two watchdog starts before. -/
theorem test_watchdogExpiry : nextWith (exec (.watchdogExpiry { stopAt := some 4 }) { State.reset with
      mode := .ready, watch := { State.reset.watch with running := true, checked := [0, 1, 2, 4, 5, 6, 7], resetCount := 2 } })
    (fun t => decide ((t.watch.lastMissed, t.watch.resetCount, t.elapsed) = (0x08, 3, 64000000))) = true := by decide +kernel
/-- Step 16 of Table 12-3: a version of 200,000 bytes cut after two whole segments. -/
theorem test_cutVersion (b : Bytes) (h : b.length = 131072) :
    (closeVersion { num := 5, value := b, total := 200000, admitAt := 0, expiry := 0, segmented := true, isOpen := true }).total = 131072 := by
  simp [closeVersion, h]
/-- R32 to R35 of the first worked case: a 1,024-byte value fills 16 staging lines. -/
theorem test_lines : lineBytes 1024 = 1024 ∧ lineBytes 65536 = 65536 ∧ lineBytes 1 = 64 := by decide
/-- Table 3-3 and step 1 of Table 3-9: PFW_N in Ready begins Brace. -/
theorem test_brace : nextWith (exec .pfwNWarning { State.reset with mode := .ready })
    (fun t => decide (t.mode = .brace ∧ t.power.brace.map BraceEp.entered = some .ready)) = true := by decide
/-- A word spells no command: the table gives its rows no bits. -/
theorem test_decode : decodeTableWord 32 0 = none ∧ State.reset.withFetchWord 32 0 = State.reset := by decide +kernel

/-! ## States for the witnesses -/

def peer1 : Peer := { mac := 1 }
def rx1 : Rx := ⟨.A, .untagged, peer1, 0, 0⟩
def sess3 (id : Nat) (fl : List Flight) : Sess :=
  { id := id, tenant := 0, gen := 3, port := .A, peer := peer1, phase := .open, window := 32, aliveMs := 1000, kH2d := [], kD2h := [], saltH2d := [], saltD2h := [], heardAt := 0, flights := fl }
def flight (m : Nat) : Flight := { msgId := m, opcode := 0x10, alive := 0, aliveGap := false, rx := rx1, admitAt := 0, admittedAt := 0 }
def entryOf (l : Load) : EpEntry := { dst := peer1, ethertype := 0, tag := none, cls := 0, express := true, admitAt := 0, rxEnd := 0, queuedAt := 0, queued := [0], load := l }
def gatedState : State :=
  { State.reset with
    cfg := { State.reset.cfg with inUse := { State.reset.cfg.inUse with
      gates := ⟨{ enable := 1, entryCount := 1, entries := [{ intervalNs := 1000000 }] }, {}⟩, shaper := ⟨{ enable := 1, idleSlope5 := 1000 }, {}⟩ } }
    net := { State.reset.net with configured := true, port := ⟨{ up := true, speed := 100 }, {}⟩ } }
def firstAnswer : EpEntry := entryOf (.ly { kind := 0x11, gen := 3, tenant := 0, session := 7, msgId := 9, ends := true, first := true, body := .answer {} })
/-- An 802.1AS message of clock 5, port 0, with sequence number 9. -/
def gptpOf (type flags : Nat) (body : Bytes) : Bytes :=
  beBytes 1 (16 + type) ++ beBytes 1 2 ++ beBytes 2 44 ++ zeros 2 ++ beBytes 1 flags ++ zeros 1 ++ zeros 8 ++ zeros 4 ++ beBytes 8 5 ++ zeros 2 ++
    beBytes 2 9 ++ zeros 2 ++ body
def gptpBytes (type : Nat) : Bytes := gptpOf type 0 (zeros 20)
def gptpIn (b : Bytes) : InFrame := ⟨.gptp, ⟨.A, .untagged, { mac := 1 }, 77, 0⟩, b, 0⟩
def gptpState (b : Bytes) : State :=
  { State.reset with
    mode := .ready
    net := { State.reset.net with inbox := [gptpIn b], port := ⟨{ up := true, speed := 1000 }, {}⟩ }
    time := { State.reset.time with
      running := true, slave := some .A
      port := ⟨{ asCapable := true, pdelaySeq := 9, t1 := some 1, t2 := some 2, t4 := some 4, syncSeq := some (9, 1000700) }, {}⟩ } }
def inFrame (k : Service) (b : Bytes) : InFrame := ⟨k, ⟨.A, .untagged, { mac := 1 }, 0, 0⟩, b, 0⟩
def addressed (l : List InFrame) : State :=
  { State.reset with
    mode := .ready
    cfg := { State.reset.cfg with inUse := { State.reset.cfg.inUse with
      protocol := { State.reset.cfg.inUse.protocol with v4AddrBase := 0x0A000001, v4Gateway := 0x0A0000FE } } }
    net := { State.reset.net with inbox := l, gateOpen := true, port := ⟨{ up := true, speed := 1000, gatewayDue := some 5 }, {}⟩ } }
def openState : State :=
  { State.reset with
    sec := { State.reset.sec with site := some ([], 1), installed := [some ([], 1)] }
    cfg := { State.reset.cfg with inUse := { State.reset.cfg.inUse with
      tenants := { State.reset.cfg.inUse.tenants.getD 0 {} with enable := 1, generations := 7, sessionsMax := 4 } :: State.reset.cfg.inUse.tenants.drop 1 } } }
def openHeader : Header := { kind := 1, gen := 3, hdrFormat := 1, length := 52, tenant := 0, final := true, session := 0, seq := 0, alive := 0, frameIndex := 0, msgId := 4, opcode := 0, bodyTotal := 0 }
def msgOf (kind msgId opcode : Nat) (final : Bool) (body : Bytes) : Assembly :=
  { kind := kind, msgId := msgId, opcode := opcode, alive := 0, bodyTotal := body.length, frames := [⟨0, final, body, 0, rx1⟩]
    firstAt := 0, lastAt := 0, aliveGap := false, serial := 1 }
def sessWith (l : List Assembly) : Sess := { sess3 7 [flight 9] with assembling := l }
def oneMessage (l : List Assembly) : State :=
  { openState with
    mode := .ready
    net := { openState.net with gateOpen := true, port := ⟨{ up := true, speed := 1000 }, {}⟩ }
    ses := { openState.ses with sessions := [sessWith l] } }
/-- A request row takes a request, and the request and the state that it leaves have a property. -/
def admits (p : Option Admitted × State) (q : Admitted → State → Bool) : Bool :=
  match p with
  | (some x, u) => q x u
  | (none, _) => false
/-- A write refused by windbreak, in either way. -/
def throttles (j : Judgement) : Bool :=
  match j with
  | .throttled _ _ => true
  | .granted => false
  | .bracing _ => false
def kvVersion : Version := { num := 3, value := [1#8, 2#8, 3#8, 4#8], total := 4, admitAt := 0, expiry := 0 }
def kvBody (key : Bytes) (a b : Nat) (data : Bytes) : Bytes :=
  beBytes 1 key.length ++ zeros 11 ++ beBytes 4 a ++ beBytes 4 b ++ key ++ data
def kvState (keys : List KeyRec) (a : Assembly) : State :=
  { oneMessage [a] with
    store := { (oneMessage [a]).store with keys := keys, flash := keys }
    power := { (oneMessage [a]).power with bankMv := List.replicate 8 46000, bankClass := .healthy }
    reg := State.reset.reg.startLoops 0 0x00300000 0x00300000 0x00300000 0x00300000 }
def emptyBuckets (s : State) : State :=
  { s with reg := { s.reg with writeBucket := ⟨0, s.elapsed⟩, deleteBucket := ⟨0, s.elapsed⟩ } }
def okWith {ε α : Type} (r : Except ε α) (q : α → Bool) : Bool :=
  match r with
  | .ok w => q w
  | .error _ => false
def rangeState (w : Work) : State :=
  { kvState [] (msgOf 0x10 5 0 true []) with
    ses := { State.reset.ses with
      sessions := [sess3 7 [{ flight 9 with work := w }]]
      waiting := match w with
        | .rangeWait _ a b _ => [⟨0, 7, 9, a, b⟩]
        | _ => [] } }
/-- A version open, or expired from 1 on, or with its bytes in the staging buffer. -/
def openKey : List KeyRec := [⟨0, [7#8], [{ kvVersion with isOpen := true, total := 9 }]⟩]
def segMsg : Assembly :=
  { kind := 0x10, msgId := 5, opcode := 0x20, alive := 0, bodyTotal := 85, frames := [⟨0, true, kvBody [7#8] 0 64 (zeros 64), 0, rx1⟩]
    firstAt := 0, lastAt := 0, aliveGap := false, serial := 1, admitted := true }
def segVersion : Version := { num := 1, value := [], total := 64, admitAt := 0, expiry := 0, segmented := true, isOpen := true }
def segFlight : Flight :=
  { msgId := 5, opcode := 0x20, alive := 0, aliveGap := false, rx := rx1, admitAt := 0, admittedAt := 0, committed := true
    work := .segmented [7#8] segVersion none }
def segSess : Sess := { sess3 7 [segFlight] with gen := 2, assembling := [segMsg] }
def segState : State := { kvState [] segMsg with ses := { State.reset.ses with sessions := [segSess] } }
def bigMsg : Assembly :=
  { kind := 0x10, msgId := 5, opcode := 0x20, alive := 0, bodyTotal := 70021, frames := [⟨0, true, kvBody [7#8] 0 70000 (zeros 70000), 0, rx1⟩]
    firstAt := 0, lastAt := 0, aliveGap := false, serial := 1 }
def bigSess : Sess := { sess3 7 [] with gen := 2, assembling := [bigMsg] }
def bigState : State := { kvState [] bigMsg with ses := { State.reset.ses with sessions := [bigSess] } }
theorem kvBody_length (key : Bytes) (a b : Nat) (data : Bytes) : (kvBody key a b data).length = 20 + key.length + data.length := by
  simp [kvBody, zeros, beBytes]; omega
theorem big_lead : bigMsg.lead = kvBody [7#8] 0 70000 (zeros 70000) := by
  rw [Assembly.lead, show leadFrom 0 bigMsg.frames = bigMsg.frames from rfl, bigMsg, List.flatMap_cons, List.flatMap_nil, List.append_nil]
theorem big_early : bigMsg.early bigSess.gen = true := by
  have hl : bigMsg.lead.length = 70021 := by rw [big_lead, kvBody_length, zeros, List.length_replicate]; rfl
  have hb : (parseBody false bigMsg.lead).b = 70000 := by rw [big_lead]; rfl
  have hk : (parseBody false bigMsg.lead).keyLen = 1 := by rw [big_lead]; rfl
  have hg : bigSess.gen = 2 := rfl
  rw [Assembly.early, hl, hb, hk, hg]; rfl
def waitingSess (again : Nat) (stirred : Bool) : Sess :=
  { segSess with assembling := [{ segMsg with refused := some ⟨4, 0x21, 4, 10, again, stirred⟩ }] }
def waitingWrite (again : Nat) (stirred : Bool) : State := { segState with ses := { State.reset.ses with sessions := [waitingSess again stirred] } }
def ly1Body (lba count : Nat) (data : Bytes) : Bytes := zeros 4 ++ beBytes 6 lba ++ beBytes 2 count ++ zeros 4 ++ data
def ly1State (op : Nat) (body : Bytes) : State :=
  { kvState [] (msgOf 0x10 5 op true body) with
    ses := { State.reset.ses with sessions := [{ sess3 7 [] with gen := 1, assembling := [msgOf 0x10 5 op true body] }] } }
def ly1Flash (lost : List Nat) : State :=
  { ly1State 0x20 (ly1Body 3 1 []) with
    store := { State.reset.store with keys := [⟨0, sectorKey 3, [{ num := 1, value := [5#8], total := 4096, admitAt := 0, expiry := 0 }]⟩] }
    media := { State.reset.media with placed := [⟨0, sectorKey 3, 1, 1, [2310400]⟩], lost := lost } }
def lostRead : State :=
  { rangeState (.read [1#8] 2 [] 0 false 0 1) with
    media := { State.reset.media with placed := [⟨0, [1#8], 2, 1, [2310400]⟩] } }
def adminBody (param keyLen version a b : Nat) (data : Bytes) : Bytes :=
  beBytes 1 keyLen ++ zeros 1 ++ beBytes 2 param ++ beBytes 8 version ++ beBytes 4 a ++ beBytes 4 b ++ data
def adminState (op gen : Nat) (body : Bytes) : State :=
  { kvState [] (msgOf 0x10 5 op true body) with
    cfg := State.reset.cfg
    reg := { (kvState [] (msgOf 0x10 5 op true body)).reg with ch1 := { (kvState [] (msgOf 0x10 5 op true body)).reg.ch1 with running := true } }
    ses := { State.reset.ses with sessions := [{ sess3 7 [] with gen := gen, assembling := [msgOf 0x10 5 op true body] }] } }
def smallPackage : Package := { manifest := 2, parts := [1, 2, 3, 4].map fun k => ⟨k, 1, 0, 16, [], [], []⟩ }
def fwState (op : Nat) (body : Bytes) (units : List (Nat × Bytes)) : State :=
  { adminState op 2 body with
    power := { (adminState op 2 body).power with bankMv := List.replicate 8 46000 }
    fw := { State.reset.fw with
      commit := { State.reset.fw.commit with running := { smallPackage with manifest := 1 } }
      verified := some smallPackage
      download := some { session := 7, length := 4096, units := units, headerOk := true, lastAt := 0 } } }
def checked (op : Nat) (x : Admitted) (u : State) (s : State) : Option Refused :=
  let p := parseBody false x.body
  let o := p.adminOp op
  let w := if isFirmwareOp op = true then u.touchDownload 7 else u
  if isFirmwareOp op = true then firstOf [adminBad x.ask p, fwTooLarge o, w.readRefused, w.fwRefused 7 op, w.fwLimits o]
  else if 0xA0 ≤ op then firstOf [adminBad x.ask p, (w.secRefused (((s.ses.find 7).map Sess.kH2d).getD []) 5 o).map Prod.fst, w.readRefused]
  else firstOf [adminBad x.ask p, w.opLimits x.ask.gen o, w.opState o]
def adminCases : List (Nat × State) :=
  ([0x80, 0x81, 0x82, 0x84, 0x85, 0x88, 0x8C, 0xA0, 0xA1, 0xA3].map fun op => (op, adminState op 3 (adminBody 2 0 0 0 60 []))) ++
  [(0x89, adminState 0x89 2 (adminBody 0 0 0 0 0 [])), (0x8A, adminState 0x8A 2 (adminBody 7 0 0 0 0 [])),
    (0xA4, adminState 0xA4 2 (adminBody 2 0 0 0 0 [])), (0x92, fwState 0x92 (adminBody 0 0 0 0 0 []) [(0, [])])] ++
  ([0x90, 0x93, 0x94, 0x95, 0x96].map fun op => (op, fwState op (adminBody 0 0 0 0 4096 []) []))
def adminMsg (gen : Nat) (op : AdminOp) : LyMsg :=
  { kind := 0x11, gen := gen, tenant := 0, session := 7, msgId := 9, opcode := op.opcode, ends := true, body := .admin op 3 0 }
def resultState (op : AdminOp) : State :=
  { adminState 0 2 [] with
    net := { (adminState 0 2 []).net with port := ⟨{ up := true, speed := 1000, epQ := [entryOf (.ly (adminMsg 2 op))] }, {}⟩ }
    ses := { State.reset.ses with sessions := [{ sess3 7 [flight 9] with gen := 2 }] } }
def fwResult (op : AdminOp) : State :=
  { resultState op with
    power := { (resultState op).power with bankMv := List.replicate 8 46000 }
    fw := { State.reset.fw with
      commit := { State.reset.fw.commit with running := { smallPackage with manifest := 1 } }
      verified := some smallPackage
      download := some ⟨7, 4097, [], true, 0, none, false⟩ } }
def fwEvent : State :=
  { State.reset with
    mode := .ready
    net := { State.reset.net with port := ⟨{ up := true, speed := 1000 }, {}⟩ }
    ses := { State.reset.ses with sessions := [sess3 7 [flight 9]] }
    watch := { State.reset.watch with jobs := [⟨.package, 0, 0, true, true, .single, none, none, .verify 7 9⟩] }
    fw := { State.reset.fw with
      verified := some smallPackage, graft := some ⟨7, 9, 0, none⟩, activation := some ⟨none, 0⟩
      download := some ⟨7, 4096, [], true, 0, some 9, false⟩ } }
def dueBand : Band := { id := 1, reloc := false, blocks := [⟨2, 9⟩], parity := ⟨3, 9⟩, closed := some 0 }
def dueState : State :=
  { State.reset with
    mode := .ready
    admin := { State.reset.admin with snapshots := [⟨7, 1, 5, 0, []⟩] }
    ses := { State.reset.ses with sessions := [{ sess3 7 [] with cache := [⟨4, 0x20, 0, 0, 0, [], 0, 0, none⟩] }] }
    journal := { State.reset.journal with unrecorded := some 3 }
    store := { State.reset.store with flash := [⟨0, [7#8], [kvVersion]⟩] }
    media := { State.reset.media with
      inService := 126464, good := 10
      blocks := [{ id := ⟨2, 9⟩, use := .data 1 }]
      placed := [⟨0, [7#8], 3, 1, [pageAddr ⟨2, 9⟩ 0]⟩]
      waiting := [{ id := 8, kind := .read, purpose := .refresh, die := 3, block := 9, page := 0, arrived := 0 }], nextOp := 9 } }
def mediaState : State :=
  { State.reset with
    mode := .ready
    power := { State.reset.power with bankMv := List.replicate 8 46000, bankClass := .healthy }
    journal := { State.reset.journal with bankHold := false, nextDrain := [[⟨0, 7⟩, ⟨1, 7⟩, ⟨5, 7⟩]] }
    store := { State.reset.store with
      keys := [⟨0, [7#8], [kvVersion]⟩]
      staging := [{ id := 3, change := .put 0 [7#8] kvVersion, bytes := 64, lines := [(0, 64)] }, { id := 4, change := .delete 0 [8#8], bytes := 64, lines := [(64, 64)], retryAt := some 5 }] }
    media := { State.reset.media with
      blocks := [{ id := ⟨2, 9⟩, use := .released }, { id := ⟨3, 9⟩, use := .data 1 }]
      tags := [{ addr := pageAddr ⟨2, 9⟩ 0, kind := .data, writeSeq := 1, time := ⟨0, 0⟩, temp := 0, band := 1, jseq := 1 }]
      busy := [{ id := 1, kind := .erase, purpose := .erase, die := 2, block := 9, arrived := 0 },
        { id := 2, kind := .read, purpose := .held 7 9, die := 3, block := 9, arrived := 0 },
        { id := 3, kind := .program, purpose := .drain 3, die := 4, block := 9, arrived := 0 }]
      nextOp := 9 } }

/-! ## Witnesses: what meets the hypotheses of the statements -/

theorem witness_StepRuns : State.reset.pending = [] ∧ State.reset.start.run = none := by decide
theorem witness_StepRuns_front : ({ State.reset with pending := [.pfwNWarning] } : State).pending = .pfwNWarning :: [] := rfl

theorem witness_BraceBegins : ∃ s : State, s.mode.serving = true ∧ (9500 : Nat) < s.cfg.inUse.power.vinWarnMv ∧
    (BraceCause.pfw = .pfw ∧ Instr.pfwNWarning = .pfwNWarning ∧ s.power.vinMv = s.power.vinMv) :=
  ⟨{ State.reset with mode := .ready }, by decide⟩
theorem witness_BraceBegins_noted : ∃ s : State, s.mode = .coldStart ∧ (9500 : Nat) < s.cfg.inUse.power.vinWarnMv :=
  ⟨{ State.reset with mode := .coldStart }, by decide⟩
theorem witness_BraceBegins_start : ∃ (s : State) (r : StartRun), s.pending = [] ∧ s.start.run = some r ∧ s.start.resetLow = none ∧
    (r.path ≠ .activation ∧ r.step = 16) ∧ (s.noteLevels r.env).power.pfwLow = true :=
  ⟨{ State.reset with
      mode := .coldStart
      power := { State.reset.power with pfwLow := true }
      start := { State.reset.start with run := some ⟨.cold, .vin, 16, {}, false⟩ } }, ⟨.cold, .vin, 16, {}, false⟩, by decide⟩
theorem witness_BraceBegins_activation : ∃ (s : State) (r : StartRun), s.pending = [] ∧ s.start.run = some r ∧ s.start.resetLow = none ∧
    (r.path = .activation ∧ r.step = 8) ∧ (s.noteLevels r.env).power.vinBelowWarn = true :=
  ⟨{ State.reset with
      mode := .warmStart
      start := { State.reset.start with run := some ⟨.activation, .activation, 8, { servingVinMv := some 9000 }, false⟩ } },
   ⟨.activation, .activation, 8, { servingVinMv := some 9000 }, false⟩, by decide⟩

theorem witness_SupplyUnstable : ∃ s : State, s.mode.serving = true ∧ s.power.unstableArmed = true ∧
    nextWith (exec .pfwNWarning s) (fun t => decide (t.power.braceStarts.length = 11)) = true :=
  ⟨{ State.reset with mode := .ready, power := { State.reset.power with unstableArmed := true, braceStarts := List.replicate 10 0 } }, by decide⟩
theorem witness_SupplyUnstable_ten : ∃ s : State, s.mode.serving = true ∧ s.power.unstableArmed = true ∧ s.power.test = none ∧
    nextWith (exec .pfwNWarning s) (fun t => decide (t.power.braceStarts.length = 10)) = true :=
  ⟨{ State.reset with mode := .ready, power := { State.reset.power with unstableArmed := true, braceStarts := List.replicate 9 0 } }, by decide⟩
theorem witness_SupplyUnstable_rearm : ∃ s : State, s.power.unstableArmed = false ∧ s.power.braceStarts[10]? = some 7 :=
  ⟨{ State.reset with power := { State.reset.power with braceStarts := List.replicate 11 7 } }, by decide⟩

theorem witness_BraceEnds : ∃ (s : State) (b : BraceEp), s.mode = .brace ∧ s.power.brace = some b ∧ b.entered.serving = true ∧
    s.cfg.inUse.power.vinWarnMv + 800 ≤ 24000 ∧ s.power.test = none :=
  ⟨{ State.reset with mode := .brace, power := { State.reset.power with brace := some ⟨.vin, .ready, 0, 0, 9000, 0⟩ } }, ⟨.vin, .ready, 0, 0, 9000, 0⟩, by decide⟩

theorem witness_DuskCommits : (Mode.ready ≠ .off ∧ Mode.ready ≠ .dusk) ∧ 8000 < State.reset.cfg.inUse.power.vinCutMv ∧
    (8999 < 9000 ∧ 34000 < 34001 ∧ (1150 : Int) ≤ 1150) := by decide
theorem witness_DuskCommits_dusk : ∃ s : State, s.mode = .dusk ∧ 8000 < s.cfg.inUse.power.vinCutMv := ⟨{ State.reset with mode := .dusk }, by decide⟩

/-- A complete Dusk of a cause, with or without the reference clock. -/
def heldState (c : DuskCause) (ref : Bool) : State :=
  { State.reset with mode := .dusk, power := { State.reset.power with dusk := some ⟨c, ⟨0, 0⟩, 0, 0, true, true, false, 0⟩, referencePresent := ref } }
theorem witness_PostDuskHoldEnds : ∀ c : DuskCause, ∀ ref : Bool, ∃ d : DuskEp, (heldState c ref).mode = .dusk ∧ (heldState c ref).power.dusk = some d ∧
    d.complete = true ∧ d.cause = c ∧ (heldState c ref).power.referencePresent = ref ∧ (heldState c ref).sec.alarmPending = false ∧
    (heldState c ref).start.run = none :=
  fun c ref => ⟨⟨c, ⟨0, 0⟩, 0, 0, true, true, false, 0⟩, rfl, rfl, rfl, rfl, rfl, rfl, rfl⟩
theorem witness_PostDuskHoldEnds_valid : (heldState .belowCut true).cfg.inUse.power.vinWarnMv + 800 ≤ 34000 ∧ (34000 ≤ 34000) ∧ 15000 ≤ 15000 ∧
    ¬ (15000 ≤ 14999) ∧ ¬ (34001 ≤ 34000) := by decide

theorem witness_SupplyGone : ({ State.reset with mode := .dusk } : State).mode = .dusk ∧ 40000 < 40001 ∧ 60000 ≤ 60000 := by decide

theorem witness_ColdStartBegins : State.reset.sec.alarmPending = false ∧ State.reset.mode = .off ∧ State.reset.power.thermalLatch = false ∧
    (DriveConfig.defaults State.reset.fused.part).power.vinWarnMv + 800 ≤ 34000 := by decide
theorem witness_ColdStartBegins_discharged : ∃ s : State, s.sec.alarmPending = false ∧ s.mode = .off ∧ s.power.thermalLatch = false ∧
    s.power.discharging = some 5 ∧ 5 + secs 30 ≤ s.elapsed :=
  ⟨{ State.reset with elapsed := 5 + secs 30, power := { State.reset.power with discharging := some 5 } }, by decide⟩
theorem witness_ColdStartBegins_held : ∃ s : State, s.sec.alarmPending = false ∧ s.start.referenceHeld = true ∧ s.start.resetLow.isSome = true ∧ s.start.coldHeld = true :=
  ⟨{ State.reset with start := { State.reset.start with referenceHeld := true, resetLow := some 0, coldHeld := true } }, by decide⟩
theorem witness_ColdStartBegins_cooled : ∃ s : State, s.sec.alarmPending = false ∧ s.mode = .off ∧ s.power.thermalLatch = true ∧ (950 : Int) ≤ 950 :=
  ⟨{ State.reset with power := { State.reset.power with thermalLatch := true } }, by decide⟩

theorem witness_ResetRecognised : (Mode.ready ≠ .off ∧ Mode.ready ≠ .dusk ∧ Mode.ready ≠ .coldStart ∧ Mode.ready ≠ .warmStart) ∧ State.reset.mode = .off ∧
    ({ State.reset with mode := .coldStart } : State).mode = .coldStart := by decide
theorem witness_ResetRecognised_dusk : ∃ (s : State) (d : DuskEp), s.mode = .dusk ∧ s.power.dusk = some d ∧ d.complete = false :=
  ⟨{ State.reset with mode := .dusk, power := { State.reset.power with dusk := some ⟨.belowCut, ⟨0, 0⟩, 0, 0, true, false, false, 0⟩ } },
   ⟨.belowCut, ⟨0, 0⟩, 0, 0, true, false, false, 0⟩, by decide⟩
theorem witness_ResetRecognised_hold : ∃ (s : State) (d : DuskEp), s.mode = .dusk ∧ s.power.dusk = some d ∧ d.complete = true :=
  ⟨heldState .belowCut true, ⟨.belowCut, ⟨0, 0⟩, 0, 0, true, true, false, 0⟩, rfl, rfl, rfl⟩

theorem witness_ResetHeldAndReleased : ∃ s : State, s.start.resetLow = some 0 ∧ s.start.coldHeld = false ∧ s.mode = .warmStart ∧ s.mode ≠ .off ∧ s.mode ≠ .dusk ∧
    s.elapsed < 0 + ms 500 ∧ s.start.run = none ∧ s.sec.alarmPending = false :=
  ⟨{ State.reset with mode := .warmStart, start := { State.reset.start with resetLow := some 0 } }, by decide⟩
theorem witness_ResetHeldAndReleased_late : ∃ s : State, s.start.resetLow = some 0 ∧ s.mode ≠ .off ∧ s.mode ≠ .dusk ∧ 0 + ms 500 ≤ s.elapsed ∧ s.sec.alarmPending = false :=
  ⟨{ State.reset with mode := .warmStart, elapsed := ms 500, start := { State.reset.start with resetLow := some 0 } }, by decide⟩

theorem witness_StartServes : ∃ (s : State) (r : StartRun), s.pending = [] ∧ s.start.run = some r ∧ r.step = 16 ∧ r.path ≠ .activation ∧ s.start.resetLow = none ∧
    ¬ ((s.noteLevels r.env).power.vinBelowWarn = true ∨ (s.noteLevels r.env).power.pfwLow = true) :=
  ⟨{ State.reset with mode := .coldStart, start := { State.reset.start with run := some ⟨.cold, .vin, 16, { servingVinMv := some 24000 }, false⟩ } },
   ⟨.cold, .vin, 16, { servingVinMv := some 24000 }, false⟩, by decide⟩

/-- Ready-Read with step 17 to come, a bank of a class at a voltage, and so many good blocks. -/
def waitingState (c : BankClass) (mv good : Nat) : State :=
  { State.reset with
    mode := .readyRead
    start := { State.reset.start with awaitingReady := true }
    media := { State.reset.media with good := good }
    power := { State.reset.power with bankMv := List.replicate 8 mv, bankClass := c } }
theorem witness_ReadyEntry : (waitingState .healthy 46000 128512).mode = .readyRead ∧ (waitingState .healthy 46000 128512).start.awaitingReady = true ∧
    overcastLevel < (waitingState .healthy 46000 128512).media.spare ∧ (waitingState .healthy 46000 128512).bankClass ≠ .failed ∧
    needUj (waitingState .healthy 46000 128512).stagingLimit ≤ (waitingState .healthy 46000 128512).avail := by decide
theorem witness_ReadyEntry_overcast : (waitingState .failed 0 126464).media.spare ≤ overcastLevel := by decide
theorem witness_ReadyEntry_waits : overcastLevel < (waitingState .healthy 20000 128512).media.spare ∧
    (waitingState .healthy 20000 128512).avail < needUj (waitingState .healthy 20000 128512).stagingLimit ∧
    (waitingState .failed 46000 128512).bankClass = .failed := by decide

theorem witness_DeepSleep_entry : ∃ s : State, s.power.sleep = .entering .ready ∧ s.ses.inFlight = 0 ∧ s.mode.serving = true :=
  ⟨{ State.reset with mode := .ready, power := { State.reset.power with sleep := .entering .ready } }, by decide⟩
theorem witness_DeepSleep : ∃ s : State, s.mode = .deepSleep ∧ s.power.sleep = .asleep .ready ∧ Mode.ready.serving = true :=
  ⟨{ State.reset with mode := .deepSleep, power := { State.reset.power with sleep := .asleep .ready } }, by decide⟩
def wakeBytes : Bytes :=
  let b := beBytes 1 0xDC ++ beBytes 1 1 ++ beBytes 2 32 ++ zeros 4 ++ beBytes 8 State.reset.fused.unitId ++ zeros 12
  b ++ beBytes 4 (crc32c (b ++ zeros 10))
def asleepState : State :=
  { State.reset with
    mode := .deepSleep, power := { State.reset.power with sleep := .asleep .ready }
    net := { State.reset.net with inbox := [inFrame .wake wakeBytes] } }
theorem witness_DeepSleep_frame : asleepState.mode = .deepSleep ∧ asleepState.power.sleep = .asleep .ready ∧
    ∃ f rest, asleepState.takeFrame .wake = (some f, rest) ∧ asleepState.wakeFrameOk f.payload = true :=
  ⟨rfl, rfl, _, _, rfl, by decide +kernel⟩

theorem witness_MessageFramesRoundTrip : ∃ m : LyMsg, m.kind < 256 ∧ m.gen < 16 ∧ m.tenant < 8 ∧ m.session < 65536 ∧ m.seq + 0 < 2 ^ 64 ∧ m.alive < 65536 ∧
    m.msgId < 2 ^ 32 ∧ m.opcode < 256 ∧ m.bodyBytes.length < 2 ^ 32 ∧ (1448 : Nat) ≤ 65483 :=
  ⟨{ kind := 0x11, gen := 2, tenant := 1, session := 7, body := .raw [1, 2, 3] }, by decide⟩

theorem witness_StepKeeps : (State.reset.fused = State.reset.fused ∧ 0 ≤ State.reset.elapsed ∧ 0 ≤ State.reset.startCount ∧ State.reset.startCount ≤ max32 ∧
    State.reset.log.Fits) ∧ ∃ t, step State.reset = .next t :=
  ⟨⟨rfl, by decide, by decide, by decide, ⟨by decide, by decide, by decide, by decide⟩⟩, ⟨_, rfl⟩⟩

theorem witness_FusedOptionsStay : (∃ t, exec .statActExpired State.reset = .next t) ∧ ∃ t, step State.reset = .next t := ⟨⟨_, rfl⟩, ⟨_, rfl⟩⟩

theorem witness_LockFlagStays : ∃ s t : State, s.sec.lockFlag = true ∧ exec .pfwNWarning s = .next t :=
  ⟨{ State.reset with sec := { State.reset.sec with lockFlag := true } }, _, rfl, rfl⟩
theorem witness_LockFlagStays_port : ∃ s t : State, s.sec.lockFlag = true ∧ (s.portOf .A).epQ = [] ∧ exec (.egressSelect .A none) s = .next t ∧
    s.cfg.inUse.security.svcCloseAction = 1 ∧ ∃ u, exec (.servicePortClose {}) s = .next u :=
  ⟨{ State.reset with
      sec := { State.reset.sec with lockFlag := true }
      cfg := { State.reset.cfg with inUse := { State.reset.cfg.inUse with security := { State.reset.cfg.inUse.security with svcCloseAction := 1 } } } },
    _, rfl, rfl, rfl, rfl, _, rfl⟩
theorem witness_LockFlagStays_start : ∃ (s t : State) (r : StartRun), s.sec.lockFlag = true ∧ s.pending = [] ∧ s.start.run = some r ∧ r.step = 16 ∧
    r.path ≠ .activation ∧ s.start.resetLow = none ∧ step s = .next t :=
  ⟨{ State.reset with
      mode := .coldStart
      sec := { State.reset.sec with lockFlag := true }
      start := { State.reset.start with run := some ⟨.cold, .vin, 16, {}, false⟩ } }, _, ⟨.cold, .vin, 16, {}, false⟩, rfl, rfl, rfl, rfl, by decide, rfl, rfl⟩
theorem witness_LockFlagStays_activation : ∃ (s t : State) (r : StartRun), s.sec.lockFlag = true ∧ s.pending = [] ∧ s.start.run = some r ∧
    r.step = 8 ∧ r.path = .activation ∧ s.start.resetLow = none ∧ step s = .next t :=
  ⟨{ State.reset with
      mode := .warmStart
      sec := { State.reset.sec with lockFlag := true }
      start := { State.reset.start with run := some ⟨.activation, .activation, 8, {}, false⟩ } }, _, ⟨.activation, .activation, 8, {}, false⟩,
    rfl, rfl, rfl, rfl, rfl, rfl, rfl⟩
theorem witness_LockFlagStays_close : ∃ s : State, s.start.scanReleased = true ∧ s.cfg.inUse.security.svcCloseAction = 0 ∧ s.sec.alarmPending = false :=
  ⟨{ State.reset with start := { State.reset.start with scanReleased := true } }, rfl, rfl, rfl⟩
theorem witness_LockFlagStays_unlock : ∃ (s : State) (e : EpEntry) (m : LyMsg) (op : AdminOp) (x : Sess),
    op.opcode = 0xA1 ∧ s.mode = .sealed ∧ (s.portOf .A).up = true ∧ ((s.frameSent .A).preview .A).pick .A = some (.ep 0) ∧
    (s.portOf .A).epQ[0]? = some e ∧ e.load = .ly m ∧ m.body = .admin op 3 0 ∧ s.ses.find m.session = some x ∧ x.phase = .open ∧
    x.driveSeq < 2 ^ 63 ∧
    ((s.frameSent .A).modPort .A fun p => { p with epQ := p.epQ.eraseIdx 0 }).secRefused x.kH2d m.msgId op = none := by
  refine ⟨{ resultState ⟨0xA1, 0, 0, 0, 0, [], false⟩ with
      mode := .sealed
      elapsed := 3000000000
      sec := { (resultState ⟨0xA1, 0, 0, 0, 0, [], false⟩).sec with lockFlag := true, intactSince := some 5 } },
    entryOf (.ly (adminMsg 2 ⟨0xA1, 0, 0, 0, 0, [], false⟩)), adminMsg 2 ⟨0xA1, 0, 0, 0, 0, [], false⟩, ⟨0xA1, 0, 0, 0, 0, [], false⟩,
    { sess3 7 [flight 9] with gen := 2 }, ?_⟩
  decide +kernel

theorem witness_EveryCommandAnswers : (∀ vin, Instr.pfwNWarning = .inputProtectionTrip vin → vin ≤ 60000) ∧ 60000 < 60001 ∧ 40000 ≤ 40000 :=
  ⟨fun vin h => (by cases h), by decide, by decide⟩

theorem witness_EveryCommandKeeps : ∃ t, exec .pfwNWarning State.reset = .next t := ⟨_, rfl⟩

theorem witness_DeadlineRisk : ∃ s : State, s.mode ≠ .off ∧ s.mode ≠ .dusk ∧ s.mode ≠ .rescue ∧ s.power.deadlineRisk = true ∧ s.power.deadlineLapse = false ∧
    s.reg.vcoreMv = 900 :=
  ⟨{ State.reset with mode := .ready, power := { State.reset.power with deadlineRisk := true }, reg := { State.reset.reg with vcoreMv := 900 } }, by decide⟩
theorem witness_DeadlineRisk_none : ∃ s : State, s.mode ≠ .off ∧ s.mode ≠ .dusk ∧ s.power.deadlineRisk = false ∧ s.reg.vcoreMv ≠ 900 :=
  ⟨{ State.reset with mode := .ready, reg := { State.reset.reg with vcoreMv := 899 } }, by decide⟩
theorem witness_DeadlineRisk_bounds : (1030 : Int) ≤ 1030 ∧ (1029 : Int) < 1030 ∧ (1050 : Int) < 1051 ∧ (1010 : Int) ≤ 1010 := by decide

/-- A drive in Ready whose channels run, with or without the reference clock. -/
def sampledState (ref : Bool) : State :=
  { State.reset with
    mode := .ready
    power := { State.reset.power with referencePresent := ref }
    reg := { State.reset.reg with
      ch0 := State.reset.reg.ch0.start0, ch1 := State.reset.reg.ch1.start1 20000, ch2 := { State.reset.reg.ch2 with running := true } } }
theorem witness_RegulatorSamples : (sampledState true).power.referencePresent = true ∧ (sampledState true).mode ≠ .off ∧ (sampledState true).mode ≠ .dusk ∧
    (sampledState true).reg.ch0.running = true ∧ (sampledState true).reg.ch1.running = true ∧ (sampledState false).power.referencePresent = false := by decide

theorem witness_WindbreakLoops : (sampledState true).power.referencePresent = true ∧ (sampledState true).mode ≠ .off ∧ (sampledState true).mode ≠ .dusk ∧
    (sampledState true).reg.ch2.running = true ∧ (sampledState false).power.referencePresent = false := by decide

theorem witness_BankTests : ∃ s : State, s.power.testDue = some 0 ∧ s.power.test = some (40000, 0) ∧ s.power.chargeUs = some 0 ∧ s.reg.ch1.running = true ∧
    200000 ≤ 200000 ∧ 44499 < 44500 :=
  ⟨{ State.reset with power := { State.reset.power with testDue := some 0, test := some (40000, 0), chargeUs := some 0 },
                      reg := { State.reset.reg with ch1 := State.reset.reg.ch1.start1 20000 } }, by decide⟩
theorem witness_BankTests_allowed : ∃ s : State, s.power.testDue = some 0 ∧ (s.waitUntil 0).testAllowed = true :=
  ⟨{ State.reset with mode := .ready, elapsed := secs 10, power := { State.reset.power with testDue := some 0, fullSince := some 0 } }, by decide⟩

theorem witness_TamperSamples : ∀ action ∈ [0, 1, 2], ∃ s : State, s.mode ≠ .off ∧ s.mode = .ready ∧ s.sec.badSamples = 2 ∧ s.fw.download = none ∧ s.sec.action = action := by
  intro action h
  refine ⟨{ State.reset with mode := .ready, sec := { State.reset.sec with badSamples := 2, action := action } }, ?_⟩
  revert action
  decide
theorem witness_TamperSamples_bounds : (∃ s : State, s.mode ≠ .off ∧ s.sec.badSamples ≠ 2) ∧
    (let r : TamperReading := { ohms := 3000, idleOutMv := 800, idleRetMv := 800, pulseOutMv := 3600, pulseRetMv := 3600 }
     ¬ (r.grounded = true ∨ r.follows = false ∨ 800 < r.idleOutMv ∨ 800 < r.idleRetMv ∨ 3600 < r.pulseOutMv ∨ 3600 < r.pulseRetMv) ∧ r.ohms ≤ 3000) ∧
    5000 ≤ ({ ohms := 5000 } : TamperReading).ohms ∧ 800 < ({ idleOutMv := 801 } : TamperReading).idleOutMv :=
  ⟨⟨{ State.reset with mode := .ready }, by decide⟩, by decide⟩

theorem witness_ServicePort : ∃ s : State, s.mode.serving = true ∧ s.start.svcJudged = true ∧ s.start.scanReleased = false ∧ s.start.svcHeld = false ∧
    s.mode ≠ .brace ∧ s.mode ≠ .rescue ∧ 0 < 1 ∧ 79 < 80 :=
  ⟨{ State.reset with mode := .ready, start := { State.reset.start with svcJudged := true } }, by decide⟩
theorem witness_ServicePort_before : (∃ s : State, s.start.svcHeld = true) ∧ State.reset.start.svcHeld = false ∧ State.reset.start.svcJudged = false :=
  ⟨⟨{ State.reset with start := { State.reset.start with svcHeld := true } }, rfl⟩, rfl, rfl⟩
theorem witness_ServicePort_close : ∃ s : State, s.start.scanReleased = true ∧ s.cfg.inUse.security.svcCloseAction ≠ 0 :=
  ⟨{ State.reset with start := { State.reset.start with scanReleased := true }, cfg := { State.reset.cfg with inUse := { State.reset.cfg.inUse with security := { State.reset.cfg.inUse.security with svcCloseAction := 1 } } } }, by decide⟩

theorem witness_TestAccessPort : ∃ s : State, s.start.scanReleased = true ∧ s.start.tap.state = .shiftDr :=
  ⟨{ State.reset with start := { State.reset.start with scanReleased := true, tap := { state := .shiftDr } } }, by decide⟩
theorem witness_TestAccessPort_ir : ∃ s : State, s.start.scanReleased = true ∧ s.start.tap.state = .shiftIr :=
  ⟨{ State.reset with start := { State.reset.start with scanReleased := true, tap := { state := .shiftIr } } }, by decide⟩
theorem witness_TestAccessPort_closed : State.reset.start.scanReleased = false := by decide

/-- A drive in Ready, its watchdog running since 64 ms, with slot 2 assigned to activity 1 as slot 0 is. -/
def watchedState (checked : List Nat) (at_ : Nat) : State :=
  { State.reset with
    mode := .ready, elapsed := 64000000
    cfg := { State.reset.cfg with inUse := { State.reset.cfg.inUse with watchdog := { State.reset.cfg.inUse.watchdog with tasks := [1, 2, 1, 3, 4, 5, 6, 7] } } }
    watch := { State.reset.watch with running := true, checked := checked, periodAt := at_ } }
theorem witness_Watchdog : (watchedState [] 0).watch.running = true ∧ (watchedState [] 0).slotsOf 1 = [0, 2] ∧ (watchedState [] 0).slotsOf 8 = [] ∧
    (∀ n ∈ (watchedState [] 0).slotsOf 1, (watchedState [] 0).watch.checked.contains n = false) ∧
    (watchedState [] 0).watch.checked.length + ((watchedState [] 0).slotsOf 1).length ≤ 8 ∧
    (watchedState [] 0).fused.openNs ≤ (watchedState [] 0).elapsed - (watchedState [] 0).watch.periodAt ∧
    (watchedState [] 0).elapsed - (watchedState [] 0).watch.periodAt < (watchedState [] 0).fused.periodNs + 40 := by decide
theorem witness_Watchdog_last : (∀ n ∈ (watchedState [1, 3, 4, 5, 6, 7] 0).slotsOf 1, (watchedState [1, 3, 4, 5, 6, 7] 0).watch.checked.contains n = false) ∧
    (watchedState [1, 3, 4, 5, 6, 7] 0).watch.checked.length + ((watchedState [1, 3, 4, 5, 6, 7] 0).slotsOf 1).length = 8 := by decide
theorem witness_Watchdog_rom : ({ State.reset with mode := .rescue } : State).slotsOf 0 = [0, 1, 2, 3, 4, 5, 6, 7] ∧
    ({ State.reset with mode := .rescue } : State).bootRom = true := by decide
theorem witness_Watchdog_early : (watchedState [] 64000000).slotsOf 1 = 0 :: [2] ∧ (watchedState [] 64000000).mode.serving = true ∧
    (watchedState [] 64000000).sec.alarmPending = false ∧
    ((watchedState [] 64000000).watch.warmAt.filter fun x => (watchedState [] 64000000).elapsed < x + secs 60).length < 2 ∧
    (watchedState [] 64000000).elapsed - (watchedState [] 64000000).watch.periodAt < (watchedState [] 64000000).fused.openNs := by decide
theorem witness_Watchdog_twice : (watchedState [0] 0).slotsOf 1 = 0 :: [2] ∧ (watchedState [0] 0).watch.checked.contains 0 = true := by decide
theorem witness_Watchdog_expiry : ((watchedState [] 0).watch.warmAt.filter fun x =>
    max (watchedState [] 0).elapsed ((watchedState [] 0).watch.periodAt + (watchedState [] 0).fused.periodNs) < x + secs 60).length < 2 := by decide

theorem witness_LockDrain : ∃ s : State, s.sec.lockDrain = true := ⟨{ State.reset with sec := { State.reset.sec with lockDrain := true } }, rfl⟩
theorem witness_Backstop : ∃ (s : State) (e : Sess) (f : Flight), s.mode ≠ .warmStart ∧ s.mode ≠ .dusk ∧ s.ses.find 7 = some e ∧ e.flight 9 = some f ∧ e.gen ≠ 1 ∧
    f.work = .answered :=
  ⟨{ State.reset with mode := .ready, ses := { State.reset.ses with sessions := [sess3 7 [flight 9]] } }, sess3 7 [flight 9], flight 9, by decide⟩
theorem witness_Backstop_ly1 : ∃ (s : State) (e : Sess) (f : Flight), s.mode ≠ .warmStart ∧ s.mode ≠ .dusk ∧ s.ses.find 7 = some e ∧ e.flight 9 = some f ∧ e.gen = 1 ∧
    f.work = .answered :=
  ⟨{ State.reset with mode := .ready, ses := { State.reset.ses with sessions := [{ sess3 7 [flight 9] with gen := 1 }] } },
   { sess3 7 [flight 9] with gen := 1 }, flight 9, by decide⟩
theorem witness_Backstop_cut : segState.mode ≠ .warmStart ∧ segState.mode ≠ .dusk ∧ segState.ses.find 7 = some segSess ∧ segSess.flight 5 = some segFlight ∧
    segFlight.work = .segmented [7#8] segVersion none ∧ (segSess.assembling.find? fun a => a.admitted && a.msgId = segFlight.msgId) = some segMsg := by decide

/-- A drive in Ready with port A as given and port B in SGMII, out of its reset. -/
def linkedState (a b : PortState) : State :=
  { State.reset with
    mode := .ready
    start := { State.reset.start with limit := .awaitingLink, straps := { State.reset.start.straps with sgmiiB := true } }
    net := { State.reset.net with port := ⟨a, b⟩ } }
theorem witness_LinksChange : ∃ s : State, s.start.straps.sgmii .A = false ∧ (s.portOf .A).phyReset = false ∧ s.speedAllowed .A 100 = true ∧
    s.mode ≠ .off ∧ s.mode ≠ .dusk ∧ (s.portOf .A).up = false ∧ s.start.limit = .awaitingLink :=
  ⟨linkedState { phyReset := false } {}, by decide⟩
theorem witness_LinksChange_sgmii : ∃ s : State, s.start.straps.sgmii .B = true ∧ (s.portOf .B).phyReset = false ∧ s.speedAllowed .B 10 = true ∧
    s.speedAllowed .B 2500 = false ∧ s.mode ≠ .off ∧ s.mode ≠ .dusk ∧ (s.portOf .B).up = false := ⟨linkedState {} { phyReset := false }, by decide⟩
theorem witness_LinksChange_down : ∃ s : State, (s.portOf .A).up = true ∧ (s.portOf .A).preempt = .verifying ∧ s.mode ≠ .rescue ∧
    s.elapsed ≤ (s.portOf .A).verifyFrom + 3 * ms 10 := ⟨linkedState { up := true, preempt := .verifying } {}, by decide⟩
theorem witness_LinksChange_late : ∃ s : State, (s.portOf .A).preempt = .verifying ∧ (s.portOf .A).verifyFrom + 3 * ms 10 < s.elapsed :=
  ⟨{ linkedState { up := true, preempt := .verifying } {} with elapsed := ms 30 + 1 }, by decide⟩

theorem witness_PauseRows : ∃ (s : State) (f : InFrame), s.net.inbox.find? (fun x => x.service = .pause) = some f ∧ f.occupancy = 0 ∧
    s.net.paused = false ∧ (s.portOf .A).heldUntil = some 5 ∧ (s.portOf .A).pauseForce = some 7 :=
  ⟨{ State.reset with
      net := { State.reset.net with
        inbox := [⟨.pause, ⟨.A, .untagged, { mac := 1 }, 0, 0⟩, [], 0⟩]
        port := ⟨{ heldUntil := some 5, pauseForce := some 7 }, {}⟩ } },
   ⟨.pause, ⟨.A, .untagged, { mac := 1 }, 0, 0⟩, [], 0⟩, by decide⟩

theorem witness_QueueTimers : ∃ (s : State) (e : LearnEntry) (f : FwdFrame) (x : EpEntry), s.net.learn.find? (fun x => x.mac = 1) = some e ∧
    (s.portOf .A).fwdQ = f :: [] ∧ (s.portOf .A).epQ = x :: [] ∧ s.net.actUntil = some 5 ∧ s.start.statReady.due = some 9 ∧
    s.start.statReady.pattern = readyPattern s.mode ∧ s.start.statFault.pattern = faultPattern s.faultLatched s.mode :=
  ⟨{ State.reset with
      mode := .overcast
      start := { State.reset.start with statReady := ⟨.hz1, true, some 9⟩, statFault := ⟨.hz1, true, some 9⟩ }
      net := { State.reset.net with
        learn := [⟨1, .A, 0⟩], actUntil := some 5
        port := ⟨{ fwdQ := [⟨0, true, 64, 0, []⟩], epQ := [entryOf (.raw [])] }, {}⟩ } },
   ⟨1, .A, 0⟩, ⟨0, true, 64, 0, []⟩, entryOf (.raw []), by decide⟩
theorem witness_QueueTimers_answer : ∃ (s : State) (e : EpEntry) (m : LyMsg) (x : Sess), (s.portOf .A).epQ = e :: [] ∧ e.load = .ly m ∧
    m.ends = true ∧ s.ses.find m.session = some x ∧ x.phase = .open :=
  ⟨{ State.reset with
      ses := { State.reset.ses with sessions := [sess3 7 [flight 9]] }
      net := { State.reset.net with port := ⟨{ epQ := [entryOf (.ly { kind := 0x11, gen := 3, tenant := 0, session := 7, msgId := 9, ends := true })] }, {}⟩ } },
   entryOf (.ly { kind := 0x11, gen := 3, tenant := 0, session := 7, msgId := 9, ends := true }),
   { kind := 0x11, gen := 3, tenant := 0, session := 7, msgId := 9, ends := true }, sess3 7 [flight 9], by decide⟩

theorem witness_GatesAndCredit : ∃ s : State, s.listInUse .A = true ∧ s.shaped .A 5 = true ∧ (s.portOf .A).up = true :=
  ⟨gatedState, by decide⟩

theorem witness_FirstAnswersPassShapers : ∃ (s : State) (e : EpEntry), (s.portOf .A).up = true ∧ (s.portOf .A).onWire = some (.ep e) ∧
    e.first = true ∧ s.shaped .A e.cls = true ∧ bit (s.portOf .A).gate.gates e.cls = true ∧ ((s.portOf .A).shaper e.cls).idle ≠ 0 ∧
    ((s.portOf .A).shaper e.cls).idle < rateKbps (s.portOf .A).speed ∧ ((s.portOf .A).shaper e.cls).lo < ((s.portOf .A).shaper e.cls).cs ∧
    ((s.portOf .A).shaper e.cls).cs ≤ ((s.portOf .A).shaper e.cls).hi :=
  ⟨{ gatedState with net := { gatedState.net with
      port := ⟨{ up := true, speed := 100, onWire := some (.ep { firstAnswer with cls := 5 }), shaper5 := { idle := 1000, hi := 10, lo := -10 } }, {}⟩ } },
   { firstAnswer with cls := 5 }, by decide⟩

theorem witness_PortSelectionOrder : ∃ (s : State) (e : EpEntry), (s.portOf .A).pauseQ = [] ∧ (s.portOf .A).epQ[0]? = some e ∧ e.first = true ∧ e.entered = true ∧
    s.eligible .A e.cls e.length true true = true ∧ (s.portOf .A).heldUntil = none ∧ s.pick .A = some (.ep 0) :=
  ⟨{ State.reset with net := { State.reset.net with port := ⟨{ up := true, speed := 1000, epQ := [firstAnswer] }, {}⟩ } }, firstAnswer, by decide⟩
theorem witness_PortSelectionOrder_held : ∃ s : State, (s.portOf .A).heldUntil ≠ none ∧ (s.portOf .A).pauseQ = [] :=
  ⟨{ State.reset with net := { State.reset.net with port := ⟨{ heldUntil := some 5 }, {}⟩ } }, by decide⟩
theorem witness_PortSelectionOrder_forwarded : ∃ s : State, s.pick .A = some (.fwd 0) ∧ (s.portOf .B).pauseQ ≠ [] ∧ s.pick .B = some .pause :=
  ⟨{ State.reset with net := { State.reset.net with
      port := ⟨{ up := true, speed := 1000, fwdQ := [⟨0, true, 64, 0, []⟩] }, { up := true, speed := 1000, pauseQ := [0] }⟩ } }, by decide⟩
theorem witness_PortSelectionOrder_gptp : ∃ s : State, (s.portOf .A).pauseQ = [] ∧ (s.portOf .A).heldUntil = none ∧ (s.portOf .A).gptpQ ≠ [] ∧
    ∀ e : EpEntry, e ∈ (s.portOf .A).epQ → e.first = true → e.entered = true → s.eligible .A e.cls e.length true true = false :=
  ⟨{ State.reset with net := { State.reset.net with port := ⟨{ gptpQ := [⟨0, .pdelayReq 1, ⟨5, 1⟩, 0, none⟩] }, {}⟩ } }, by decide⟩

theorem witness_EgressSelects : ∃ s : State, (s.portOf .A).up = true ∧ s.mode ≠ .warmStart ∧ (s.portOf .A).pauseQ = 5 :: [] ∧ (s.portOf .B).up = false :=
  ⟨{ State.reset with net := { State.reset.net with port := ⟨{ up := true, pauseQ := [5] }, {}⟩ } }, by decide⟩
theorem witness_EgressSelects_idle : ∃ s : State, (s.portOf .A).up = true ∧ s.mode ≠ .warmStart ∧ ((s.frameSent .A).preview .A).pick .A = none :=
  ⟨{ State.reset with net := { State.reset.net with port := ⟨{ up := true }, {}⟩ } }, by decide⟩
theorem witness_EgressSelects_forwards : ∃ s : State, (s.portOf .A).up = true ∧ s.mode ≠ .warmStart ∧
    ((s.frameSent .A).preview .A).pick .A = some (.fwd 0) ∧ (s.portOf .A).fwdQ[0]? = some ⟨0, true, 64, 0, []⟩ :=
  ⟨{ State.reset with net := { State.reset.net with port := ⟨{ up := true, speed := 1000, fwdQ := [⟨0, true, 64, 0, []⟩] }, {}⟩ } }, by decide⟩
theorem witness_EgressSelects_answers : ∃ (s : State) (x : Sess), (s.portOf .A).up = true ∧ s.mode ≠ .warmStart ∧
    ((s.frameSent .A).preview .A).pick .A = some (.ep 0) ∧ (s.portOf .A).epQ[0]? = some firstAnswer ∧
    s.ses.find 7 = some x ∧ x.phase = .open ∧ x.driveSeq < 2 ^ 64 - 1 ∧ firstAnswer.left ≤ 1 :=
  ⟨{ State.reset with
      ses := { State.reset.ses with sessions := [sess3 7 [flight 9]] }
      net := { State.reset.net with port := ⟨{ up := true, speed := 1000, epQ := [firstAnswer] }, {}⟩ } }, sess3 7 [flight 9], by decide⟩

theorem witness_GptpMessages : ∃ (s : State) (f : InFrame), s.net.inbox.find? (fun x => x.service = .gptp) = some f ∧ f.occupancy = 0 ∧
    s.net.paused = false ∧ s.time.running = true ∧ parseGptp f.payload = none :=
  ⟨gptpState [] , gptpIn [], by decide⟩
/-- What a message of the drive's domain from another clock meets: the message, and the port it came by. -/
def heard (b : Bytes) (m : GptpMsg) : Bool :=
  let s := gptpState b
  match s.net.inbox.find? (fun x => x.service = .gptp) with
  | none => false
  | some f => match parseGptp f.payload with
    | none => false
    | some g => decide (f.occupancy = 0 ∧ s.net.paused = false ∧ f.rx.port = .A ∧ g.domain = s.timeCfg.domain ∧ g.source.clock ≠ s.clockId ∧ g.msg = m)
def gptpMine : PortId := (gptpState []).portId .A
theorem witness_GptpMessages_request : heard (gptpBytes 2) (.pdelayReq 9) = true ∧ ((gptpState (gptpBytes 2)).portOf .A).up = true := by decide
theorem witness_GptpMessages_response : heard (gptpOf 3 0 (zeros 10 ++ gptpMine.encode)) (.pdelayResp 9 0 0 gptpMine) = true ∧
    9 = ((gptpState []).time.port.get .A).pdelaySeq ∧ ((gptpState []).time.port.get .A).t1.isSome = true := by decide
theorem witness_GptpMessages_delay : heard (gptpOf 10 0 (zeros 10 ++ gptpMine.encode)) (.pdelayRespFollowUp 9 0 0 gptpMine) = true ∧
    ((gptpState []).time.port.get .A).t1 = some 1 ∧ ((gptpState []).time.port.get .A).t2 = some 2 ∧ ((gptpState []).time.port.get .A).t4 = some 4 := by decide
theorem witness_GptpMessages_announce : heard (gptpOf 11 0 (zeros 13 ++ [248#8] ++ zeros 5 ++ beBytes 8 5 ++ zeros 3)) (.announce ⟨248, 0, 0, 0, 0, 5, 0, 0, []⟩) = true ∧
    5 ≠ (gptpState []).clockId ∧ 0 < 255 ∧ ([] : List Nat).contains (gptpState []).clockId = false := by decide
theorem witness_GptpMessages_sync : heard (gptpOf 0 2 (zeros 10)) (.sync 9 true 0 0 0) = true ∧ (gptpState []).time.slave = some .A ∧
    ((gptpState []).time.port.get .A).asCapable = true := by decide
theorem witness_GptpMessages_followUp : heard (gptpBytes 8) (.followUp 9 0 0 0) = true ∧ (gptpState []).time.slave = some .A ∧
    ((gptpState []).time.port.get .A).syncSeq = some (9, 1000700) := by decide

theorem witness_TimeMessagesSent : ∃ s : State, s.time.running = true ∧ s.time.grandmaster = true ∧ (s.portOf .A).up = true ∧ (s.portOf .B).up = false ∧
    (s.time.port.get .A).asCapable = true ∧ s.time.slave = none ∧ s.gptpRole .A = .master :=
  ⟨{ gptpState [] with time := { (gptpState []).time with grandmaster := true, slave := none } }, by decide⟩
theorem witness_TimeMessagesSent_follower : ∃ s : State, s.time.running = true ∧ s.time.slave = some .A ∧ s.time.synced = false ∧
    (s.time.port.get .A).announce.isSome = true ∧ (s.time.port.get .B).announce = none :=
  ⟨{ gptpState [] with time := { (gptpState []).time with port := ⟨{ announce := some ⟨0, 248, 0, 0, 0, 5, 0, 0, []⟩ }, {}⟩ } }, by decide⟩

theorem witness_PpsEdges : ∃ s : State, s.time.running = true ∧ s.mode ≠ .off ∧ s.mode ≠ .dusk ∧ s.time.ratePpb = 0 ∧ (-500000 ≤ s.time.ratePpb ∧ s.time.ratePpb ≤ 500000) ∧ s.time.anchorAt ≤ s.elapsed ∧
    s.time.ppsHigh = true ∧ s.time.ppsRise = some 3 ∧ 3 ≤ s.elapsed :=
  ⟨{ State.reset with mode := .ready, elapsed := 9, time := { State.reset.time with running := true, ppsHigh := true, ppsRise := some 3 } }, by decide⟩
theorem witness_PpsEdges_input : ∃ s : State, s.time.running = true ∧ s.ppsMode = 1 :=
  ⟨{ State.reset with time := { State.reset.time with running := true, configured := true }
                      cfg := { State.reset.cfg with inUse := { State.reset.cfg.inUse with time := { State.reset.cfg.inUse.time with ppsInMode := 1 } } } }, by decide⟩
theorem witness_PpsEdges_unused : ∃ s : State, s.time.running = true ∧ s.ppsMode = 0 :=
  ⟨{ State.reset with time := { State.reset.time with running := true, configured := true }
                      cfg := { State.reset.cfg with inUse := { State.reset.cfg.inUse with time := { State.reset.cfg.inUse.time with ppsInMode := 0 } } } }, by decide⟩

theorem witness_DawnRows : ∃ (s : State) (f : InFrame), s.start.series = some ⟨.ready, 3, 7⟩ ∧ (s.portOf .A).up = true ∧ (s.portOf .B).up = false ∧
    s.net.inbox.find? (fun x => x.service = .solicitation) = some f ∧ f.occupancy = 0 ∧ s.net.paused = false ∧
    s.servingMode.serving = true ∧ s.dueAgain (ms 10) (s.portOf f.rx.port).solicitAt = true ∧ (s.portOf f.rx.port).up = true ∧ s.start.limit = .until_ 9 :=
  ⟨{ State.reset with
      mode := .ready
      start := { State.reset.start with series := some ⟨.ready, 3, 7⟩, limit := .until_ 9 }
      net := { State.reset.net with inbox := [inFrame .solicitation []], port := ⟨{ up := true, speed := 1000 }, {}⟩ } },
   inFrame .solicitation [], by decide⟩
theorem witness_DawnRows_again : ∃ s : State, s.servingMode.serving = true ∧ (s.portOf .A).solicitAt = some 0 ∧ s.elapsed = ms 10 - 1 ∧
    s.dueAgain (ms 10) (s.portOf .A).solicitAt = false :=
  ⟨{ State.reset with mode := .ready, elapsed := ms 10 - 1, net := { State.reset.net with port := ⟨{ solicitAt := some 0 }, {}⟩ } }, by decide⟩

theorem witness_AddressServices_closed : ∀ k ∈ [Service.arp, .nd, .echo4, .echo6], ∃ (s : State) (f : InFrame), s.net.paused = false ∧
    s.net.inbox.find? (fun x => x.service = k) = some f ∧ f.occupancy = 0 ∧ s.net.gateOpen = false := by
  intro k h
  refine ⟨{ addressed [inFrame k []] with net := { (addressed [inFrame k []]).net with gateOpen := false } }, inFrame k [], ?_⟩
  revert k
  decide
theorem witness_AddressServices_arp : ∃ (s : State) (f : InFrame), s.net.paused = false ∧ s.net.inbox.find? (fun x => x.service = .arp) = some f ∧
    f.occupancy = 0 ∧ s.net.gateOpen = true ∧ (s.portOf f.rx.port).up = true ∧ s.ip4 ≠ 0 ∧ 28 ≤ f.payload.length ∧ fieldAt 0 2 f.payload = 1 ∧
    fieldAt 2 2 f.payload = 0x0800 ∧ fieldAt 4 1 f.payload = 6 ∧ fieldAt 5 1 f.payload = 4 ∧ fieldAt 6 2 f.payload = 1 ∧ fieldAt 24 4 f.payload = s.ip4 :=
  ⟨addressed [inFrame .arp (arpFrame 1 5 8 0 (addressed []).ip4)], inFrame .arp (arpFrame 1 5 8 0 (addressed []).ip4), by decide⟩
theorem witness_AddressServices_gateway : ∃ s : State, s.net.paused = false ∧ (s.portOf .A).gatewayDue = some 5 ∧ s.ip4 ≠ 0 ∧
    s.cfg.inUse.protocol.v4Gateway ≠ 0 ∧ (s.portOf .A).up = true := ⟨addressed [], by decide⟩
theorem witness_AddressServices_nd : ∃ (s : State) (f : InFrame), s.net.paused = false ∧ s.net.inbox.find? (fun x => x.service = .nd) = some f ∧
    f.occupancy = 0 ∧ s.net.gateOpen = true ∧ (s.portOf f.rx.port).up = true ∧ fieldAt 7 1 f.payload = 255 ∧ 64 ≤ f.payload.length ∧
    s.ip6s.contains (fieldAt 48 16 f.payload) = true ∧ fieldAt 40 1 f.payload ≠ 136 ∧ fieldAt 8 16 f.payload ≠ 0 :=
  ⟨addressed [inFrame .nd (ip6Header 9 2 58 255 24 ++ [135#8] ++ zeros 7 ++ beBytes 16 (addressed []).ip6s.head!)],
   inFrame .nd (ip6Header 9 2 58 255 24 ++ [135#8] ++ zeros 7 ++ beBytes 16 (addressed []).ip6s.head!), by decide⟩
theorem witness_AddressServices_echo : ∃ (s : State) (f g : InFrame), s.net.paused = false ∧ s.net.inbox.find? (fun x => x.service = .echo4) = some f ∧
    f.occupancy = 0 ∧ s.net.inbox.find? (fun x => x.service = .echo6) = some g ∧ g.occupancy = 0 ∧ s.net.gateOpen = true ∧
    (s.portOf f.rx.port).up = true ∧ f.payload.length ≤ 1500 ∧ (s.portOf f.rx.port).echoCount = 0 :=
  ⟨addressed [inFrame .echo4 [], inFrame .echo6 []], inFrame .echo4 [], inFrame .echo6 [], by decide⟩
theorem witness_AddressServices_rate : ∃ s : State, s.elapsed < (s.portOf .A).echoFrom + secs 1 ∧ 100 ≤ (s.portOf .A).echoCount :=
  ⟨{ State.reset with net := { State.reset.net with port := ⟨{ echoCount := 100 }, {}⟩ } }, by decide⟩

theorem witness_SessionsOpen : ∃ f : InFrame, (addressed [inFrame .sessionOpen []]).net.inbox.find? (fun x => x.service = .sessionOpen) = some f :=
  ⟨inFrame .sessionOpen [], by decide⟩
theorem witness_SessionsOpen_refused : ({ openState with mode := .ready }).openRefused openHeader ⟨.A, .untagged, { mac := 1 }, 0, 0⟩ [] = some (0x40, 3) := by decide
/-- A body with the public key of the curve's base point. -/
def openBody : Bytes :=
  zeros 24 ++ beBytes 32 0x6B17D1F2E12C4247F8BCE6E563A440F277037D812DEB33A0F4A13945D898C296 ++
    beBytes 32 0x4FE342E2FE1A7F9B8EE7EB4A7C0F9E162BCE33576B315ECECBB6406837BF51F5
theorem witness_SessionsOpen_accepts : ({ openState with mode := .ready }).openRefused openHeader ⟨.A, .untagged, { mac := 1 }, 0, 0⟩ openBody = none ∧
    ({ openState with mode := .ready }).ses.find (({ openState with mode := .ready } : State).nextId 0xFFFF 0) = none := by decide +kernel

/-- A handshake pending since 4, without key or salt, and a confirm of it. -/
def confirmState (b : Bytes) : State :=
  { addressed [inFrame .sessionConfirm b] with ses := { State.reset.ses with sessions := [{ sess3 0 [] with phase := .pending 4 }] } }
theorem witness_HandshakesEnd : ∃ (f : InFrame) (e : Sess), (confirmState []).net.inbox.find? (fun x => x.service = .sessionConfirm) = some f ∧
    (confirmState []).ses.find (parseHeader f.payload).session = some e ∧ e.phase = .pending 4 ∧ (confirmState []).ses.find 0 = some e :=
  ⟨inFrame .sessionConfirm [], { sess3 0 [] with phase := .pending 4 }, by decide⟩
/-- A confirm whose tag verifies under the zero key. -/
def confirmBytes (key : Bytes) : Bytes :=
  let head := beBytes 1 0x03 ++ zeros 31
  let tagged := head ++ msgTag key (zeros 4) 0 head
  tagged ++ beBytes 4 (msgCheck 0 0 tagged)
theorem witness_HandshakesEnd_tag : tagOk (zeros 32) (zeros 4) (confirmBytes (zeros 32)) = true ∧ tagOk (zeros 32) (zeros 4) (confirmBytes (beBytes 32 1)) = false ∧
    (parseHeader (confirmBytes (zeros 32))).session = 0 ∧ (confirmState []).power.sleep = .awake := by decide +kernel

theorem witness_SessionsClose : ∃ (s : State) (f : InFrame) (e : Sess), s.net.inbox.find? (fun x => x.service = .sessionClose) = some f ∧
    s.ses.find (parseHeader f.payload).session = some e ∧ e.phase = .open ∧ s.ses.find 0 = some e ∧ s.net.gateOpen = true ∧ s.mode ≠ .rescue :=
  ⟨{ addressed [] with
      net := { State.reset.net with inbox := [inFrame .sessionClose []], gateOpen := true }
      ses := { State.reset.ses with sessions := [sess3 0 [flight 9]] } },
   inFrame .sessionClose [], sess3 0 [flight 9], by decide⟩
theorem witness_SessionsClose_cancels : bit (fieldAt 3 1 (frameBody (zeros 35 ++ [1#8] ++ zeros 20))) 0 = true ∧ bit (fieldAt 3 1 (frameBody (zeros 56))) 0 = false := by decide

theorem witness_MessagesEnd : ∃ (s : State) (e : Sess) (a : Assembly), s.ses.find 7 = some e ∧ e.joining 0x10 5 = some a ∧
    a.admitted = false ∧ s.net.gateOpen = true := ⟨oneMessage [msgOf 0x10 5 0x10 false []], sessWith [msgOf 0x10 5 0x10 false []], msgOf 0x10 5 0x10 false [], by decide⟩
theorem witness_MessagesEnd_cancel : ∃ (s : State) (e : Sess) (c : Assembly), s.ses.find 7 = some e ∧ e.message 0x13 5 = some c ∧ e.phase = .open ∧
    s.net.gateOpen = true ∧ c.complete = true ∧ s.tenantDenied e.tenant e.gen none = none ∧ s.servingMode ≠ .sealed ∧
    (fieldAt? 0 4 c.body).bind e.flight = some (flight 9) ∧ (flight 9).committed = false :=
  ⟨oneMessage [msgOf 0x13 5 0 true (beBytes 4 9)], sessWith [msgOf 0x13 5 0 true (beBytes 4 9)], msgOf 0x13 5 0 true (beBytes 4 9), by decide⟩
theorem witness_MessagesEnd_cancel_none : ∃ (e : Sess) (c : Assembly), (oneMessage [msgOf 0x13 5 0 true (beBytes 4 8)]).ses.find 7 = some e ∧
    e.message 0x13 5 = some c ∧ (fieldAt? 0 4 c.body).bind e.flight = none ∧ ({ flight 9 with committed := true } : Flight).committed = true :=
  ⟨sessWith [msgOf 0x13 5 0 true (beBytes 4 8)], msgOf 0x13 5 0 true (beBytes 4 8), by decide⟩
theorem witness_MessagesEnd_keepalive : admits ((oneMessage [msgOf 0x10 5 0x01 true (zeros 20)]).takeRequest 7 5 false [0x01]) (fun x u =>
    decide (fieldAt 0 1 x.body = 0 ∧ 20 ≤ x.body.length ∧ u.power.sleep = .awake)) = true := by decide

theorem witness_FrameReception : ∃ (s : State) (f : Frame), (s.portOf .A).up = true ∧ (s.portOf .B).up = false ∧ f = parseFrame (ethFrame broadcastMac 5 none 0x0806 []) ∧
    64 ≤ (s.portCfg .A).maxFrame - 4 ∧ f.length = 64 ∧ f.fcsOk = true ∧ isGroup f.src = false ∧ f.src ≠ 0 ∧ f.src ≠ s.macInUse.toNat ∧
    f.src ≠ s.fused.macPortA.toNat ∧ f.src ≠ s.fused.macPortB.toNat ∧ f.tagged = false ∧ f.dst = broadcastMac.toNat ∧ broadcastMac ≠ s.macInUse ∧
    broadcastMac ≠ s.fused.macPort .A ∧ f.ethertype = 0x0806 ∧ s.cfg.inUse.protocol.ly3Ethertype ≠ 0x0806 ∧ s.mode.serving = true ∧
    s.net.gateOpen = true ∧ s.net.level + occupancyOf 64 f.tagged ≤ 196608 :=
  ⟨oneMessage [], parseFrame (ethFrame broadcastMac 5 none 0x0806 []), by decide⟩
theorem witness_FrameReception_pause : ∃ f : Frame, f = parseFrame (ethFrame 0x0180C2000001 5 none 0x8808 (beBytes 2 1)) ∧ f.fcsOk = true ∧
    f.dst = 0x0180C2000001 ∧ f.ethertype = 0x8808 ∧ fieldAt 0 2 f.payload = 1 ∧ f.length = 64 :=
  ⟨parseFrame (ethFrame 0x0180C2000001 5 none 0x8808 (beBytes 2 1)), by decide⟩
theorem witness_FrameReception_gate : ∃ f : Frame, f = parseFrame (ethFrame State.reset.macInUse 5 none 0x0806 []) ∧ f.fcsOk = true ∧
    f.dst = State.reset.macInUse.toNat ∧ (f.dst < 0x0180C2000000 ∨ 0x0180C200000F < f.dst) ∧ f.dst ≠ (State.reset.fused.macPort .A).toNat ∧
    State.reset.net.gateOpen = false := ⟨parseFrame (ethFrame State.reset.macInUse 5 none 0x0806 []), by decide⟩
theorem witness_FrameReception_faults : ∃ f : Frame, f = parseFrame (zeros 64) ∧ f.length = 64 ∧ f.fcsOk = false ∧
    (parseFrame (zeros 63)).length < 64 ∧ 64 ≤ (parseFrame (zeros 2000)).length ∧ (State.reset.portCfg .A).maxFrame - 4 < (parseFrame (zeros 2000)).length :=
  ⟨parseFrame (zeros 64), by decide⟩
/-- A frame without a tag, of 64 bytes, with a sound FCS, from an address to another. -/
def frame64 (dst src : Nat) : Bytes :=
  let b := beBytes 6 dst ++ beBytes 6 src ++ beBytes 2 0x0800 ++ zeros 46
  b ++ fcsOf b
theorem witness_FrameReception_source : (parseFrame (frame64 5 0)).fcsOk = true ∧ (parseFrame (frame64 5 0)).src = 0 ∧ (frame64 5 0).length = 64 ∧
    (parseFrame (frame64 5 0x010000000001)).fcsOk = true ∧ isGroup (parseFrame (frame64 5 0x010000000001)).src = true := by decide +kernel
/-- Port A with preemption active, and a part of frame 2 whose fragment 1 is awaited. -/
def preemptState (part : Option RxPart) : State := linkedState { up := true, speed := 100, preempt := .active, rxPart := part } {}
theorem witness_FrameReception_fragments : ((preemptState none).portOf .A).up = true ∧ ((preemptState none).portOf .A).preempt = .active ∧
    ((preemptState none).portOf .A).rxPart = none ∧ (zeros 60 ++ mcrcOf (zeros 60)).drop ((zeros 60 ++ mcrcOf (zeros 60)).length - 4) = mcrcOf (zeros 60) ∧
    ((preemptState (some ⟨2, 1, zeros 60, 0, false⟩)).portOf .A).rxPart = some ⟨2, 1, zeros 60, 0, false⟩ ∧ 3 ≠ (2 : Nat) ∧
    (zeros 64).drop 60 ≠ mcrcOf (zeros 60 ++ zeros 60) ∧ 4 ≤ (zeros 64).length := by decide +kernel
theorem witness_FrameReception_inactive : ((linkedState { up := true } {}).portOf .A).up = true ∧ ((linkedState { up := true } {}).portOf .A).preempt ≠ .active ∧
    MPacket.first 1 ≠ .whole := by decide

/-- A drive in a mode whose sessions are these. -/
def sessionsState (m : Mode) (l : List Sess) : State := { oneMessage [] with mode := m, ses := { State.reset.ses with sessions := l } }
/-- The hypotheses that the clauses of Admission share, on request 5 of session 7, with those of one clause. -/
def requestMet (s : State) (ly1 : Bool) (ops : List Nat) (q : Sess → Assembly → Bool) : Bool :=
  match s.ses.find 7 with
  | none => false
  | some e => match e.message 0x10 5 with
    | none => false
    | some a => decide (e.phase = .open ∧ s.net.gateOpen = true ∧ a.complete = true ∧ a.admitted = false ∧ decide (e.gen = 1) = ly1 ∧
        ops.contains a.opcode = true) && q e a
def getMsg (stamp : Nat) : Assembly :=
  { msgOf 0x10 5 0x10 true (kvBody [7#8] 0 4 []) with frames := [⟨0, true, kvBody [7#8] 0 4 [], 0, { rx1 with stamp := stamp }⟩] }
theorem witness_Admission : requestMet (sessionsState .ready [{ sess3 7 [] with assembling := [getMsg 1] }]) false [0x10] (fun e a =>
    let s := sessionsState .ready [e]
    decide (s.outranked e a = false ∧ (e.flight 5).isSome = false ∧ s.tenantDenied e.tenant e.gen (some a.opcode) = none ∧ s.servingMode ≠ .sealed ∧
      s.windowFull e s.limitRuns = none ∧ e.gen ≠ 1)) = true := by decide
theorem witness_Admission_outranked : requestMet (sessionsState .ready [{ sess3 7 [] with assembling := [getMsg 1] }, { sess3 8 [] with assembling := [getMsg 0] }])
    false [0x10] (fun e a => (sessionsState .ready [{ sess3 7 [] with assembling := [getMsg 1] }, { sess3 8 [] with assembling := [getMsg 0] }]).outranked e a) = true := by decide
theorem witness_Admission_duplicate : requestMet (sessionsState .ready [{ sess3 7 [flight 5] with assembling := [getMsg 1] }]) false [0x10] (fun e a =>
    decide ((sessionsState .ready [e]).outranked e a = false ∧ e.gen ≠ 2 ∧ (e.flight 5).isSome = true)) = true := by decide
theorem witness_Admission_denied : requestMet (sessionsState .ready [{ sess3 7 [] with tenant := 3, assembling := [getMsg 1] }]) false [0x10] (fun e a =>
    decide ((sessionsState .ready [e]).outranked e a = false ∧ (e.flight 5).isSome = false ∧
      (sessionsState .ready [e]).tenantDenied e.tenant e.gen (some a.opcode) = some 1)) = true := by decide
theorem witness_Admission_sealed : requestMet (sessionsState .sealed [{ sess3 7 [] with assembling := [getMsg 1] }]) false [0x10] (fun e a =>
    let s := sessionsState .sealed [e]
    decide (s.outranked e a = false ∧ (e.flight 5).isSome = false ∧ s.tenantDenied e.tenant e.gen (some a.opcode) = none ∧ s.servingMode = .sealed ∧
      ¬ (e.tenant = 0 ∧ (a.opcode = 0x01 ∨ isAdminOp a.opcode = true)))) = true := by decide
theorem witness_Admission_full : requestMet (sessionsState .ready [{ sess3 7 [flight 9] with window := 1, assembling := [getMsg 1] }]) false [0x10] (fun e a =>
    let s := sessionsState .ready [e]
    decide (s.outranked e a = false ∧ (e.flight 5).isSome = false ∧ s.tenantDenied e.tenant e.gen (some a.opcode) = none ∧ s.servingMode ≠ .sealed ∧
      s.windowFull e s.limitRuns = some 1)) = true := by decide
theorem witness_Admission_busy : requestMet (sessionsState .ready [{ sess3 7 [] with
      gen := 1, sets := [{ busy := true }], assembling := [msgOf 0x10 5 0x20 true (ly1Body 3 1 [])] }]) true [0x20] (fun e a =>
    let s := sessionsState .ready [e]
    decide (s.outranked e a = false ∧ (e.flight 5).isSome = false ∧ s.tenantDenied e.tenant e.gen (some a.opcode) = none ∧ s.servingMode ≠ .sealed ∧
      s.windowFull e s.limitRuns = none ∧ loadsSet a.opcode = true ∧ (e.sets.getD (parseLy1 a.body).set {}).busy = true)) = true := by decide

/-- A GET of key 7 with a version condition and a number of bytes, admitted at 5, over these keys: its shared hypotheses, with
those of one clause. -/
def getMet (keys : List KeyRec) (cond b : Nat) (q : Ask → ReqBody → State → Bool) : Bool :=
  let s := kvState keys (msgOf 0x10 5 0x10 true (adminBody 0 1 cond 0 b [7#8]))
  admits (({ s with time := { s.time with admitFloor := 5 } } : State).takeRequest 7 5 false [0x10]) fun x u =>
    decide ((parseBody false x.body).keyBad = none ∧ (parseBody false x.body).b ≤ 1416 ∧ u.power.sleep = .awake) && q x.ask (parseBody false x.body) u
theorem witness_Gets_absent : getMet [] 0 4 (fun a p u => decide (resolve u.store.keys a.tenant p.key a.admitAt = .absent)) = true := by decide
theorem witness_Gets_expired : getMet [⟨0, [7#8], [{ kvVersion with expiry := 1 }]⟩] 0 4 (fun a p u =>
    decide (resolve u.store.keys a.tenant p.key a.admitAt = .expired 3)) = true := by decide
theorem witness_Gets_mismatch : getMet [⟨0, [7#8], [kvVersion]⟩] 2 4 (fun a p u =>
    decide (resolve u.store.keys a.tenant p.key a.admitAt = .present kvVersion ∧ readable u.store.keys a.tenant p.key p.versionCond a.admitAt = none)) = true := by decide
theorem witness_Gets_length : getMet [⟨0, [7#8], [kvVersion]⟩] 0 0 (fun a p u =>
    decide (resolve u.store.keys a.tenant p.key a.admitAt = .present kvVersion ∧
      readable u.store.keys a.tenant p.key p.versionCond a.admitAt = some kvVersion ∧ p.b = 0)) = true := by decide
theorem witness_Gets_held : getMet [⟨0, [7#8], [kvVersion]⟩] 0 4 (fun a p u =>
    decide (resolve u.store.keys a.tenant p.key a.admitAt = .present kvVersion ∧ a.gen = 3 ∧ p.b ≠ 0 ∧ kvVersion.covers p.a p.b = true ∧
      readable u.store.keys a.tenant p.key p.versionCond a.admitAt = some kvVersion ∧ spanInSram u.store a.tenant p.key kvVersion p.a p.b = false)) = true := by decide
theorem witness_Gets_open : getMet openKey 0 9 (fun a p u =>
    decide (readable u.store.keys a.tenant p.key p.versionCond a.admitAt = some { kvVersion with isOpen := true, total := 9 } ∧ p.b ≠ 0 ∧
      ({ kvVersion with isOpen := true, total := 9 } : Version).covers p.a p.b = false)) = true := by decide
theorem witness_Gets_sram : spanInSram { State.reset.store with staging := [{ id := 1, change := .put 0 [7#8] kvVersion, bytes := 64, lines := [(0, 64)], off := 0, len := 4 }] }
    0 [7#8] kvVersion 0 4 = true ∧ kvVersion.covers 0 4 = true := by decide

/-- A PUT or APPEND of two bytes to key 7: its shared hypotheses, with those of one clause on the version and the judgement. -/
def writeMet (append : Bool) (s : State) (q : NewVersion → Judgement → Bool) : Bool :=
  requestMet s false [if append = true then 0x21 else 0x20] fun e m =>
    !m.early e.gen && admits (s.takeRequest 7 5 false [if append = true then 0x21 else 0x20]) fun x u =>
      let a := x.ask
      let p := parseBody false x.body
      let b := u.expirePin a.tenant p.key a.admitAt
      decide (firstOf [writeLimits append a p, b.writeRefused] = none) && okWith (b.resolveWrite append a p) fun w =>
        q w (b.judge ⟨lineBytes (if w.segmented = true then min p.b segmentBytes else p.b), true,
          overCapacity b.store.keys a.tenant p.key a.admitAt (p.keyLen + w.total) s.fused.userCapacity⟩)
def putState : State := kvState [] (msgOf 0x10 5 0x20 true (kvBody [7#8] 0 2 [1#8, 2#8]))
theorem witness_WritesAndDeletes_put : writeMet false putState (fun w j => decide (w.num = 1 ∧ j = .granted)) = true := by decide
theorem witness_WritesAndDeletes_append : writeMet true (kvState [⟨0, [7#8], [kvVersion]⟩] (msgOf 0x10 5 0x21 true (kvBody [7#8] 0 2 [1#8, 2#8])))
    (fun w j => decide (w.num = 4 ∧ w.total = 6 ∧ j = .granted)) = true := by decide
theorem witness_WritesAndDeletes_throttled : writeMet false (emptyBuckets putState) (fun _ j => throttles j) = true := by decide
theorem witness_WritesAndDeletes_bracing : writeMet false { putState with power := { putState.power with thermalRefuse := true } }
    (fun _ j => decide (j = .bracing 3)) = true := by decide
/-- A DELETE of key 7: its shared hypotheses, with the judgement of one clause. -/
def deleteMet (f : State → State) (q : Judgement → Bool) : Bool :=
  admits ((f (kvState [⟨0, [7#8], [kvVersion]⟩] (msgOf 0x10 5 0x22 true (kvBody [7#8] 0 0 [])))).takeRequest 7 5 false [0x22]) fun x u =>
    let p := parseBody false x.body
    decide (firstOf [p.keyBad, u.writeRefused] = none ∧ resolve u.store.keys x.ask.tenant p.key x.ask.admitAt = .present kvVersion ∧ p.versionCond = 0) &&
      q (u.judge ⟨64, false, false⟩)
theorem witness_WritesAndDeletes_delete : deleteMet id (fun j => decide (j = .granted)) = true ∧ deleteMet emptyBuckets throttles = true := by decide

/-- A PIN of key 7 over these keys and pins: its shared hypotheses, with those of one clause. -/
def pinMet (v : Version) (pins : List Pin) (q : Ask → ReqBody → State → Bool) : Bool :=
  let s := kvState [⟨0, [7#8], [v]⟩] (msgOf 0x10 5 0x40 true (kvBody [7#8] 0 0 []))
  admits (({ s with store := { s.store with pins := pins } } : State).takeRequest 7 5 false [0x40]) fun x u =>
    let p := parseBody false x.body
    decide (firstOf [p.keyBad, u.writeRefused] = none ∧ resolve u.store.keys x.ask.tenant p.key x.ask.admitAt = .present v ∧ x.ask.gen = 3 ∧
      u.power.thermalRefuse = false ∧ u.mode ≠ .brace) && q x.ask p u
def pinFits (a : Ask) (p : ReqBody) (v : Version) (u : State) : Bool :=
  decide (tenantPins u.store.pins a.tenant + pinCharge p.keyLen v.total ≤ (u.tenant a.tenant).pinMaxKib * 1024 ∧
    pinsTotal u.store.pins + pinCharge p.keyLen v.total ≤ pinCacheBytes)
theorem witness_PinsAndUnpins : pinMet kvVersion [] (fun a p u => decide (findPin u.store.pins a.tenant p.key = none ∧ kvVersion.isOpen = false ∧
    inSram u.store a.tenant p.key kvVersion = false) && pinFits a p kvVersion u) = true := by decide
theorem witness_PinsAndUnpins_open : pinMet { kvVersion with isOpen := true } [] (fun a p u => decide (findPin u.store.pins a.tenant p.key = none) &&
    pinFits a p { kvVersion with isOpen := true } u) = true := by decide
theorem witness_PinsAndUnpins_ready : kvVersion.isOpen = false ∧
    inSram { State.reset.store with staging := [{ id := 1, change := .put 0 [7#8] kvVersion, bytes := 64, lines := [(0, 64)], off := 0, len := 4 }] } 0 [7#8] kvVersion = true := by decide
theorem witness_PinsAndUnpins_full : pinMet kvVersion [⟨0, [8#8], 2097152, none⟩] (fun a p u => decide (findPin u.store.pins a.tenant p.key = none) &&
    !pinFits a p kvVersion u) = true := by decide
theorem witness_PinsAndUnpins_again : pinMet kvVersion [⟨0, [7#8], 128, some 3⟩] (fun a p u =>
    decide (findPin u.store.pins a.tenant p.key = some ⟨0, [7#8], 128, some 3⟩)) = true := by decide
theorem witness_PinsAndUnpins_unpin : admits ((kvState [] (msgOf 0x10 5 0x41 true (kvBody [7#8] 0 0 []))).takeRequest 7 5 false [0x41]) (fun x u =>
    decide ((parseBody false x.body).keyBad = none ∧ u.power.sleep = .awake)) = true := by decide

/-- A range request from key 7 on: its shared hypotheses, with those of one clause. -/
def rangeMet (op : Nat) (body : Bytes) (f : State → State) (q : Ask → ReqBody → State → Bool) : Bool :=
  admits ((f (kvState [] (msgOf 0x10 5 op true body))).takeRequest 7 5 false [op]) fun x u =>
    decide (firstOf [u.rangeLimits (parseBody true x.body), if op = 0x31 then u.writeRefused else u.readRefused] = none) && q x.ask (parseBody true x.body) u
theorem witness_RangesAndLocks : ∀ op ∈ [0x30, 0x31], rangeMet op (kvBody [7#8] 0 0 []) id (fun a p u =>
    decide (rangeEmpty p.key (endBound p.endKey) = false ∧ a.gen = 3 ∧ u.judge ⟨64, false, false⟩ = .granted)) = true := by decide
theorem witness_RangesAndLocks_braced : rangeMet 0x31 (kvBody [7#8] 0 0 []) (fun s => { s with mode := .brace, power := { s.power with brace := some ⟨.vin, .ready, 0, 0, 9000, 0⟩ } })
    (fun a p u => decide (rangeEmpty p.key (endBound p.endKey) = false ∧ a.gen = 3 ∧ u.judge ⟨64, false, false⟩ = .bracing 1)) = true := by decide
theorem witness_RangesAndLocks_empty : rangeMet 0x30 (adminBody 1 1 0 0 0 [7#8, 6#8]) id (fun _ p _ => rangeEmpty p.key (endBound p.endKey)) = true := by decide

theorem witness_RangesAndLocks_grant : ∃ (s : State) (q : RangeLock) (e : Sess) (f : Flight), firstGrantable s.ses.held [] s.ses.waiting = some q ∧
    s.ses.find q.session = some e ∧ e.flight q.msgId = some f ∧ f.work = .rangeWait false [1#8] none 5 ∧ firstGrantable State.reset.ses.held [] State.reset.ses.waiting = none :=
  ⟨rangeState (.rangeWait false [1#8] none 5), ⟨0, 7, 9, [1#8], none⟩, sess3 7 [{ flight 9 with work := .rangeWait false [1#8] none 5 }],
   { flight 9 with work := .rangeWait false [1#8] none 5 }, by decide⟩
theorem witness_RangesAndLocks_held : ∃ (s : State) (e : Sess) (f : Flight), s.engineRuns = true ∧ s.mode ≠ .warmStart ∧ s.ses.find 7 = some e ∧ e.flight 9 = some f ∧
    f.work = .rangeHeld true [1#8] none 5 {} ∧ s.judge ⟨64, false, false⟩ = .granted ∧ e.gen ≠ 1 :=
  ⟨rangeState (.rangeHeld true [1#8] none 5 {}), sess3 7 [{ flight 9 with work := .rangeHeld true [1#8] none 5 {} }],
   { flight 9 with work := .rangeHeld true [1#8] none 5 {} }, by decide⟩
theorem witness_RangesAndLocks_read : ∃ (s : State) (e : Sess) (f : Flight), s.engineRuns = true ∧ s.mode ≠ .warmStart ∧ s.ses.find 7 = some e ∧ e.flight 9 = some f ∧
    f.work = .read [1#8] 2 [] 0 false 0 1 ∧ s.versionLost 0 [1#8] 2 = false :=
  ⟨rangeState (.read [1#8] 2 [] 0 false 0 1), sess3 7 [{ flight 9 with work := .read [1#8] 2 [] 0 false 0 1 }],
   { flight 9 with work := .read [1#8] 2 [] 0 false 0 1 }, by decide⟩
theorem witness_RangesAndLocks_result : ∃ (s : State) (e : Sess) (f : Flight), s.engineRuns = true ∧ s.mode ≠ .warmStart ∧ s.ses.find 7 = some e ∧ e.flight 9 = some f ∧
    f.work = .rangeHeld false [1#8] none 5 {} :=
  ⟨rangeState (.rangeHeld false [1#8] none 5 {}), sess3 7 [{ flight 9 with work := .rangeHeld false [1#8] none 5 {} }],
   { flight 9 with work := .rangeHeld false [1#8] none 5 {} }, by decide⟩
theorem witness_RangesAndLocks_lost : ∃ p : Placement, (lostRead.media.placed.find? fun p => p.tenant = 0 && p.key = [1#8] && p.version = 2) = some p ∧
    p.pages = [2310400] ∧ lostRead.versionLost 0 [1#8] 2 = false ∧ lostRead.engineRuns = true := ⟨_, rfl, by decide⟩

theorem witness_SegmentedWrites_first : admits (bigState.judgeRequest bigSess bigMsg.firstSegment) (fun x u =>
      let p := parseBody false x.body
      let b := u.expirePin x.ask.tenant p.key x.ask.admitAt
      decide (firstOf [writeLimits false x.ask p, b.writeRefused] = none) && okWith (b.resolveWrite false x.ask p) (fun w =>
        w.segmented && decide ((p.data.take (min p.b segmentBytes)).length < w.total ∧
          b.judge ⟨lineBytes (min p.b segmentBytes), true, overCapacity b.store.keys x.ask.tenant p.key x.ask.admitAt (p.keyLen + w.total) bigState.fused.userCapacity⟩ = .granted))) = true ∧
    bigState.ses.find 7 = some bigSess ∧ bigSess.message 0x10 5 = some bigMsg ∧ bigSess.phase = .open ∧ bigState.net.gateOpen = true ∧
    bigMsg.admitted = false ∧ bigMsg.opcode = 0x20 ∧ bigMsg.early bigSess.gen = true ∧ bigState.outranked bigSess bigMsg.firstSegment = false :=
  ⟨by decide +kernel, rfl, rfl, rfl, rfl, rfl, rfl, big_early, by decide +kernel⟩
theorem witness_SegmentedWrites : ∃ (s : State) (o : Open), s.openWrite 7 5 = some o ∧ s.engineRuns = true ∧ s.mode ≠ .warmStart ∧ o.a.refused = none ∧
    (o.a.nextSegment (20 + o.key.length)).1 = 64 ∧ (o.a.nextSegment (20 + o.key.length)).2 = true ∧ s.judge ⟨lineBytes 64, true, false⟩ = .granted ∧
    o.a.bodyTotal ≤ 20 + o.key.length + o.a.staged * segmentBytes + 64 :=
  ⟨segState, ⟨segSess, segMsg, segFlight, [7#8], segVersion, none⟩, by decide⟩
theorem witness_SegmentedWrites_waits : ∃ (s : State) (o : Open), s.openWrite 7 5 = some o ∧ s.engineRuns = true ∧ s.mode ≠ .warmStart ∧ o.a.refused = none ∧
    (o.a.nextSegment (20 + o.key.length)).1 ≠ 0 ∧ throttles (s.judge ⟨lineBytes (o.a.nextSegment (20 + o.key.length)).1, true, false⟩) = true :=
  ⟨emptyBuckets segState, ⟨segSess, segMsg, segFlight, [7#8], segVersion, none⟩, by decide⟩
theorem witness_SegmentedWrites_bracing : ∃ (s : State) (o : Open), s.openWrite 7 5 = some o ∧ s.engineRuns = true ∧ s.mode ≠ .warmStart ∧ o.a.refused = none ∧
    s.judge ⟨lineBytes (o.a.nextSegment (20 + o.key.length)).1, true, false⟩ = .bracing 3 :=
  ⟨{ segState with power := { segState.power with thermalRefuse := true } }, ⟨segSess, segMsg, segFlight, [7#8], segVersion, none⟩, by decide⟩
theorem witness_SegmentedWrites_later : ∃ (s : State) (o : Open) (w : SegmentWait), s.openWrite 7 5 = some o ∧ s.engineRuns = true ∧ s.mode ≠ .warmStart ∧
    o.a.refused = some w ∧ w.stirred = false ∧ w.since + ms 100 < w.again :=
  ⟨waitingWrite (5 + ms 100) false, ⟨waitingSess (5 + ms 100) false, { segMsg with refused := some ⟨4, 0x21, 4, 10, 5 + ms 100, false⟩ }, segFlight, [7#8], segVersion, none⟩,
   ⟨4, 0x21, 4, 10, 5 + ms 100, false⟩, by decide⟩
theorem witness_SegmentedWrites_cut : ∃ (s : State) (o : Open) (w : SegmentWait), s.openWrite 7 5 = some o ∧ o.a.refused = some w ∧
    throttles ((s.waitUntil (w.since + ms 100)).judge ⟨lineBytes (o.a.nextSegment (20 + o.key.length)).1, true, false⟩) = true :=
  ⟨{ emptyBuckets (waitingWrite 14 false) with power := { segState.power with bankMv := [] } },
   ⟨waitingSess 14 false, { segMsg with refused := some ⟨4, 0x21, 4, 10, 14, false⟩ }, segFlight, [7#8], segVersion, none⟩, ⟨4, 0x21, 4, 10, 14, false⟩, by decide⟩
theorem witness_SegmentedWrites_goes : ∃ (s : State) (o : Open) (w : SegmentWait), s.openWrite 7 5 = some o ∧ o.a.refused = some w ∧ w.stirred = true ∧
    (s.waitUntil (w.since + ms 100)).judge ⟨lineBytes (o.a.nextSegment (20 + o.key.length)).1, true, false⟩ = .granted :=
  ⟨waitingWrite 14 true, ⟨waitingSess 14 true, { segMsg with refused := some ⟨4, 0x21, 4, 10, 14, true⟩ }, segFlight, [7#8], segVersion, none⟩, ⟨4, 0x21, 4, 10, 14, true⟩, by decide⟩

/-- An LY1 command that passes rows 8 and 9, with the hypotheses of one clause. -/
def ly1Met (op : Nat) (s : State) (q : Ask → Ly1Body → State → Bool) : Bool :=
  admits (s.takeRequest 7 5 true [op]) fun x u => decide (u.ly1Refused x = none) && q x.ask (parseLy1 x.body) u
theorem witness_Ly1Commands : ∀ op ∈ [0x01, 0x20, 0x31, 0x40, 0x50, 0x51], ly1Met op (ly1State op (ly1Body 3 1 [])) (fun a p u =>
    decide (u.sectorLost a.tenant p.lba a.admitAt = false ∧ (u.ses.find 7).isSome = true)) = true := by decide
theorem witness_Ly1Commands_uncorrectable : ly1Met 0x20 (ly1Flash []) (fun a p u => decide (0 < p.count ∧ u.sectorLost a.tenant p.lba a.admitAt = false ∧
    u.sectorOnFlash a.tenant p.lba a.admitAt = true)) = true := by decide
theorem witness_Ly1Commands_lost : ly1Met 0x20 (ly1Flash [2310400]) (fun a p u => decide (0 < p.count ∧ u.sectorLost a.tenant p.lba a.admitAt = true)) = true := by decide
theorem witness_Ly1Commands_write : ly1Met 0x30 (ly1State 0x30 (ly1Body 3 1 (zeros 4096))) (fun a p u => decide (p.lba + p.count ≤ 2 ^ 48 ∧
    u.quotaExceeded a.tenant a.admitAt (u.sectorRise a p) = false ∧
    u.judge ⟨p.count * 4096, true, u.capacityExceeded a.admitAt (u.sectorRise a p)⟩ = .granted)) = true := by decide +kernel
theorem witness_Ly1Commands_refused : admits ((ly1State 0x20 (ly1Body 3 0 [])).takeRequest 7 5 true [0x20]) (fun x u =>
    decide (u.ly1Refused x = some (0x12, 1, false) ∧ x.ask.ly1 = some (0, 3, 0))) = true := by decide
theorem witness_Ly1Commands_check : admits ((ly1State 0x30 (ly1Body 3 1 [])).takeRequest 7 5 true [0x30]) (fun x u =>
    decide (u.ly1Refused x = some (0x51, 3, false) ∧ x.ask.ly1 = some (0, 3, 1)) &&
      (match u.ses.find 7 with | some e => decide (0 < e.sets.length) | none => false)) = true := by decide

theorem witness_AdministrativeRequests : ∀ c ∈ adminCases, admits (c.2.takeRequest 7 5 false [c.1]) (fun x u =>
    decide (checked c.1 x u c.2 = none ∧ x.ask.token = none ∧ (c.2.ses.find 7).isSome = true)) = true := by decide +kernel
theorem witness_AdministrativeRequests_data : admits ((fwState 0x91 (adminBody 0 0 0 0 0 (zeros 4096)) []).takeRequest 7 5 false [0x91]) (fun x u =>
    decide (checked 0x91 x u u = none)) = true := by decide +kernel
theorem witness_AdministrativeRequests_refused : admits ((adminState 0x80 2 (adminBody 0 0 0 0 65537 [])).takeRequest 7 5 false [0x80]) (fun x u =>
    decide (checked 0x80 x u u = some (0x12, 1))) = true := by decide +kernel
theorem witness_AdministrativeRequests_short : admits ((fwState 0x90 (adminBody 0 0 0 0 4095 []) []).takeRequest 7 5 false [0x90]) (fun x u =>
    decide (checked 0x90 x u u = none ∧ (parseBody false x.body).b < 4096)) = true := by decide +kernel
theorem witness_AdministrativeRequests_credential : admits ((adminState 0xA2 2 (adminBody 8 0 0 0 0 [])).takeRequest 7 5 false [0xA2]) (fun x u =>
    decide (checked 0xA2 x u u = some (0x13, 2))) = true := by decide +kernel

/-- The hypotheses that the statements on results share, on the first entry of port A, with those of one clause: the opcode, the
session, its message, and the state once the entry has left its queue. -/
def resultMet (s : State) (q : AdminOp → Sess → LyMsg → State → Bool) : Bool :=
  decide ((s.portOf .A).up = true ∧ s.mode ≠ .warmStart ∧ ((s.frameSent .A).preview .A).pick .A = some (.ep 0)) &&
    match (s.portOf .A).epQ with
    | [] => false
    | e :: _ => match e.load with
      | .ly m => match m.body, s.ses.find m.session with
        | .admin op _ _, some x => decide (x.phase = .open ∧ x.driveSeq < 2 ^ 63) &&
            q op x m ((s.frameSent .A).modPort .A fun p => { p with epQ := p.epQ.eraseIdx 0 })
        | _, _ => false
      | _ => false
def resultOp (c : Nat) : AdminOp := ⟨c, if c = 0x84 ∨ c = 0x85 then 0x30 else if c = 0x8A then 7 else 1, 0, 0, 60, [], false⟩
theorem witness_AdministrativeResults : ∀ c ∈ [0x80, 0x81, 0x82, 0x84, 0x85, 0x88, 0x89, 0x8A, 0x8C], resultMet (resultState (resultOp c)) (fun op x _ w =>
    decide (op.opcode = c ∧ isFirmwareOp c = false ∧ w.opRefused x.id x.gen op = none)) = true := by decide +kernel
theorem witness_AdministrativeResults_pages : resultMet (resultState (resultOp 0x81)) (fun op x _ w => okWith (w.readLog x.id op.param16 op.versionCond) fun b => decide (0 < b.1.length)) = true ∧
    resultMet (resultState (resultOp 0x82)) (fun op _ _ w => (w.logPage op.param16).isSome) = true := by decide +kernel
theorem witness_AdministrativeResults_features : resultMet (resultState (resultOp 0x85)) (fun op _ _ w =>
    ((feature w.fused.part op.param16 op.a).bind fun f => f.set op.b w.cfg.inUse).isSome) = true := by decide +kernel
theorem witness_AdministrativeResults_refused : resultMet (resultState ⟨0x85, 0x30, 0, 1, 60, [], false⟩) (fun op x _ w =>
    decide (w.opRefused x.id x.gen op = some ((0x13, 2), 0))) = true := by decide +kernel

/-- A credential sealed under the key of a session without keys, for tenant 2 in message 9. -/
def sealedCredential : Bytes := zeros 12 ++ gcmSeal (credentialKey []) (zeros 12) (beBytes 1 2 ++ beBytes 4 9) (beBytes 32 1)
theorem witness_SecurityResults : ∀ c ∈ [0xA0, 0xA1, 0xA3, 0xA4], resultMet (resultState ⟨c, 2, 0, 0, 0, [], false⟩) (fun op x m w =>
    decide (op.opcode = c ∧ w.secRefused x.kH2d m.msgId op = none)) = true := by decide +kernel
theorem witness_SecurityResults_credential : resultMet (resultState ⟨0xA2, 2, 0, 0, 0, sealedCredential, false⟩) (fun op x m w =>
    decide (w.secRefused x.kH2d m.msgId op = none ∧ openCredential x.kH2d op.param16 m.msgId op.data = some (beBytes 32 1))) = true := by decide +kernel
theorem witness_SecurityResults_sealed : ∃ s : State, s.servingMode = .sealed ∧ s.secRefused [] 9 ⟨0xA1, 0, 0, 0, 0, [], false⟩ = none :=
  ⟨{ State.reset with mode := .sealed, elapsed := secs 3, sec := { State.reset.sec with intactSince := some 5 } }, by decide⟩
theorem witness_SecurityResults_installed : ∃ s : State, (s.sec.installed.getD 2 none).isSome = true :=
  ⟨{ State.reset with sec := { State.reset.sec with installed := [none, none, some ([], 5)] } }, rfl⟩
theorem witness_SecurityResults_refused : resultMet (resultState ⟨0xA4, 0, 0, 0, 0, [], false⟩) (fun op x m w =>
    decide (w.secRefused x.kH2d m.msgId op = some ((0x13, 2), 0))) = true := by decide +kernel

theorem witness_FirmwareResults : ∀ c ∈ [0x90, 0x91, 0x92, 0x93, 0x94, 0x95, 0x96], resultMet (fwResult ⟨c, 0, 0, 4096, 0, [5#8], false⟩) (fun op x _ w =>
    decide (op.opcode = c ∧ isFirmwareOp c = true ∧ w.fwRefused x.id c = none ∧ w.fw.download = some ⟨7, 4097, [], true, 0, none, false⟩ ∧
      (⟨7, 4097, [], true, 0, none, false⟩ : Download).accepts op.a op.data.length = true)) = true := by decide +kernel
theorem witness_FirmwareResults_header : ∃ d : Download, d.accepts 0 1 = true ∧ d.headerOk = false := ⟨⟨7, 1, [], false, 0, none, false⟩, by decide⟩
theorem witness_FirmwareResults_refused : resultMet { fwResult ⟨0x91, 0, 0, 1, 0, [5#8], false⟩ with fw := State.reset.fw } (fun op x _ w =>
      decide (w.fwRefused x.id op.opcode = some (0x13, 2))) = true ∧
    (⟨7, 4097, [], true, 0, none, false⟩ : Download).accepts 1 1 = false := by decide +kernel

theorem witness_FirmwareEvents_verify : ∃ (s : State) (e : Sess) (f : Flight) (d : Download) (j : ScanJob), s.verifyFlight = some (e, f, d) ∧ s.watch.jobs = [j] ∧
    j.expectedSha = none ∧ s.alive = true :=
  ⟨fwEvent, sess3 7 [flight 9], flight 9, ⟨7, 4096, [], true, 0, some 9, false⟩, ⟨.package, 0, 0, true, true, .single, none, none, .verify 7 9⟩, by decide⟩
theorem witness_FirmwareEvents_graft : ∃ (s : State) (g : GraftRun) (e : Sess) (f : Flight) (p : Package), s.watch.jobs = [] ∧ s.fw.graft = some g ∧ g.fallback = none ∧
    s.ses.find g.session = some e ∧ e.flight g.msgId = some f ∧ s.fw.verified = some p :=
  ⟨{ fwEvent with watch := { fwEvent.watch with jobs := [] } }, ⟨7, 9, 0, none⟩, sess3 7 [flight 9], flight 9, smallPackage, by decide⟩
theorem witness_FirmwareEvents_activation : fwEvent.fw.activation.isSome = true ∧ fwEvent.sec.alarmPending = false ∧ fwEvent.mode.serving = true ∧
    fwEvent.fw.download.isSome = true := by decide
theorem witness_FirmwareEvents_window : ∃ s : State, s.fw.commit.confirm = .trial 5 ∧ s.fw.commit.previous = some smallPackage ∧ s.mode.serving = true ∧
    s.fw.updating = false ∧ s.confirming = false :=
  ⟨{ State.reset with
      mode := .ready
      fw := { State.reset.fw with commit := { State.reset.fw.commit with confirm := .trial 5, previous := some smallPackage } } }, by decide⟩

theorem witness_DueTimes : ∃ (x : Snapshot) (e : Sess) (c : CacheEntry) (r : BlockRec) (o : DieOp),
    (dueState.admin.snapshots.find? fun y => y.id = 5) = some x ∧ dueState.ses.find 7 = some e ∧ (e.cache.find? fun y => y.msgId = 4) = some c ∧
    dueState.mode = .ready ∧ dueState.halted = false ∧ dueState.journal.unrecorded = some 3 ∧ dueState.servingMode.serving = true ∧ dueState.servingMode ≠ .overcast ∧
    dueState.media.find ⟨2, 9⟩ = some r ∧ dueState.holdsLive ⟨2, 9⟩ = true ∧ (dueState.media.die 2).failed = false ∧
    (∀ p ∈ dueState.media.waiting ++ dueState.media.busy, p.die ≠ 2 ∧ p.purpose.collects = false) ∧
    dueState.free * 100 < 12 * dueState.media.inService ∧ (dueState.media.waiting.find? fun p => p.id = 8) = some o :=
  ⟨⟨7, 1, 5, 0, []⟩, { sess3 7 [] with cache := [⟨4, 0x20, 0, 0, 0, [], 0, 0, none⟩] }, ⟨4, 0x20, 0, 0, 0, [], 0, 0, none⟩,
    { id := ⟨2, 9⟩, use := .data 1 }, { id := 8, kind := .read, purpose := .refresh, die := 3, block := 9, page := 0, arrived := 0 },
    by decide +kernel⟩
theorem witness_DueTimes_victim : ∃ (s : State) (v : Band) (b : BlockId) (l : List BlockId), s.free * 100 < 12 * s.media.inService ∧ s.mode = .ready ∧
    s.victim = some v ∧ v.data = b :: l :=
  ⟨{ dueState with media := { dueState.media with bands := [dueBand] } }, dueBand, ⟨2, 9⟩, [], by decide +kernel⟩

theorem witness_MediaOperations : ∃ (o : DieOp) (x : BlockRec), (mediaState.media.busy.find? fun p => p.die = 2) = some o ∧ o.kind = .erase ∧
    mediaState.media.find ⟨o.die, o.block⟩ = some x ∧ o.retried = false ∧ (mediaState.media.die 2).failed = false ∧ 2 < mediaState.media.dies.length ∧
    (mediaState.media.die 2).timeouts = [] ∧ blockOf (pageAddr ⟨o.die, o.block⟩ o.page) = ⟨o.die, o.block⟩ ∧ mediaState.canEnd o (.decoded 1 0 0) = false :=
  ⟨_, _, rfl, rfl, rfl, by decide⟩
theorem witness_MediaOperations_read : ∃ (o : DieOp) (x : BlockRec), (mediaState.media.busy.find? fun p => p.die = 3) = some o ∧ o.kind = .read ∧ o.purpose = .held 7 9 ∧
    mediaState.media.find ⟨o.die, o.block⟩ = some x ∧ mediaState.canEnd o (.decoded 1 0 72) = true ∧ mediaState.otherPages o = [] ∧
    (mediaState.media.die o.die).failed = false ∧ blockOf (pageAddr ⟨o.die, o.block⟩ o.page) = ⟨o.die, o.block⟩ :=
  ⟨_, _, rfl, rfl, rfl, rfl, by decide⟩
theorem witness_MediaOperations_waits : ∃ x : Extent, (mediaState.store.staging.find? fun y => y.id = 4) = some x ∧ x.retryAt = some 5 :=
  ⟨_, rfl, by decide⟩
theorem witness_MediaOperations_drains : ∃ x : Extent, (mediaState.store.staging.find? fun y => y.id = 3) = some x ∧ x.retryAt = none ∧
    drainable 3 mediaState.store.staging = true ∧ mediaState.mayProgram = true ∧ mediaState.mode.serving = true ∧ mediaState.power.dusk = none ∧
    (mediaState.programExtent x 1).2 ≠ [] :=
  ⟨_, rfl, by decide +kernel⟩

end Sys2Proof.Tests
end

/-!
SUPPORT. What every command and every step keeps: each command stays within the parts listed for it and undoes neither identity,
time, START_COUNT nor the sizes of the logs. The statements about all commands at once follow from this.
-/
namespace Sys2Proof.Machine

theorem areasIn_append (k l m : List Area) : areasIn (k ++ l) m = (areasIn k m && areasIn l m) := List.all_append

theorem areasIn_append_left (k l : List Area) : areasIn k (k ++ l) = true := by simp +contextual [areasIn]

theorem areasIn_append_right (k l : List Area) : areasIn l (k ++ l) = true := by simp +contextual [areasIn]

/-! ## Commands that end by settling the outputs -/

theorem State.settle_advances (s : State) : Advances s s.settle := .ofOnly (State.settle_only s) rfl

section
variable {l m : List Area} {s t u : State}

/-- A command that settles the outputs after an operation touches them and the parts of the operation, and advances with it. -/
theorem State.done_keeps (h : u.done = .next t) (k : Only l s u) (hl : areasIn ([.outputs] ++ l) m = true) (a : Advances s u) :
    Only m s t ∧ Advances s t := by
  obtain rfl := (State.done_next u t).mp h
  rw [areasIn_append, Bool.and_eq_true_iff] at hl
  obtain ⟨ho, hm⟩ := hl
  exact ⟨(State.settle_only u).into ho (k.mono hm), a.trans (State.settle_advances u)⟩

/-- An operation that leaves fuses, clock, START_COUNT and logs alone advances by what it touches. -/
theorem State.done_keeps_of_only (h : u.done = .next t) (k : Only l s u) (hl : areasIn ([.outputs] ++ l) m = true)
    (hq : (l.contains .fused || l.contains .clock || l.contains .startCount || l.contains .log) = false) :
    Only m s t ∧ Advances s t :=
  State.done_keeps h k hl (.ofOnly k hq)

end

/-! ## Rows that take a request and run its effect -/

/-- The row of a key-value request with its effect: nothing more where the request is refused or must wait. GET, DELETE, PIN,
UNPIN and the two range requests are this row by definition, each with its opcode and its effect. -/
def State.storeRow (sid msgId op : Nat) (run : Admitted → State → State) (s : State) : State :=
  match s.takeRequest sid msgId false [op] with
  | (none, s) => s
  | (some x, s) => run x s

section
variable {l m : List Area} {s t : State} {sid msgId op : Nat}

theorem State.storeRow_only {run : Admitted → State → State} (k : ∀ x u, Only l u (run x u)) :
    Only ([.log, .net, .time, .ses] ++ l) s (s.storeRow sid msgId op run) := by
  unfold State.storeRow
  split
  · next u hu => exact (State.takeRequest_only_eq hu).mono (areasIn_append_left ..)
  · next x u hu => exact (k x u).into (areasIn_append_right ..) ((State.takeRequest_only_eq hu).mono (areasIn_append_left ..))

theorem State.storeRow_advances {run : Admitted → State → State} (a : ∀ x u, Advances u (run x u)) :
    Advances s (s.storeRow sid msgId op run) := by
  unfold State.storeRow
  split
  · next u hu => exact State.takeRequest_advances_eq hu
  · next x u hu => exact (State.takeRequest_advances_eq hu).trans (a x u)

theorem State.storeRow_keeps {run : Admitted → State → State} (h : (s.storeRow sid msgId op run).done = .next t)
    (k : ∀ x u, Only l u (run x u)) (hl : areasIn ([.outputs] ++ ([.log, .net, .time, .ses] ++ l)) m = true)
    (a : ∀ x u, Advances u (run x u)) : Only m s t ∧ Advances s t :=
  State.done_keeps h (State.storeRow_only k) hl (State.storeRow_advances a)

theorem State.ly1Row_keeps {run : Ask → Ly1Body → State → State} (h : (s.ly1Row sid msgId op run).done = .next t)
    (k : ∀ a p u, Only l u (run a p u)) (hl : areasIn ([.outputs] ++ ([.draws, .log, .net, .time, .ses] ++ l)) m = true)
    (a : ∀ a p u, Advances u (run a p u)) : Only m s t ∧ Advances s t :=
  State.done_keeps h (State.ly1Row_only (fun x p u => (k x p u).mono (areasIn_append_right ..)) (areasIn_append_left ..) ..) hl
    (State.ly1Row_advances a ..)

theorem State.firmwareRow_keeps {fails : Bool} {run : Ask → AdminOp → State → State}
    (h : (s.firmwareRow op sid msgId fails run).done = .next t) (k : ∀ a p u, Only l u (run a p u))
    (hl : areasIn ([.outputs] ++ ([.log, .net, .time, .ses, .fw] ++ l)) m = true) (a : ∀ a p u, Advances u (run a p u)) :
    Only m s t ∧ Advances s t :=
  State.done_keeps h (State.firmwareRow_only (fun x p u => (k x p u).mono (areasIn_append_right ..)) (areasIn_append_left ..) ..) hl
    (State.firmwareRow_advances a ..)

end

/-! ## Every command -/

section
open State

/-- What a command does to a state it answers, said once for all of them: each arm names the operation that carries the command
out. -/
theorem exec_keeps {c : Instr} {s t : State} (h : exec c s = .next t) : Only (touches c) s t ∧ Advances s t := by
  cases c with
  | vinValid => exact done_keeps h (vinOn_only ..) rfl (vinOn_advances ..)
  | readyEntry => exact done_keeps h (readyEntry_only ..) rfl (readyEntry_advances ..)
  | resetNRecognised => exact done_keeps h (resetSeen_only ..) rfl (resetSeen_advances ..)
  | resetNHeldCold => exact done_keeps h (resetHeld_only ..) rfl (resetHeld_advances ..)
  | resetNReleased => exact done_keeps h (resetReleased_only ..) rfl (resetReleased_advances ..)
  | vinBelowWarning => exact done_keeps h (vinWarned_only ..) rfl (vinWarned_advances ..)
  | pfwNWarning => exact done_keeps h (pfwWarned_only ..) rfl (pfwWarned_advances ..)
  | braceExit => exact done_keeps h (braceExit_only ..) rfl (braceExit_advances ..)
  | supplyUnstableRearm => exact done_keeps h (rearm_only ..) rfl (rearm_advances ..)
  | vinBelowCut => exact done_keeps h (belowCut_only ..) rfl (belowCut_advances ..)
  | inputCollapse => exact done_keeps h (collapsed_only ..) rfl (collapsed_advances ..)
  | overvoltage => exact done_keeps h (overvolted_only ..) rfl (overvolted_advances ..)
  | postDuskHoldEnd => exact done_keeps h (holdEnds_only ..) rfl (holdEnds_advances ..)
  | referenceClockLost => exact done_keeps h (referenceLost_only ..) rfl (referenceLost_advances ..)
  | referenceClockReturn => exact done_keeps h (referenceBack_only ..) rfl (referenceBack_advances ..)
  | thermalShutdown => exact done_keeps h (overheated_only ..) rfl (overheated_advances ..)
  | junctionCooled => exact done_keeps h (cooled_only ..) rfl (cooled_advances ..)
  | deadlineRisk => exact done_keeps h (risk_only ..) rfl (risk_advances ..)
  | deadlineLapse => exact done_keeps h (lapse_only ..) rfl (lapse_advances ..)
  | deadlineRiskCleared => exact done_keeps h (riskCleared_only ..) rfl (riskCleared_advances ..)
  | wakeInput => exact done_keeps h (wakeUp_only ..) rfl (wakeUp_advances ..)
  | svcEnIgnored => exact done_keeps h (svcIgnored_only ..) rfl (svcIgnored_advances ..)
  | servicePortOpen => exact done_keeps h (portOpens_only ..) rfl (portOpens_advances ..)
  | servicePortClose => exact done_keeps h (portCloses_only ..) rfl (portCloses_advances ..)
  | tamperSample => exact done_keeps h (tamperSample_only ..) rfl (tamperSample_advances ..)
  | lockDrainComplete => exact done_keeps h (lockDrained_only ..) rfl (lockDrained_advances ..)
  | linkUp => exact done_keeps h (linkUp_only ..) rfl (linkUp_advances ..)
  | linkDown => exact done_keeps h (linkDown_only ..) rfl (linkDown_advances ..)
  | sgmiiStatusChange => exact done_keeps h (sgmiiStatus_only ..) rfl (sgmiiStatus_advances ..)
  | preemptVerifyDone => exact done_keeps h (verifyDone_only ..) rfl (verifyDone_advances ..)
  | frameReceived => exact done_keeps h (frameReceived_only ..) rfl (frameReceived_advances ..)
  | pauseFrameReceived => exact done_keeps_of_only h (pauseReceived_only ..) rfl rfl
  | pauseQuantaExpired => exact done_keeps h (pauseOver_only ..) rfl (pauseOver_advances ..)
  | pauseRepeat => exact done_keeps h (pauseAgain_only ..) rfl (pauseAgain_advances ..)
  | learnEntryAged => exact done_keeps h (aged_only ..) rfl (aged_advances ..)
  | txQueueTimeout => exact done_keeps h (fwdTimeout_only ..) rfl (fwdTimeout_advances ..)
  | epTxExpired => exact done_keeps h (epTimeout_only ..) rfl (epTimeout_advances ..)
  | egressSelect => exact done_keeps h (egress_only ..) rfl (egress_advances ..)
  | statActExpired => exact done_keeps h (actExpired_only ..) rfl (actExpired_advances ..)
  | gptpFrameReceived => exact done_keeps h (gptpReceived_only ..) rfl (gptpReceived_advances ..)
  | syncReceiptTimeout => exact done_keeps h (syncTimeout_only ..) rfl (syncTimeout_advances ..)
  | syncSend => exact done_keeps h (syncSend_only ..) rfl (syncSend_advances ..)
  | pdelayRequest => exact done_keeps h (pdelayRequest_only ..) rfl (pdelayRequest_advances ..)
  | ppsOutEdge => exact done_keeps h (ppsOut_only ..) rfl (ppsOut_advances ..)
  | ppsInEdge => exact done_keeps h (ppsEdge_only ..) rfl (ppsEdge_advances ..)
  | gateEntryStart => exact done_keeps h (gateStart_only ..) rfl (gateStart_advances ..)
  | dawnRepeat => exact done_keeps h (dawnRepeat_only ..) rfl (dawnRepeat_advances ..)
  | dawnSolicitation => exact done_keeps_of_only h (dawnSolicited_only ..) rfl rfl
  | startLimitWindowClose => exact done_keeps h (limitClose_only ..) rfl (limitClose_advances ..)
  | wakeFrame => exact done_keeps h (wakeFrame_only ..) rfl (wakeFrame_advances ..)
  | arpRequest => exact done_keeps h (arpReceived_only ..) rfl (arpReceived_advances ..)
  | arpGatewayTimer => exact done_keeps h (gatewayTimer_only ..) rfl (gatewayTimer_advances ..)
  | neighborSolicitation => exact done_keeps h (ndReceived_only ..) rfl (ndReceived_advances ..)
  | echoRequest => exact done_keeps_of_only h (echoed_only ..) rfl rfl
  | sessionOpen => exact done_keeps_of_only h (sessionOpen_only ..) rfl rfl
  | sessionConfirm => exact done_keeps h (sessionConfirm_only ..) rfl (sessionConfirm_advances ..)
  | sessionClose => exact done_keeps h (sessionClose_only ..) rfl (sessionClose_advances ..)
  | handshakeExpired => exact done_keeps h (handshakeExpired_only ..) rfl (handshakeExpired_advances ..)
  | aliveTimeout => exact done_keeps h (aliveTimeout_only ..) rfl (aliveTimeout_advances ..)
  | messageAssemblyTimeout => exact done_keeps h (assemblyTimeout_only ..) rfl (assemblyTimeout_advances ..)
  | cancel => exact done_keeps h (cancel_only ..) rfl (cancel_advances ..)
  | keepalive => exact done_keeps h (keepalive_only ..) rfl (keepalive_advances ..)
  | get => exact storeRow_keeps h (fun _ _ => runGet_only ..) rfl fun _ _ => runGet_advances ..
  | put | append => exact done_keeps h (write_only ..) rfl (write_advances ..)
  | delete => exact storeRow_keeps h (fun _ _ => runDelete_only ..) rfl fun _ _ => runDelete_advances ..
  | rangeRead | rangeDelete => exact storeRow_keeps h (fun _ _ => runRange_only ..) rfl fun _ _ => runRange_advances ..
  | pin => exact storeRow_keeps h (fun _ _ => runPin_only ..) rfl fun _ _ => runPin_advances ..
  | unpin => exact storeRow_keeps h (fun _ _ => runUnpin_only ..) rfl fun _ _ => runUnpin_advances ..
  | rangeLockGrant => exact done_keeps_of_only h (lockGrant_only ..) rfl rfl
  | heldCompletion => exact done_keeps h (heldComplete_only ..) rfl (heldComplete_advances ..)
  | segmentStage => exact done_keeps h (segmentStage_only ..) rfl (segmentStage_advances ..)
  | segmentCut => exact done_keeps h (segmentCut_only ..) rfl (segmentCut_advances ..)
  | nop => exact ly1Row_keeps h (fun _ _ _ => finishLy1_only ..) rfl fun _ _ _ => finishLy1_advances ..
  | readSectors => exact ly1Row_keeps h (fun _ _ _ => readSectors_only ..) rfl fun _ _ _ => readSectors_advances ..
  | writeSectors => exact ly1Row_keeps h (fun _ _ _ => writeSectors_only ..) rfl fun _ _ _ => writeSectors_advances ..
  | trim => exact ly1Row_keeps h (fun _ _ _ => askLock_only ..) rfl fun _ _ _ => .ofOnly (askLock_only ..) rfl
  | flush => exact ly1Row_keeps h (fun _ _ _ => flush_only ..) rfl fun _ _ _ => flush_advances ..
  | statusRead => exact ly1Row_keeps h (fun _ _ _ => statusRead_only ..) rfl fun _ _ _ => .ofOnly (statusRead_only ..) rfl
  | identifyWindow => exact ly1Row_keeps h (fun _ _ _ => finishLy1_only ..) rfl fun _ _ _ => finishLy1_advances ..
  | identify | getLog | logSnapshot | getFeature | setFeature | deepSleep | closeSession | clearFaults =>
    exact done_keeps h (plainRow_only ..) rfl (plainRow_advances ..)
  | snapshotExpired => exact done_keeps h (snapshotExpired_only ..) rfl (snapshotExpired_advances ..)
  | answerCacheExpired => exact done_keeps h (cacheExpired_only ..) rfl (cacheExpired_advances ..)
  | restart sid msgId env =>
    exact done_keeps (l := touches (.restart sid msgId env)) h ((plainRow_only ..).into rfl ((modStart_only ..).mono rfl)) rfl
      (.trans (.ofOnly (modStart_only ..) rfl) (plainRow_advances ..))
  | deepSleepEntryComplete => exact done_keeps h (sleepComplete_only ..) rfl (sleepComplete_advances ..)
  | fwBegin => exact firmwareRow_keeps h (fun _ _ _ => runBegin_only ..) rfl fun _ _ _ => runBegin_advances ..
  | fwData | fwActivate | fwConfirm | fwAbort =>
    exact firmwareRow_keeps h (fun _ _ _ => askAdmin_only ..) rfl fun _ _ _ => .ofOnly (askAdmin_only ..) rfl
  | fwVerify => exact firmwareRow_keeps h (fun _ _ _ => runVerify_only ..) rfl fun _ _ _ => runVerify_advances ..
  | fwGraft => exact firmwareRow_keeps h (fun _ _ _ => runGraft_only ..) rfl fun _ _ _ => runGraft_advances ..
  | graftHandover => exact done_keeps h (handover_only ..) rfl (handover_advances ..)
  | activation => exact done_keeps h (activate_only ..) rfl (activate_advances ..)
  | fwDownloadTimeout => exact done_keeps h (downloadTimeout_only ..) rfl (downloadTimeout_advances ..)
  | confirmWindowExpired => exact done_keeps h (windowEnds_only ..) rfl (windowEnds_advances ..)
  | secStatus | secUnlock | secSetCredential | secResetCredential | secEraseTenant =>
    exact done_keeps h (securityRow_only ..) rfl (securityRow_advances ..)
  | watchdogCheckIn => exact done_keeps h (checkIn_only ..) rfl (checkIn_advances ..)
  | watchdogExpiry => exact done_keeps h (watchRunsOut_only ..) rfl (watchRunsOut_advances ..)
  | scanJobComplete => exact done_keeps h (scanComplete_only ..) rfl (scanComplete_advances ..)
  | ch0Sample => exact done_keeps h (sampleCh0_only ..) rfl (sampleCh0_advances ..)
  | ch1Sample => exact done_keeps h (sampleCh1_only ..) rfl (sampleCh1_advances ..)
  | windbreakLoopSample => exact done_keeps h (sampleLoops_only ..) rfl (sampleLoops_advances ..)
  | rateEstimatorSample => exact done_keeps_of_only h (sampleRate_only ..) rfl rfl
  | bankTestStart => exact done_keeps h (testStart_only ..) rfl (testStart_advances ..)
  | bankTestComplete => exact done_keeps h (testComplete_only ..) rfl (testComplete_advances ..)
  | bankTestTimeout => exact done_keeps h (testTimeout_only ..) rfl (testTimeout_advances ..)
  | bankChargeJudged => exact done_keeps h (chargeJudged_only ..) rfl (chargeJudged_advances ..)
  | drainExtentComplete => exact done_keeps h (drainExtent_only ..) rfl (drainExtent_advances ..)
  | dieOperationComplete => exact done_keeps h (dieComplete_only ..) rfl (dieComplete_advances ..)
  | operationAgePromote => exact done_keeps h (promote_only ..) rfl (promote_advances ..)
  | dieTimeout => exact done_keeps h (dieTimeout_only ..) rfl (dieTimeout_advances ..)
  | programRetryBackoff => exact done_keeps h (retryProgram_only ..) rfl (retryProgram_advances ..)
  | scrubDue => exact done_keeps h (scrubDue_only ..) rfl (scrubDue_advances ..)
  | bgCollectionIdle => exact done_keeps h (bgIdle_only ..) rfl (bgIdle_advances ..)
  | journalFlush => exact done_keeps h (journalFlush_only ..) rfl (journalFlush_advances ..)
  | expirySweep => exact done_keeps h (sweep_only ..) rfl (sweep_advances ..)
  | backstopExpiry => exact done_keeps h (backstop_only ..) rfl (backstop_advances ..)
  | statusBlinkToggle => exact done_keeps h (blink_only ..) rfl (blink_advances ..)
  | ppsOutFallingEdge => exact done_keeps h (ppsFall_only ..) rfl (ppsFall_advances ..)
  | inputProtectionTrip vin =>
    change (if 60000 < vin then .fault .damaged else if vin ≤ 40000 then s.done else s.switchOff.done) = _ at h
    split at h
    · cases h
    · split at h
      · exact done_keeps_of_only h (.refl [] s) rfl rfl
      · exact done_keeps_of_only h (switchOff_only s) rfl rfl
  | moduleSupplyFails => exact done_keeps_of_only h (supplyFails_only ..) rfl rfl
  | trstNLow => exact done_keeps_of_only h (modStart_only ..) rfl rfl
  | tckEdge => exact done_keeps_of_only h (tckEdge_only ..) rfl rfl
  | creditPerBitTime => exact done_keeps_of_only h (creditBit_only ..) rfl rfl
  | announceSend => exact done_keeps h (announceSend_only ..) rfl (announceSend_advances ..)
  | announceReceiptTimeout => exact done_keeps h (announceTimeout_only ..) rfl (announceTimeout_advances ..)
  | temperatureHistoryInterval => exact done_keeps h (historyInterval_only ..) rfl (historyInterval_advances ..)

end

theorem exec_only {c : Instr} {s t : State} (h : exec c s = .next t) : Only (touches c) s t := (exec_keeps h).1

theorem exec_advances {c : Instr} {s t : State} (h : exec c s = .next t) : Advances s t := (exec_keeps h).2

/-! ## Every step -/

/-- Taking a command off the queue changes nothing that `Advances` speaks of. -/
theorem State.setPending_advances (p : List Instr) (s : State) : Advances s { s with pending := p } :=
  ⟨rfl, Nat.le_refl _, fun h => ⟨Nat.le_refl _, h⟩, fun h => h⟩

/-- With no command waiting, time goes on, and a start that is under way with it. -/
theorem State.idle_advances {s t : State} (h : s.idle = .next t) : Advances s t := by
  have wait : Advances s (s.waitUntil (s.elapsed + 40)) := State.waitUntil_advances ..
  unfold State.idle at h
  extract_lets w at h
  split at h <;> rw [State.done_next] at h <;> subst h
  case h_1 => exact wait.trans (State.settle_advances w)
  case h_2 r _ =>
    exact ((wait.trans (.ofOnly (State.modStart_only ..) rfl)).trans (State.runStart_advances ..)).trans (State.settle_advances ..)

theorem step_advances {s t : State} (h : step s = .next t) : Advances s t := by
  unfold step at h
  split at h
  · exact State.idle_advances h
  · exact (State.setPending_advances ..).trans (exec_advances h)

/-! ## The statements about all commands and all steps -/

/-- Settles O15: every step advances, and what advances keeps the invariant. -/
theorem stepKeepsIdentityTimeStartsAndLogs : Obligations.StepKeepsIdentityTimeStartsAndLogs := by
  unfold Obligations.StepKeepsIdentityTimeStartsAndLogs
  rintro f e n s t ⟨hf, he, hn, hmax, hlog⟩ h
  obtain ⟨fused, time, starts, logs⟩ := step_advances h
  obtain ⟨mono, bound⟩ := starts hmax
  exact ⟨fused.trans hf, Nat.le_trans he time, Nat.le_trans hn mono, bound, logs hlog⟩

/-- Settles O17: the fused values as a whole stay, whatever command runs. -/
theorem fusedOptionsStay : Obligations.FusedOptionsStay := by
  unfold Obligations.FusedOptionsStay
  have options : ∀ {s t : State}, Advances s t → t.fused.wdgHwStart = s.fused.wdgHwStart ∧ t.fused.unitBound = s.fused.unitBound :=
    fun a => by rw [a.fused]; exact ⟨rfl, rfl⟩
  exact fun s t => ⟨fun c h => options (exec_advances h), fun h => options (step_advances h)⟩

/-- Settles O20: `exec_keeps` says it command by command. -/
theorem everyCommandKeepsToItsParts : Obligations.EveryCommandKeepsToItsParts := by
  unfold Obligations.EveryCommandKeepsToItsParts
  exact fun c s t h => exec_only h

end Sys2Proof.Machine

/-!
SUPPORT. RESET_N: fields of the start part that an operation leaves, folds of operations that keep a value, and what a cold reset
and an orderly stop make of the state.
-/
namespace Sys2Proof.Machine

/-! ## The start part -/

section
variable (s : State)

@[simp] theorem State.settle_start_resetLow : s.settle.start.resetLow = s.start.resetLow := rfl
@[simp] theorem State.settle_start_coldHeld : s.settle.start.coldHeld = s.start.coldHeld := rfl
@[simp] theorem State.settle_start_awaitingReady : s.settle.start.awaitingReady = s.start.awaitingReady := rfl

end

/-- A change that touches neither the start part nor the outputs leaves the whole record. -/
theorem Only.startPart {l : List Area} {s t : State} (h : Only l s t) (hs : l.contains .start = false)
    (ho : l.contains .outputs = false) : t.start = s.start := by
  obtain ⟨ready, fault, released⟩ := h.same .outputs ho
  have rest : { t.start with statReady := s.start.statReady, statFault := s.start.statFault,
                             releasedAt := s.start.releasedAt } = s.start := h.same .start hs
  rwa [← ready, ← fault, ← released] at rest

/-- An operation on a list keeps what each of its steps keeps. -/
theorem foldl_keeps {α β : Type} {f : State → α → State} (g : State → β) (hf : ∀ t x, g (f t x) = g t) (xs : List α) (s : State) :
    g (xs.foldl f s) = g s :=
  List.foldlRecOn xs f (motive := fun t => g t = g s) rfl fun t ht x _ => (hf t x).trans ht

/-! ## A cold reset -/

/-- Before a cold start clears the drive it draws the DRAM key, notes the junction and keeps the end of a download. -/
theorem State.coldClear_from (env : StartEnv) (s : State) : ∃ u : State, Only [.draws, .log, .admin, .power] s u ∧
    s.coldClear env = (u.coldFields env (s.random 64).1).settle := by
  have drawn : Only [.draws, .log, .admin, .power] s (s.random 64).2 := (State.random_only ..).mono rfl
  exact ⟨_, (State.noteJunction_only ..).into rfl (.ite ((State.deferEvent_only ..).into rfl drawn) drawn), rfl⟩

section
variable (env : StartEnv) (s : State)

@[simp] theorem State.coldClear_mode : (s.coldClear env).mode = .coldStart := rfl
@[simp] theorem State.coldClear_net : (s.coldClear env).net = {} := rfl
@[simp] theorem State.coldClear_start_run : (s.coldClear env).start.run = none := rfl
@[simp] theorem State.coldClear_clock : (s.coldClear env).elapsed = s.elapsed := (State.coldClear_only env s).same .clock rfl

@[simp] theorem State.coldClear_start_resetLow : (s.coldClear env).start.resetLow = s.start.resetLow := by
  obtain ⟨u, only, eq⟩ := s.coldClear_from env
  rw [eq, ← only.startPart rfl rfl]
  rfl

@[simp] theorem State.coldClear_start_coldHeld : (s.coldClear env).start.coldHeld = s.start.coldHeld := by
  obtain ⟨u, only, eq⟩ := s.coldClear_from env
  rw [eq, ← only.startPart rfl rfl]
  rfl

@[simp] theorem State.coldClear_sec_alarmPending : (s.coldClear env).sec.alarmPending = s.sec.alarmPending := by
  obtain ⟨u, only, eq⟩ := s.coldClear_from env
  have sec : u.sec = s.sec := only.same .sec rfl
  rw [eq, ← sec]
  rfl

end

/-- A start begins where none is under way and no alarm waits: it is noted, with its reference point. -/
theorem State.beginRun_of_quiet {s : State} (hr : s.start.run = none) (ha : s.sec.alarmPending = false) (path : StartPath)
    (source : StartSource) (step : Nat) (env : StartEnv) : s.beginRun path source step env =
      s.modStart fun x => { x with run := some ⟨path, source, step, env, false⟩, refAt := s.elapsed } := by
  simp [State.beginRun, State.when, hr, ha]

theorem State.beginCold_of_quiet {s : State} (ha : s.sec.alarmPending = false) (source : StartSource) (env : StartEnv) :
    s.beginCold source env = (s.coldClear env).modStart fun x =>
      { x with run := some ⟨.cold, source, 3, env, false⟩, refAt := s.elapsed } := by
  simp [State.beginCold, State.beginRun_of_quiet (s.coldClear_start_run env) ((s.coldClear_sec_alarmPending env).trans ha)]

/-! ## An orderly stop -/

/-- The middle of an orderly stop: Warm Start, with the gate closed, no sleep and no series. -/
def State.stopServing (s : State) : State :=
  (((s.setMode .warmStart).modNet fun n => { n with gateOpen := false }).modPower fun p => { p with sleep := .awake }).modStart
    fun x => { x with series := none, awaitingReady := false }

/-- The end of an orderly stop: the Brace episode is over, the staging buffer drained, the completions kept. -/
def State.putAway (s : State) : State := (s.dropBrace.drainNow.keepCompletions .A).keepCompletions .B

theorem State.quiesce_from (s : State) : ∃ a : State, Only [.log, .net, .ses, .power, .reg, .watch, .fw] s a ∧
    s.quiesce = a.stopServing.settle.putAway :=
  ⟨_, (State.haltWatch_only ..).into rfl ((State.abandonGraft_only ..).into rfl ((State.abortJobs_only ..).into rfl
    ((State.abortTest_only s).mono rfl))), rfl⟩

theorem State.putAway_only (s : State) : Only [.log, .net, .ses, .store, .power, .reg, .media, .journal] s s.putAway :=
  (State.keepCompletions_only ..).into rfl ((State.keepCompletions_only ..).into rfl ((State.drainNow_only ..).into rfl
    ((State.dropBrace_only s).mono rfl)))

theorem State.putAway_gateOpen (s : State) : s.putAway.net.gateOpen = s.net.gateOpen := by
  have net : s.dropBrace.drainNow.net = s.net :=
    ((State.drainNow_only _).same .net rfl).trans ((State.dropBrace_only s).same .net rfl)
  rw [← net]
  rfl

/-- A stop record changes neither the mode nor the gate nor the start part. -/
theorem State.orderlyStop_from (s : State) : Only [.log, .store, .media, .journal] s.quiesce s.orderlyStop :=
  .ite (State.stopRecord_only _) (.refl _ _)

@[simp] theorem State.orderlyStop_mode (s : State) : s.orderlyStop.mode = .warmStart := by
  obtain ⟨a, -, eq⟩ := s.quiesce_from
  rw [s.orderlyStop_from.same .mode rfl, eq, (State.putAway_only _).same .mode rfl]
  rfl

@[simp] theorem State.orderlyStop_gateOpen (s : State) : s.orderlyStop.net.gateOpen = false := by
  obtain ⟨a, -, eq⟩ := s.quiesce_from
  rw [s.orderlyStop_from.same .net rfl, eq, State.putAway_gateOpen]
  rfl

/-- Of the start part an orderly stop changes the series, the wait for Ready, and the outputs. -/
theorem State.orderlyStop_start (s : State) : ∃ ready fault at_, s.orderlyStop.start =
    { s.start with series := none, awaitingReady := false, statReady := ready, statFault := fault, releasedAt := at_ } := by
  obtain ⟨a, before, eq⟩ := s.quiesce_from
  refine ⟨a.stopServing.settle.start.statReady, a.stopServing.settle.start.statFault, a.stopServing.settle.start.releasedAt, ?_⟩
  rw [s.orderlyStop_from.startPart rfl rfl, eq, (State.putAway_only _).startPart rfl rfl, ← before.startPart rfl rfl]
  rfl

@[simp] theorem State.orderlyStop_start_run (s : State) : s.orderlyStop.start.run = s.start.run := by
  obtain ⟨_, _, _, start⟩ := s.orderlyStop_start
  rw [start]

@[simp] theorem State.orderlyStop_start_resetLow (s : State) : s.orderlyStop.start.resetLow = s.start.resetLow := by
  obtain ⟨_, _, _, start⟩ := s.orderlyStop_start
  rw [start]

/-! ## RESET_N -/

theorem State.resetHeld_eq {s : State} {e : Nat} (low : s.start.resetLow = some e) (free : s.start.coldHeld = false)
    (off : s.mode ≠ .off) (dusk : s.mode ≠ .dusk) : s.resetHeld =
      ((s.waitUntil (e + ms 500)).coldClear s.ownEnv).modStart fun x => { x with coldHeld := true } := by
  simp [State.resetHeld, low, free, off, dusk]

theorem State.resetHeld_eq_self {s : State} (held : s.start.coldHeld = true) : s.resetHeld = s := by
  unfold State.resetHeld
  split <;> simp [held]

/-- A low level of 500 ms or more ends in a cold hold, at the instant it has. -/
theorem State.resetHeld_late {s : State} {e : Nat} (low : s.start.resetLow = some e) (off : s.mode ≠ .off) (dusk : s.mode ≠ .dusk)
    (late : e + ms 500 ≤ s.elapsed) : s.resetHeld.start.coldHeld = true ∧ s.resetHeld.elapsed = s.elapsed ∧
      s.resetHeld.sec.alarmPending = s.sec.alarmPending := by
  cases held : s.start.coldHeld with
  | false => simp [State.resetHeld_eq low held off dusk, Nat.max_eq_left late]
  | true => simp [State.resetHeld_eq_self held, held]

/-- The release of a level of 500 ms or more begins a cold start. -/
theorem State.resetReleased_late {s : State} {e : Nat} (env : StartEnv) (low : s.start.resetLow = some e) (off : s.mode ≠ .off)
    (dusk : s.mode ≠ .dusk) (late : e + ms 500 ≤ s.elapsed) : s.resetReleased env =
      ((s.resetHeld.modStart fun x => { x with resetLow := none, coldHeld := false }).beginCold .resetCold env).runStart := by
  obtain ⟨held, -, -⟩ := State.resetHeld_late low off dusk late
  simp [State.resetReleased, low, late, held]

/-- The release of a shorter level in Warm Start begins a warm start. -/
theorem State.resetReleased_early {s : State} {e : Nat} (env : StartEnv) (low : s.start.resetLow = some e)
    (free : s.start.coldHeld = false) (warm : s.mode = .warmStart) (early : s.elapsed < e + ms 500) (idle : s.start.run = none) :
    s.resetReleased env =
      ((s.modStart fun x => { x with resetLow := none, coldHeld := false }).beginWarm .resetWarm env).runStart := by
  have short : ¬ e + ms 500 ≤ s.elapsed := Nat.not_le.mpr early
  have again : ∀ u : State, u.start.run = none → u.restartWarm .resetWarm env = u.beginWarm .resetWarm env :=
    fun u h => by simp [State.restartWarm, h]
  simp [State.resetReleased, low, short, free, warm, again, idle]

/-- Settles O10: the cold hold is `coldClear` with the level still noted, and a release begins the start that its length selects. -/
theorem resetHeldAndReleased : Obligations.ResetHeldAndReleased := by
  unfold Obligations.ResetHeldAndReleased
  refine ⟨fun s e low free off dusk => ?_, fun s e env low free warm early idle quiet => ?_,
    fun s e env low off dusk late quiet => ?_⟩
  · refine ⟨s.resetHeld.settle, rfl, ?_⟩
    have only := exec_only (c := .resetNHeldCold) (s := s) (t := s.resetHeld.settle) rfl
    rw [State.resetHeld_eq low free off dusk] at only ⊢
    exact ⟨rfl, rfl, by simp [low], by simp, rfl, rfl, only.mono rfl⟩
  · have begun := State.resetReleased_early env low free warm early idle
    generalize hv : (s.modStart fun x => { x with resetLow := none, coldHeld := false }) = v at begun
    have freed : Only [.start, .outputs] s v := hv ▸ State.modStart_only ..
    have stopped := State.orderlyStop_only v
    have run : v.orderlyStop.start.run = none := by simp [← hv, idle]
    have alarm : v.orderlyStop.sec.alarmPending = false := by rw [stopped.same .sec rfl, freed.same .sec rfl, quiet]
    have clock : v.orderlyStop.elapsed = s.elapsed := (stopped.same .clock rfl).trans (freed.same .clock rfl)
    have eq := State.beginRun_of_quiet run alarm .warm .resetWarm 4 env
    refine ⟨v.beginWarm .resetWarm env, congrArg State.done begun, ?_⟩
    rw [State.beginWarm, eq]
    refine ⟨by simp, by simp, by simp [← hv], by simp [clock], by simp, ?_⟩
    exact (State.modStart_only ..).into rfl (stopped.into rfl (freed.mono rfl))
  · obtain ⟨-, clock, alarm⟩ := State.resetHeld_late low off dusk late
    refine ⟨_, congrArg State.done (State.resetReleased_late env low off dusk late), ?_⟩
    rw [State.beginCold_of_quiet (by simp [alarm, quiet])]
    simp [clock]

end Sys2Proof.Machine

/-!
SUPPORT. The state at reset and the test access port: what a rising and a falling edge of TCK make of the port.
-/
namespace Sys2Proof.Machine

/-- Settles O16: each value is read off `State.reset`. -/
theorem resetState : Obligations.ResetState := by
  unfold Obligations.ResetState
  refine ⟨rfl, rfl, rfl, rfl, rfl, rfl, rfl, rfl, rfl, rfl, rfl, rfl, rfl, rfl, Nat.zero_le _, ?_⟩
  constructor <;> exact Nat.zero_le _

/-! ## The test access port -/

/-- A rising edge moves the controller and touches only the register that its state captures or shifts. -/
theorem Tap.rise_keeps (draw : Nat) (tms tdi : Bool) (t : Tap) : (t.rise draw tms tdi).state = t.state.next tms ∧
    (t.rise draw tms tdi).instr = t.instr ∧ (t.rise draw tms tdi).tdo = t.tdo ∧ (t.rise draw tms tdi).cells = t.cells := by
  obtain ⟨state, _, _, _, _, _⟩ := t
  cases state <;> exact ⟨rfl, rfl, rfl, rfl⟩

theorem Tap.rise_shiftDr (draw : Nat) (tms tdi : Bool) {t : Tap} (h : t.state = .shiftDr) :
    (t.rise draw tms tdi).dr = t.dr.drop 1 ++ [tdi] ∧ (t.rise draw tms tdi).ir = t.ir := by
  simp [Tap.rise, h]

theorem Tap.rise_shiftIr (draw : Nat) (tms tdi : Bool) {t : Tap} (h : t.state = .shiftIr) :
    (t.rise draw tms tdi).ir = t.ir.drop 1 ++ [tdi] ∧ (t.rise draw tms tdi).dr = t.dr := by
  simp [Tap.rise, h]

/-- A falling edge keeps the controller and both shift registers. -/
theorem Tap.fall_keeps (t : Tap) : t.fall.state = t.state ∧ t.fall.dr = t.dr ∧ t.fall.ir = t.ir := by
  obtain ⟨state, _, _, _, _, _⟩ := t
  cases state <;> exact ⟨rfl, rfl, rfl⟩

/-- What a falling edge puts out and puts in force, by the state of the controller. -/
theorem Tap.fall_effect (t : Tap) :
    t.fall.instr = (match t.state with
      | .reset => .idcode | .updateIr => tapInstr (natOfBits t.ir) | _ => t.instr) ∧
    t.fall.tdo = (match t.state with
      | .shiftDr => t.dr.head? | .shiftIr => t.ir.head? | _ => none) := by
  obtain ⟨state, _, _, _, _, _⟩ := t
  cases state <;> exact ⟨rfl, rfl⟩

theorem Tap.fall_cells (t : Tap) : t.fall.cells =
    if t.state = .updateDr ∧ (t.instr = .extest ∨ t.instr = .sample) then t.dr else t.cells := by
  obtain ⟨state, instr, _, _, _, _⟩ := t
  cases state
  case updateDr => cases instr <;> rfl
  all_goals rfl

theorem State.tckEdge_locked {s : State} (h : s.start.scanReleased = false) (rising tms tdi : Bool) :
    s.tckEdge rising tms tdi = s := by
  simp [State.tckEdge, h]

theorem State.tckEdge_rising {s : State} (h : s.start.scanReleased = true) (tms tdi : Bool) :
    s.tckEdge true tms tdi = s.draw.2.modStart fun x => { x with tap := x.tap.rise s.draw.1 tms tdi } := by
  simp [State.tckEdge, h]

theorem State.tckEdge_falling {s : State} (h : s.start.scanReleased = true) (tms tdi : Bool) :
    s.tckEdge false tms tdi = s.modStart fun x => { x with tap := x.tap.fall } := by
  simp [State.tckEdge, h]

/-- Settles O27: the edges of a released chain are `Tap.rise` and `Tap.fall`, and a chain in place takes none. -/
theorem testAccessPort : Obligations.TestAccessPort := by
  unfold Obligations.TestAccessPort
  refine fun s => ⟨?_, fun rising tms tdi locked => ?_, fun tms tdi released => ?_, fun tms tdi released => ?_⟩
  · exact ⟨_, rfl, rfl, rfl, (State.settle_only _).into rfl (State.modStart_only _ s)⟩
  · exact ⟨_, congrArg State.done (State.tckEdge_locked locked rising tms tdi), State.settle_only s⟩
  · obtain ⟨state, instr, tdo, cells⟩ := Tap.rise_keeps s.draw.1 tms tdi s.start.tap
    exact ⟨_, congrArg State.done (State.tckEdge_rising released tms tdi), state, instr, tdo, cells,
      Tap.rise_shiftDr s.draw.1 tms tdi, Tap.rise_shiftIr s.draw.1 tms tdi,
      exec_only (c := .tckEdge true tms tdi) (congrArg State.done (State.tckEdge_rising released tms tdi))⟩
  · obtain ⟨state, dr, ir⟩ := s.start.tap.fall_keeps
    obtain ⟨instr, tdo⟩ := s.start.tap.fall_effect
    exact ⟨_, congrArg State.done (State.tckEdge_falling released tms tdi), state, dr, ir, instr, tdo, s.start.tap.fall_cells,
      (State.settle_only _).into rfl (State.modStart_only _ s)⟩

end Sys2Proof.Machine

/-!
SUPPORT. What a journal entry, an erase and a lock leave behind, with the tamper samples and the service port that rest on them.
-/
namespace Sys2Proof.Machine

/-! ## Journal entries -/

/-- A journal entry at its end: media and journal are written, and log and pin set are carried with it. -/
theorem State.writeEntry_from (kind : EntryKind) (s : State) : ∃ u : State, Only [.media, .journal] s u ∧ u.journal.newest = kind ∧
    u.journal.unrecorded = none ∧ s.writeEntry kind = (u.modLog LogState.persist).modStore fun x => { x with flashPins := x.pins } := by
  unfold State.writeEntry
  extract_lets named begun drain reloc written gone fresh ordered counted
  have named_only : Only [.media, .journal] s named := (State.nameBands_only ..).into rfl ((State.nameBands_only ..).mono rfl)
  have begun_only : Only [.media, .journal] s begun := (State.nextSeq_only _).into rfl ((State.nextSeq_only _).into rfl
    (Only.when kind.full ((State.writeIndex_only _).mono rfl) named_only))
  have written_only : Only [.media, .journal] s written := (State.modJournal_only ..).into rfl begun_only
  have counted_only : Only [.media] written counted :=
    (State.modMedia_only ..).into rfl (.foldl (fun _ _ => State.addOp_only ..) fresh (.refl ..))
  have journal : counted.journal = written.journal := counted_only.same .journal rfl
  exact ⟨counted, counted_only.into rfl written_only, congrArg JournalState.newest journal,
    congrArg JournalState.unrecorded journal, rfl⟩

theorem State.writeEntry_store (kind : EntryKind) (s : State) :
    (s.writeEntry kind).store = { s.store with flashPins := s.store.pins } := by
  obtain ⟨u, only, -, -, eq⟩ := s.writeEntry_from kind
  have store : u.store = s.store := only.same .store rfl
  rw [eq, ← store]
  rfl

theorem State.writeEntry_newest (kind : EntryKind) (s : State) : (s.writeEntry kind).journal.newest = kind := by
  obtain ⟨u, -, newest, -, eq⟩ := s.writeEntry_from kind
  rw [eq]
  exact newest

theorem State.writeEntry_unrecorded (kind : EntryKind) (s : State) : (s.writeEntry kind).journal.unrecorded = none := by
  obtain ⟨u, -, -, unrecorded, eq⟩ := s.writeEntry_from kind
  rw [eq]
  exact unrecorded

/-! ## Sessions removed by an erase -/

theorem State.modSess_ids {f : Sess → Sess} (hf : ∀ e, (f e).id = e.id) (n : Nat) (s : State) :
    (s.modSess n f).ses.sessions.map Sess.id = s.ses.sessions.map Sess.id := by
  simp only [State.modSess_ses, List.map_map]
  refine List.map_congr_left fun e _ => ?_
  by_cases h : e.id = n <;> simp [h, hf]

/-- A message on a session changes no session's identifier. -/
theorem State.say_ids (id : Nat) (rx : Rx) (at_ : Nat) (m : LyMsg) (s : State) :
    (s.say id rx at_ m).ses.sessions.map Sess.id = s.ses.sessions.map Sess.id := by
  unfold State.say
  split
  · rfl
  · rw [(State.sendLy_only ..).same .ses rfl]
    refine State.modSess_ids ?_ id s
    exact fun _ => rfl

theorem State.removeSess_sessions (id : Nat) (s : State) :
    (s.removeSess id).ses.sessions = s.ses.sessions.filter fun e => e.id ≠ id := by
  have ses : (s.endDownload id).ses = s.ses := (State.endDownload_only ..).same .ses rfl
  exact congrArg (fun x : SessionState => x.sessions.filter fun e => e.id ≠ id) ses

/-- Of the sessions that stand after some were removed, none has the identifier of one of those. -/
theorem State.mem_of_removed {gone : List Sess} {s : State} {x : Sess}
    (h : x ∈ (gone.foldl (fun s e => (s.release e.assemblyBytes).removeSess e.id) s).ses.sessions) :
    x ∈ s.ses.sessions ∧ ∀ e ∈ gone, x.id ≠ e.id := by
  induction gone generalizing s with
  | nil => exact ⟨h, fun _ he => nomatch he⟩
  | cons e gone ih =>
    obtain ⟨mem, others⟩ := ih h
    rw [State.removeSess_sessions, (State.release_only ..).same .ses rfl, List.mem_filter] at mem
    obtain ⟨mem, ne⟩ := mem
    exact ⟨mem, List.forall_mem_cons.mpr ⟨by simpa using ne, others⟩⟩

theorem State.eraseSessions_sessions (s : State) : s.eraseSessions.ses.sessions = [] := by
  refine List.eq_nil_iff_forall_not_mem.mpr fun x hx => ?_
  obtain ⟨mem, other⟩ := State.mem_of_removed (gone := s.ses.sessions) hx
  have ids := List.mem_map_of_mem (f := Sess.id) mem
  rw [foldl_keeps (fun t => t.ses.sessions.map Sess.id)] at ids
  · obtain ⟨e, he, id⟩ := List.mem_map.mp ids
    exact other e he id.symm
  · intro t e
    dsimp only
    split
    · rw [State.say_ids, (State.event_only ..).same .ses rfl]
    · rfl

/-! ## The erase -/

/-- New keys are all that the security block takes at the end of an erase. -/
theorem State.newKeys_sec (s : State) : ∃ kbk map dk, s.newKeys.sec = { s.sec with kbk := kbk, mapKey := map, dk := dk } := by
  have sec : (State.randomKeys 8 ((s.random 32).2.random 64).2).2.sec = s.sec := (State.randomKeys_only ..).same .sec rfl
  rw [← sec]
  exact ⟨_, _, _, rfl⟩

/-- A drive whose erase is over: locked and erased, without site key, data, pins or sessions. -/
structure Erased (t : State) : Prop where
  lockFlag : t.sec.lockFlag = true
  erased : t.sec.erased = true
  site : t.sec.site = none
  keys : t.store.keys = []
  flash : t.store.flash = []
  staging : t.store.staging = []
  pins : t.store.pins = []
  sessions : t.ses.sessions = []

/-- An operation that touches neither security block, store nor sessions leaves an erased drive erased. -/
theorem Erased.of_only {l : List Area} {s t : State} (h : Erased s) (k : Only l s t) (hsec : l.contains .sec = false)
    (hstore : l.contains .store = false) (hses : l.contains .ses = false) : Erased t := by
  have sec : t.sec = s.sec := k.same .sec hsec
  have store : t.store = s.store := k.same .store hstore
  have ses : t.ses = s.ses := k.same .ses hses
  constructor <;> simp only [sec, store, ses, h.lockFlag, h.erased, h.site, h.keys, h.flash, h.staging, h.pins, h.sessions]

/-- The zeroized security block of step 3 of an erase (R459). -/
def SecState.zeroized (k : SecState) : SecState :=
  { k with
    kbk := none, site := none, mapKey := none, dk := List.replicate 8 none, dkOpen := List.replicate 8 false
    installed := List.replicate 8 none, dramKey := [], lockDrain := false, erased := true, lockFlag := true }

/-- An erase as its four steps, the gate as it was. -/
theorem State.eraseAll_eq (s : State) : s.eraseAll =
    (((((s.modNet fun n => { n with gateOpen := false }).eraseSessions).modSec SecState.zeroized).emptyStore.newKeys).writeEntry
      .checkpoint).modNet fun n => { n with gateOpen := s.net.gateOpen } := rfl

/-- The store at the end of an erase is the emptied one. -/
theorem State.emptied_newKeys_store (s : State) : (s.emptyStore.newKeys.writeEntry .checkpoint).store =
    { s.store with keys := [], flash := [], staging := [], pins := [], flashPins := [] } := by
  rw [State.writeEntry_store, (State.newKeys_only _).same .store rfl]
  rfl

/-- The security block at the end of an erase: zeroized, with the new keys of step 5 (R459). -/
theorem State.eraseAll_sec (s : State) : ∃ kbk map dk, s.eraseAll.sec =
    { s.sec.zeroized with kbk := kbk, mapKey := map, dk := dk } := by
  rw [State.eraseAll_eq]
  generalize ha : (s.modNet fun n => { n with gateOpen := false }).eraseSessions = a
  have sec : a.sec = s.sec := ha ▸ (State.eraseSessions_only _).same .sec rfl
  obtain ⟨kbk, map, dk, keys⟩ := (a.modSec SecState.zeroized).emptyStore.newKeys_sec
  rw [(State.emptyStore_only _).same .sec rfl] at keys
  refine ⟨kbk, map, dk, ?_⟩
  rw [State.modNet_sec, (State.writeEntry_only ..).same .sec rfl, keys, ← sec]
  rfl

theorem State.eraseAll_erased (s : State) : Erased s.eraseAll := by
  obtain ⟨kbk, map, dk, sec⟩ := s.eraseAll_sec
  obtain ⟨x, store⟩ : ∃ x : StoreState, s.eraseAll.store =
      { x with keys := [], flash := [], staging := [], pins := [], flashPins := [] } := by
    rw [State.eraseAll_eq, State.modNet_store, State.emptied_newKeys_store]
    exact ⟨_, rfl⟩
  have ses : s.eraseAll.ses.sessions = [] := by
    rw [State.eraseAll_eq, State.modNet_ses, (State.writeEntry_only ..).same .ses rfl, (State.newKeys_only _).same .ses rfl,
      (State.emptyStore_only _).same .ses rfl]
    exact State.eraseSessions_sessions _
  constructor <;> simp [sec, store, ses, SecState.zeroized]

/-- An erase leaves the count of bad samples. -/
theorem State.eraseAll_badSamples (s : State) : s.eraseAll.sec.badSamples = s.sec.badSamples := by
  obtain ⟨kbk, map, dk, sec⟩ := s.eraseAll_sec
  rw [sec]
  rfl

/-! ## Sealed -/

theorem State.enter_mode (m : Mode) (s : State) : (s.enter m).mode = if s.mode = .brace then .brace else m := by
  unfold State.enter
  split <;> simp [*]

@[simp] theorem State.beginSeries_awaitingReady (level : Mode) (s : State) :
    (s.beginSeries level).start.awaitingReady = s.start.awaitingReady := by
  unfold State.beginSeries
  extract_lets begun
  rw [(State.sendDawn_only ..).startPart rfl rfl, (State.sendDawn_only ..).startPart rfl rfl]
  rfl

/-- The first part of a lock: Sealed, with the lock in force and its drain begun (R457). -/
def State.lockBegun (s : State) : State :=
  ((s.abortTest.enter .sealed).modSec fun k => { k with lockFlag := true, lockDrain := true, erased := false }).modStart
    fun x => { x with awaitingReady := false }

/-- What follows in a lock ends requests and sessions and begins the series of Sealed. -/
theorem State.lock_from (s : State) : ∃ u : State, Only [.log, .admin, .net, .ses, .store, .media, .fw] s.lockBegun u ∧
    s.lock = u.beginSeries .sealed :=
  ⟨_, (State.dropSessions_only ..).into rfl (.foldl (fun t _ => .foldl (fun _ _ =>
    (State.stopFlight_only ..).into rfl ((State.dropOps_only ..).mono rfl)) _ (.refl _ t)) _ (.refl ..)), rfl⟩

theorem State.lock_mode (s : State) : s.lock.mode = if s.mode = .brace then .brace else .sealed := by
  obtain ⟨u, only, eq⟩ := s.lock_from
  rw [eq, (State.beginSeries_only ..).same .mode rfl, only.same .mode rfl, ← (s.abortTest_only).same .mode rfl]
  exact State.enter_mode .sealed s.abortTest

theorem State.lock_sec (s : State) : s.lock.sec = { s.sec with lockFlag := true, lockDrain := true, erased := false } := by
  obtain ⟨u, only, eq⟩ := s.lock_from
  have sec : (s.abortTest.enter .sealed).sec = s.sec :=
    ((State.enter_only ..).same .sec rfl).trans ((s.abortTest_only).same .sec rfl)
  rw [eq, (State.beginSeries_only ..).same .sec rfl, only.same .sec rfl, ← sec]
  rfl

theorem State.lock_awaitingReady (s : State) : s.lock.start.awaitingReady = false := by
  obtain ⟨u, only, eq⟩ := s.lock_from
  rw [eq, State.beginSeries_awaitingReady, only.startPart rfl rfl]
  rfl

theorem State.sealErased_erased (s : State) : Erased s.sealErased :=
  (State.eraseAll_erased _).of_only (State.beginSeries_only ..) rfl rfl rfl

theorem State.sealErased_mode (s : State) : s.sealErased.mode = if s.mode = .brace then .brace else .sealed := by
  rw [← (s.abortTest_only).same .mode rfl, ← State.enter_mode]
  exact ((State.beginSeries_only ..).same .mode rfl).trans ((State.eraseAll_only _).same .mode rfl)

theorem State.sealErased_badSamples (s : State) : s.sealErased.sec.badSamples = s.sec.badSamples := by
  have sec : (s.abortTest.enter .sealed).sec = s.sec :=
    ((State.enter_only ..).same .sec rfl).trans ((s.abortTest_only).same .sec rfl)
  rw [← sec, State.sealErased, (State.beginSeries_only ..).same .sec rfl]
  exact State.eraseAll_badSamples _

end Sys2Proof.Machine

/-!
SUPPORT. The tamper loop and the service port.
-/
namespace Sys2Proof.Machine

/-! ## The tamper loop -/

theorem TamperReading.fault_iff (r : TamperReading) : r.fault = true ↔ r.grounded = true ∨ r.follows = false ∨ 800 < r.idleOutMv ∨
    800 < r.idleRetMv ∨ 3600 < r.pulseOutMv ∨ 3600 < r.pulseRetMv := by
  simp [TamperReading.fault, or_assoc]

/-- An intact reading clears the count and keeps since when the loop is intact. -/
theorem State.tamperSample_intact {s : State} {r : TamperReading} (on : s.mode ≠ .off) (sound : ¬ r.fault = true)
    (low : r.ohms ≤ 3000) : s.tamperSample r =
      s.modSec fun k => { k with badSamples := 0, intactSince := some (k.intactSince.getD s.elapsed) } := by
  simp [State.tamperSample, State.judgeLoop, on, sound, low]

theorem State.judgeLoop_bad {r : TamperReading} (bad : r.fault = true ∨ 5000 ≤ r.ohms) (s : State) : s.judgeLoop r = (true, s) := by
  unfold State.judgeLoop
  split
  · rfl
  · next sound =>
    have high : 5000 ≤ r.ohms := bad.resolve_left sound
    rw [if_neg (by omega), if_pos high]

/-- A bad sample counted. -/
def State.countBad (s : State) : State :=
  s.modSec fun k => { k with badSamples := min 3 (k.badSamples + 1), intactSince := none }

/-- A bad reading is counted, and the third in a row raises the alarm. -/
theorem State.tamperSample_bad {s : State} {r : TamperReading} (on : s.mode ≠ .off) (bad : r.fault = true ∨ 5000 ≤ r.ohms) :
    s.tamperSample r = if s.sec.badSamples = 2 then (if s.mode = .deepSleep then s.countBad.alarmAsleep else s.countBad.alarm)
      else s.countBad := by
  by_cases third : s.sec.badSamples = 2 <;>
    simp [State.tamperSample, State.judgeLoop_bad bad, on, State.countBad, third]

/-- The serving levels in which an alarm logs, locks or erases by the action in force (Table 18-3). -/
def Mode.takesAction (m : Mode) : Prop := m = .readyRead ∨ m = .ready ∨ m = .overcast

/-- An alarm gives up an entry to Deep Sleep. -/
def State.leaveSleep (s : State) : State :=
  s.modPower fun p => { p with sleep := match p.sleep with | .asleep m => .asleep m | _ => .awake }

/-- The event of an alarm. -/
def State.logAlarm (s : State) : State := s.event .tamperAlarm s.sec.action s.mode.code 0

theorem State.logAlarm_only (s : State) : Only [.log] s s.logAlarm := State.event_only ..

theorem State.tamperAction_of_serving {s : State} (level : s.mode.takesAction) (idle : s.fw.download = none) : s.tamperAction =
    if s.sec.action = 0 then s.logAlarm else if s.sec.action = 1 then s.logAlarm.lock else s.logAlarm.sealErased := by
  have keyless : s.abortKeyOps = s := by simp [State.abortKeyOps, idle]
  have mode : s.logAlarm.mode = s.mode := s.logAlarm_only.same .mode rfl
  have serving : s.logAlarm.servingMode = s.mode := by
    rcases level with m | m | m <;> simp [State.servingMode, mode, m]
  unfold State.tamperAction
  extract_lets action noted
  have logged : noted = s.logAlarm := by simp only [noted, keyless, action, State.logAlarm]
  rw [logged, serving]
  rcases level with m | m | m <;> simp only [m, action]

theorem State.alarm_of_serving {s : State} (level : s.mode.takesAction) : s.alarm = s.leaveSleep.tamperAction := by
  unfold State.alarm
  rcases level with m | m | m <;> rw [m] <;> rfl

/-- The state in which the third bad sample acts: counted, out of an entry to Deep Sleep, and logged. -/
def State.alarmRaised (s : State) : State := s.countBad.leaveSleep.logAlarm

theorem State.alarmRaised_only (s : State) : Only [.log, .power, .sec] s s.alarmRaised :=
  (State.logAlarm_only _).into rfl ((State.modPower_only ..).into rfl ((State.modSec_only ..).mono rfl))

theorem State.alarmRaised_sec (s : State) : s.alarmRaised.sec = s.countBad.sec := (State.logAlarm_only _).same .sec rfl

/-- The third bad sample of a serving drive takes the action in force. -/
theorem State.tamperSample_third {s : State} {r : TamperReading} (bad : r.fault = true ∨ 5000 ≤ r.ohms)
    (third : s.sec.badSamples = 2) (level : s.mode.takesAction) (idle : s.fw.download = none) : s.tamperSample r =
      if s.sec.action = 0 then s.alarmRaised else if s.sec.action = 1 then s.alarmRaised.lock else s.alarmRaised.sealErased := by
  have on : s.mode ≠ .off := by rcases level with m | m | m <;> simp [m]
  have awake : s.mode ≠ .deepSleep := by rcases level with m | m | m <;> simp [m]
  rw [State.tamperSample_bad on bad, if_pos third, if_neg awake, State.alarm_of_serving (s := s.countBad) level]
  exact State.tamperAction_of_serving (s := s.countBad.leaveSleep) level idle

/-- Settles O25: the third bad sample raises the alarm, whose action is `lock` or `sealErased`. -/
theorem tamperSamples : Obligations.TamperSamples := by
  unfold Obligations.TamperSamples
  intro faulty s on
  have fault : ∀ r, faulty r ↔ r.fault = true := fun r => (r.fault_iff).symm
  refine ⟨fun r sound low => ?_, fun r bad notThird => ?_, fun r bad third idle level => ?_⟩
  · rw [fault] at sound
    exact ⟨_, congrArg State.done (State.tamperSample_intact on sound low), rfl,
      (State.settle_only _).into rfl ((State.modSec_only ..).mono rfl)⟩
  · rw [fault] at bad
    exact ⟨_, congrArg State.done ((State.tamperSample_bad on bad).trans (if_neg notThird)), rfl,
      (State.settle_only _).into rfl ((State.modSec_only ..).mono rfl)⟩
  · rw [fault] at bad
    have acted := State.tamperSample_third bad third level idle
    have mode : s.alarmRaised.mode = s.mode := s.alarmRaised_only.same .mode rfl
    have unbraced : s.alarmRaised.mode ≠ .brace := by rw [mode]; rcases level with m | m | m <;> simp [m]
    have three : s.alarmRaised.sec.badSamples = 3 := by simp [State.alarmRaised_sec, State.countBad, third]
    refine ⟨(s.tamperSample r).settle, rfl, ?_, fun a => ?_, fun a => ?_, fun a => ?_⟩
    · rw [State.settle_sec, acted]
      split
      · exact three
      · split
        · rw [State.lock_sec]
          exact three
        · rw [State.sealErased_badSamples, three]
    · rw [acted, if_pos a]
      refine ⟨mode, ?_, (State.settle_only _).into rfl (s.alarmRaised_only.mono rfl)⟩
      rw [State.settle_sec, State.alarmRaised_sec]
      rfl
    · have locked : s.tamperSample r = s.alarmRaised.lock := by rw [acted, a]; rfl
      rw [locked, State.settle_mode, State.settle_sec, State.settle_start_awaitingReady, State.lock_mode, State.lock_sec,
        State.lock_awaitingReady, if_neg unbraced]
      exact ⟨rfl, rfl, rfl, rfl⟩
    · have wiped : s.tamperSample r = s.alarmRaised.sealErased := by rw [acted, a]; rfl
      have gone := (State.sealErased_erased s.alarmRaised).of_only (State.settle_only _) rfl rfl rfl
      rw [wiped]
      refine ⟨?_, gone.erased, gone.lockFlag, gone.site, gone.keys, gone.flash, gone.staging, gone.pins, gone.sessions⟩
      rw [State.settle_mode, State.sealErased_mode, if_neg unbraced]

/-! ## The service port -/

theorem State.portOpens_of_judged {s : State} (judged : s.start.svcJudged = true) (shut : s.start.scanReleased = false)
    (awake : s.mode ≠ .deepSleep) : s.portOpens =
      s.sealForPort.stopWatch.modStart fun x => { x with scanReleased := true, tap := {}, svcHeld := false } := by
  simp [State.portOpens, judged, shut, awake]

/-- Outside a start, the opening of the port enters Sealed, or returns Brace to it, and erases. -/
theorem State.sealForPort_of_running {s : State} (cold : s.mode ≠ .coldStart) (warm : s.mode ≠ .warmStart) :
    s.sealForPort = ((s.enter .sealed).event .servicePortOpened 0 0 0).sealErased := by
  simp [State.sealForPort, cold, warm]

theorem State.portCloses_without_restart {s : State} (released : s.start.scanReleased = true)
    (stays : s.cfg.inUse.security.svcCloseAction ≠ 0) (env : StartEnv) : s.portCloses env =
      (s.modStart fun x => { x with scanReleased := false, tap := {} }).when s.watch.wasRunning State.startWatch := by
  unfold State.portCloses
  rw [released]
  exact if_neg stays

theorem State.startWatch_of_shut {s : State} (shut : s.start.scanReleased = false) :
    s.startWatch = s.modWatch fun w => { w with running := true, periodAt := s.elapsed, checked := [] } := by
  simp [State.startWatch, shut]

theorem State.svcIgnored_of_held {s : State} (held : s.start.svcHeld = true) (len : Nat) :
    s.svcIgnored len = s.modStart fun x => { x with svcHeld := false } := by
  simp [State.svcIgnored, held]

theorem State.svcIgnored_of_not_judged {s : State} (fresh : s.start.svcHeld = false) (early : s.start.svcJudged = false) (len : Nat) :
    s.svcIgnored len = s := by
  simp [State.svcIgnored, fresh, early]

theorem State.portOpens_of_not_judged {s : State} (early : s.start.svcJudged = false) : s.portOpens = s := by
  simp [State.portOpens, early]

theorem State.event_log_outside_rescue {s : State} (h : s.mode ≠ .rescue) (ev : EventCode) (a b c : Nat) : (s.event ev a b c).log =
    LogState.add s.timeNow s.mode.code s.time.synced s.startCount none ev a b c s.log := by
  rw [State.event, State.eventFor, if_neg h]
  rfl

/-- A level of 1 ms to 79 ms is counted and logged. -/
theorem State.svcIgnored_of_short {s : State} (fresh : s.start.svcHeld = false) (judged : s.start.svcJudged = true) {len : Nat}
    (real : 0 < len) (short : len < 80) : s.svcIgnored len = (s.count .svcEnIgnored 1).event .svcEnIgnored len 0 0 := by
  have bounds : ¬(len = 0 ∨ 100 ≤ len) := by omega
  simp [State.svcIgnored, fresh, judged, bounds, short]

/-- Settles O26: the opening is an erase into Sealed, and the closing takes the chain back. -/
theorem servicePort : Obligations.ServicePort := by
  unfold Obligations.ServicePort
  refine ⟨fun s running judged shut => ?_, fun s env released stays => ?_, fun s len held => ?_, fun s len fresh early => ?_,
    fun s len fresh judged real short => ?_⟩
  · have states : s.mode ≠ .deepSleep ∧ s.mode ≠ .coldStart ∧ s.mode ≠ .warmStart := by
      revert running
      cases s.mode <;> decide
    obtain ⟨awake, cold, warm⟩ := states
    have opened := State.portOpens_of_judged judged shut awake
    rw [State.sealForPort_of_running cold warm] at opened
    generalize hv : (s.enter .sealed).event .servicePortOpened 0 0 0 = v at opened
    have gone := (State.sealErased_erased v).of_only (State.stopWatch_only _) rfl rfl rfl
    refine ⟨_, congrArg State.done opened, rfl, rfl, rfl, fun unbraced => ?_, gone.lockFlag, gone.erased, gone.keys, gone.flash,
      gone.staging, gone.sessions⟩
    have mode : v.mode = .sealed := by
      rw [← hv, (State.event_only ..).same .mode rfl, State.enter_mode, if_neg unbraced]
    rw [State.settle_mode, State.modStart_mode, (State.stopWatch_only _).same .mode rfl, v.sealErased_mode, mode]
    rfl
  · have only := Only.when (l := [.start, .outputs, .watch]) s.watch.wasRunning ((State.startWatch_only _).mono rfl)
      ((State.modStart_only (fun x => { x with scanReleased := false, tap := {} }) s).mono rfl)
    refine ⟨_, congrArg State.done (State.portCloses_without_restart released stays env), ?_⟩
    have started := State.startWatch_of_shut (s := s.modStart fun x => { x with scanReleased := false, tap := {} }) rfl
    refine and_assoc.mp (and_assoc.mp ⟨?_, (State.settle_only _).into rfl only⟩)
    cases s.watch.wasRunning with
    | false => exact ⟨⟨rfl, rfl⟩, rfl⟩
    | true =>
      rw [State.when, if_pos rfl, started]
      exact ⟨⟨rfl, rfl⟩, rfl⟩
  · exact ⟨_, congrArg State.done (State.svcIgnored_of_held held len), rfl, (State.settle_only _).into rfl (State.modStart_only ..)⟩
  · exact ⟨congrArg State.done (State.svcIgnored_of_not_judged fresh early len),
      congrArg State.done (State.portOpens_of_not_judged early)⟩
  · have only : Only [.log, .net, .outputs] s ((s.count .svcEnIgnored 1).event .svcEnIgnored len 0 0).settle :=
      (State.settle_only _).into rfl ((State.event_only ..).into rfl ((State.count_only ..).mono rfl))
    refine ⟨_, congrArg State.done (State.svcIgnored_of_short fresh judged real short), ?_, fun serving => ?_, only⟩
    · exact (State.event_only ..).same .net rfl
    · exact State.event_log_outside_rescue (s := s.count .svcEnIgnored 1) serving ..

end Sys2Proof.Machine

/-!
SUPPORT. Deep Sleep: what the endpoint's own frames leave of the gate, the drain before sleep, and the wake.
-/
namespace Sys2Proof.Machine

/-! ## Frames of the endpoint leave the gate -/

@[simp] theorem State.enqueue_gateOpen (q : Port) (e : EpEntry) (s : State) : (s.enqueue q e).net.gateOpen = s.net.gateOpen := rfl

@[simp] theorem State.sendDawn_gateOpen (q : Port) (dst : Mac) (level : Mode) (index : Nat) (s : State) :
    (s.sendDawn q dst level index).net.gateOpen = s.net.gateOpen := by
  unfold State.sendDawn
  split <;> rfl

@[simp] theorem State.beginSeries_gateOpen (level : Mode) (s : State) : (s.beginSeries level).net.gateOpen = s.net.gateOpen := by
  simp [State.beginSeries]

@[simp] theorem State.sendOwn_gateOpen (q : Port) (ethertype : Nat) (dst : Mac) (payload : Bytes) (s : State) :
    (s.sendOwn q ethertype dst payload).net.gateOpen = s.net.gateOpen := by
  unfold State.sendOwn
  split <;> rfl

@[simp] theorem State.askGateway_gateOpen (q : Port) (s : State) : (s.askGateway q).net.gateOpen = s.net.gateOpen := by
  unfold State.askGateway
  extract_lets
  split <;> simp

@[simp] theorem State.gratuitousArp_gateOpen (q : Port) (s : State) : (s.gratuitousArp q).net.gateOpen = s.net.gateOpen := by
  unfold State.gratuitousArp
  split <;> simp

@[simp] theorem State.unsolicited_gateOpen (q : Port) (s : State) : (s.unsolicited q).net.gateOpen = s.net.gateOpen :=
  foldl_keeps (fun t => t.net.gateOpen) (fun _ _ => State.sendOwn_gateOpen ..) ..

@[simp] theorem State.announceLevel_gateOpen (level : Mode) (s : State) : (s.announceLevel level).net.gateOpen = s.net.gateOpen := by
  simp [State.announceLevel]

@[simp] theorem State.releaseKept_gateOpen (s : State) : s.releaseKept.net.gateOpen = s.net.gateOpen :=
  foldl_keeps (fun t => t.net.gateOpen) (fun _ _ => State.enqueue_gateOpen ..) ..

@[simp] theorem State.resumeSessions_gateOpen (s : State) : s.resumeSessions.net.gateOpen = s.net.gateOpen :=
  State.releaseKept_gateOpen _

/-! ## The endpoint open for service -/

/-- The first part of opening the endpoint: the gate, watchdog, loops, admission limit and timers. -/
def State.openGate (s : State) : State :=
  (s.modNet fun n => { n with gateOpen := true }).lateWatch.startLoops.openLimit.armTimers

/-- The second part: the announcements, the kept sessions, and the work that waits. -/
def State.resumeService (level : Mode) (s : State) : State := (s.announceLevel level).resumeSessions.requestHeld.submitVerify

theorem State.openService_eq (level : Mode) (s : State) : s.openService level = s.openGate.resumeService level := rfl

theorem State.resumeService_only (level : Mode) (s : State) :
    Only [.net, .ses, .start, .outputs, .media, .watch] s (s.resumeService level) :=
  (State.submitVerify_only _).into rfl ((State.requestHeld_only _).into rfl ((State.resumeSessions_only _).into rfl
    ((State.announceLevel_only level s).mono rfl)))

theorem State.resumeService_gateOpen (level : Mode) (s : State) : (s.resumeService level).net.gateOpen = s.net.gateOpen := by
  rw [State.resumeService, (State.submitVerify_only _).same .net rfl, (State.requestHeld_only _).same .net rfl]
  simp

/-- The watchdog, the loops and the admission limit come before the timers. -/
theorem State.openGate_from (s : State) : ∃ u : State, Only [.reg, .start, .outputs, .watch] (s.modNet fun n => { n with gateOpen := true }) u ∧
    s.openGate = u.armTimers :=
  ⟨_, (State.openLimit_only _).into rfl ((State.startLoops_only _).into rfl ((State.lateWatch_only _).mono rfl)), rfl⟩

theorem State.openGate_gateOpen (s : State) : s.openGate.net.gateOpen = true := by
  obtain ⟨u, only, eq⟩ := s.openGate_from
  rw [eq, (State.armTimers_only _).same .net rfl, only.same .net rfl]
  rfl

theorem State.armTimers_sleep (s : State) : s.armTimers.power.sleep = s.power.sleep := by
  unfold State.armTimers
  extract_lets failed swept
  have power : swept.power = s.power := State.modStore_power _ s
  rw [State.modPower_power, power]

/-- The timers of an opened endpoint are no sleep. -/
theorem State.openGate_sleep (s : State) : s.openGate.power.sleep = s.power.sleep := by
  obtain ⟨u, only, eq⟩ := s.openGate_from
  have power : u.power = s.power := only.same .power rfl
  rw [eq, State.armTimers_sleep, power]

theorem State.openService_gateOpen (level : Mode) (s : State) : (s.openService level).net.gateOpen = true := by
  rw [State.openService_eq, State.resumeService_gateOpen, State.openGate_gateOpen]

theorem State.openService_sleep (level : Mode) (s : State) : (s.openService level).power.sleep = s.power.sleep := by
  rw [State.openService_eq, (State.resumeService_only ..).same .power rfl, State.openGate_sleep]

/-! ## The wake -/

/-- A drive that has woken into a state, with the gate open and the wake as its newest start record (R89). -/
structure Woken (m : Mode) (t : State) : Prop where
  mode : t.mode = m
  sleep : t.power.sleep = .awake
  gateOpen : t.net.gateOpen = true
  record : (t.admin.startRecords.head?.map fun x => (x.kind, x.source)) = some (StartKind.wake.code, StartSource.wake.code)

/-- The first part of a wake: Ready-Read, no sleep, and the start of kind wake. -/
def State.wakeNoted (s : State) : State :=
  ((s.setMode .readyRead).modPower fun p => { p with sleep := .awake }).modStart fun x =>
    { x with kind := .wake, source := .wake, kept := true }

/-- Between the note of a wake and the opened endpoint stand the event, the start record and the watchdog. -/
theorem State.awaken_from (source : Nat) (s : State) : ∃ u v : State, Only [.log] s.wakeNoted u ∧
    Only [.watch] (u.recordStart .wake .wake) v ∧ s.awaken source = v.openService .readyRead := by
  unfold State.awaken
  extract_lets awake noted recorded watched
  exact ⟨noted.event .deepSleep 2 source 0, watched, State.event_only .., .ite (State.startWatch_only _) (.refl ..), rfl⟩

theorem State.awaken_woken (source : Nat) (s : State) : Woken .readyRead (s.awaken source) := by
  obtain ⟨u, v, logged, watched, eq⟩ := s.awaken_from source
  rw [eq]
  constructor
  case mode =>
    rw [(State.openService_only ..).same .mode rfl, watched.same .mode rfl]
    exact logged.same .mode rfl
  case sleep =>
    have power : v.power = s.wakeNoted.power := (watched.same .power rfl).trans (logged.same .power rfl)
    rw [State.openService_sleep, power]
    rfl
  case gateOpen => exact State.openService_gateOpen ..
  case record =>
    rw [(State.openService_only ..).same .admin rfl, watched.same .admin rfl]
    rfl

/-- The series of a level changes nothing of what a wake has brought about. -/
theorem Woken.beginSeries {m : Mode} {s : State} (h : Woken m s) (level : Mode) : Woken m (s.beginSeries level) := by
  have only := State.beginSeries_only level s
  constructor
  case mode => exact (only.same .mode rfl).trans h.mode
  case sleep => rw [only.same .power rfl, h.sleep]
  case gateOpen => rw [State.beginSeries_gateOpen, h.gateOpen]
  case record => rw [only.same .admin rfl, h.record]

theorem Woken.setMode {m : Mode} {s : State} (h : Woken m s) (level : Mode) : Woken level (s.setMode level) :=
  ⟨rfl, h.sleep, h.gateOpen, h.record⟩

/-- An operation that touches neither mode, network, supply nor records leaves a woken drive as it is. -/
theorem Woken.of_only {m : Mode} {l : List Area} {s t : State} (h : Woken m s) (k : Only l s t) (hmode : l.contains .mode = false)
    (hpower : l.contains .power = false) (hnet : l.contains .net = false) (hadmin : l.contains .admin = false) : Woken m t := by
  have power : t.power = s.power := k.same .power hpower
  have net : t.net = s.net := k.same .net hnet
  have admin : t.admin = s.admin := k.same .admin hadmin
  exact ⟨(k.same .mode hmode).trans h.mode, power ▸ h.sleep, net ▸ h.gateOpen, admin ▸ h.record⟩

/-- A drive asleep wakes into the state that it slept from. -/
theorem State.wakeUp_woken {s : State} {m : Mode} (deep : s.mode = .deepSleep) (asleep : s.power.sleep = .asleep m) (source : Nat) :
    Woken m (s.wakeUp source) := by
  have woken := s.awaken_woken source
  unfold State.wakeUp
  rw [deep, asleep]
  refine Woken.of_only ?_ (State.kickAll_only _) rfl rfl rfl rfl
  split
  · next level => exact level ▸ woken.beginSeries _
  · exact (woken.setMode m).beginSeries m

/-- A wake frame that is taken and in order wakes a drive asleep. -/
theorem State.wakeFrame_woken {s rest : State} {f : InFrame} {m : Mode} (deep : s.mode = .deepSleep)
    (asleep : s.power.sleep = .asleep m) (taken : s.takeFrame .wake = (some f, rest)) (sound : s.wakeFrameOk f.payload = true) :
    Woken m s.wakeFrame := by
  have only : Only [.net] s rest := by simpa [taken] using State.takeFrame_only .wake s
  have fused : rest.fused = s.fused := only.same .fused rfl
  have power : rest.power = s.power := only.same .power rfl
  have still : rest.wakeFrameOk f.payload = true := by rw [State.wakeFrameOk, fused]; exact sound
  have eq : s.wakeFrame = rest.wakeUp 2 := by simp [State.wakeFrame, taken, still]
  exact eq ▸ State.wakeUp_woken ((only.same .mode rfl).trans deep) (power ▸ asleep) 2

/-! ## The way into Deep Sleep -/

theorem State.drainOne_keys (s : State) (x : Extent) : (s.drainOne x).store.keys = s.store.keys := by
  unfold State.drainOne
  extract_lets full entered
  have keys : entered.store.keys = s.store.keys := by
    simp only [entered]
    split
    · rw [State.writeEntry_store]
    · rfl
  rw [(State.place_only ..).same .store rfl, (State.programExtent_only ..).same .store rfl, keys]

theorem State.drainNow_keys (s : State) : s.drainNow.store.keys = s.store.keys := by
  unfold State.drainNow
  split
  · rfl
  · rw [(State.endOps_only ..).same .store rfl]
    exact foldl_keeps (fun t => t.store.keys) State.drainOne_keys ..

theorem State.drainNow_staging_nil (s : State) : s.drainNow.store.staging = [] := by
  unfold State.drainNow
  split
  · next empty => exact List.isEmpty_iff.mp empty
  · rw [(State.endOps_only ..).same .store rfl]
    rfl

/-- Before the event of an entry to Deep Sleep the buffer is drained, and jobs, watchdog, loops and gate are at rest (R87). -/
def State.restForSleep (s : State) : State :=
  ((s.drainNow.writeEntry .checkpoint).abortJobs.stopWatch.modReg RegState.stopLoops).modNet fun n => { n with gateOpen := false }

theorem State.sleepNow_from (m : Mode) (s : State) : ∃ u : State, Only [.log] s.restForSleep u ∧ s.sleepNow m =
    ((u.modStart fun x => { x with series := none, limit := .closed }).setMode .deepSleep).modPower fun p =>
      { p with sleep := .asleep m } :=
  ⟨s.restForSleep.event .deepSleep 1 0 0, State.event_only .., rfl⟩

theorem State.restForSleep_store (s : State) : s.restForSleep.store.staging = [] ∧ s.restForSleep.store.keys = s.store.keys := by
  have store : s.restForSleep.store = { s.drainNow.store with flashPins := s.drainNow.store.pins } :=
    State.writeEntry_store .checkpoint s.drainNow
  rw [store]
  exact ⟨s.drainNow_staging_nil, s.drainNow_keys⟩

theorem State.restForSleep_journal (s : State) :
    s.restForSleep.journal.newest = .checkpoint ∧ s.restForSleep.journal.unrecorded = none :=
  ⟨State.writeEntry_newest .checkpoint s.drainNow, State.writeEntry_unrecorded .checkpoint s.drainNow⟩

/-- With no request in flight and WAKE low, a serving drive on its way into Deep Sleep goes to sleep. -/
theorem State.sleepComplete_of_ready {s : State} {m : Mode} (entering : s.power.sleep = .entering m) (idle : s.ses.inFlight = 0)
    (serving : s.mode.serving = true) : s.sleepComplete false = s.sleepNow m := by
  simp [State.sleepComplete, entering, idle, serving]

/-- Settles O13: a wake is `wakeUp`, and the entry is `sleepNow`. -/
theorem deepSleep : Obligations.DeepSleep := by
  unfold Obligations.DeepSleep
  refine ⟨fun s m i deep asleep _ row => ?_, fun s m entering idle serving => ?_⟩
  · obtain ⟨u, answer, only, woken⟩ : ∃ u : State, exec i s = .next u.settle ∧
        Only [.mode, .log, .admin, .net, .ses, .store, .power, .reg, .start, .outputs, .media, .watch] s u.settle ∧ Woken m u := by
      rcases row with rfl | ⟨rfl, f, rest, taken, sound⟩
      · exact ⟨s.wakeUp 1, rfl, exec_only (c := .wakeInput) rfl, State.wakeUp_woken deep asleep 1⟩
      · exact ⟨s.wakeFrame, rfl, exec_only (c := .wakeFrame) rfl, State.wakeFrame_woken deep asleep taken sound⟩
    exact ⟨_, answer, woken.mode, woken.sleep, woken.gateOpen, only.same .startCount rfl, woken.record, only⟩
  · obtain ⟨u, logged, eq⟩ := s.sleepNow_from m
    have answer := congrArg State.done ((State.sleepComplete_of_ready entering idle serving).trans eq)
    have store : u.store = s.restForSleep.store := logged.same .store rfl
    have journal : u.journal = s.restForSleep.journal := logged.same .journal rfl
    have watch : u.watch = s.restForSleep.watch := logged.same .watch rfl
    have net : u.net = s.restForSleep.net := logged.same .net rfl
    obtain ⟨drained, keys⟩ := s.restForSleep_store
    obtain ⟨newest, unrecorded⟩ := s.restForSleep_journal
    exact ⟨_, answer, rfl, rfl, (congrArg _ store).trans drained, (congrArg _ store).trans keys, (congrArg _ journal).trans newest,
      (congrArg _ journal).trans unrecorded, congrArg NetState.gateOpen net, congrArg WatchState.running watch,
      congrArg WatchState.jobs watch, rfl, exec_only (c := .deepSleepEntryComplete false) answer⟩

end Sys2Proof.Machine

/-!
SUPPORT. The watchdog: what check-ins within the window note, and what an expiry in a serving state begins.
-/
namespace Sys2Proof.Machine

/-! ## Check-ins -/

theorem State.mem_slotsOf {activity n : Nat} {s : State} : n ∈ s.slotsOf activity ↔ n < 8 ∧
    (if s.bootRom = true then activity = 0 else s.cfg.inUse.watchdog.tasks.getD n 0 = activity) := by
  unfold State.slotsOf
  by_cases rom : s.bootRom = true
  · by_cases service : activity = 0 <;> simp [rom, service]
  · simp [rom]

theorem State.slotsOf_nodup (activity : Nat) (s : State) : (s.slotsOf activity).Nodup := by
  unfold State.slotsOf
  split
  · split
    · exact List.nodup_range
    · exact List.nodup_nil
  · exact List.nodup_range.filter _

/-- The window of a period is open now, and its end has not passed (R443, R444). -/
def State.windowOpen (s : State) : Prop :=
  s.fused.openNs ≤ s.elapsed - s.watch.periodAt ∧ s.elapsed - s.watch.periodAt < s.fused.periodNs + 40

/-- First check-ins noted. -/
def State.noteChecked (slots : List Nat) (s : State) : State :=
  s.modWatch fun w => { w with checked := slots ++ w.checked }

/-- The next period begins, one clock period from now. -/
def State.nextPeriod (s : State) : State :=
  s.modWatch fun w => { w with checked := [], periodAt := s.elapsed + 40 }

theorem State.noteChecked_noteChecked (slots more : List Nat) (s : State) :
    (s.noteChecked slots).noteChecked more = s.noteChecked (more ++ slots) := by
  simp [State.noteChecked, State.modWatch]

theorem State.noteChecked_nextPeriod (slots : List Nat) (s : State) : (s.noteChecked slots).nextPeriod = s.nextPeriod := rfl

/-- A first check-in within the window is noted, or is the eighth and begins the next period. -/
theorem State.checkSlots_cons {s : State} {n : Nat} (inWindow : s.windowOpen) (first : n ∉ s.watch.checked)
    (env : StartEnv) (rest : List Nat) : State.checkSlots env (n :: rest) s =
      if s.watch.checked.length + 1 < 8 then State.checkSlots env rest (s.noteChecked [n]) else s.nextPeriod := by
  obtain ⟨opened, running⟩ := inWindow
  simp only [State.checkSlots, Nat.not_lt.mpr opened, Nat.not_le.mpr running, List.contains_iff_mem, first, or_self, if_false]
  rfl

/-- First check-ins of several slots, no more than are missing. -/
theorem State.checkSlots_of_first {slots : List Nat} {s : State} (inWindow : s.windowOpen) (distinct : slots.Nodup)
    (first : ∀ n ∈ slots, n ∉ s.watch.checked) (room : s.watch.checked.length + slots.length ≤ 8) (env : StartEnv) :
    State.checkSlots env slots s = if slots = [] then s
      else if s.watch.checked.length + slots.length < 8 then s.noteChecked slots.reverse else s.nextPeriod := by
  induction slots generalizing s with
  | nil => rfl
  | cons n rest ih =>
    obtain ⟨other, distinct⟩ := List.nodup_cons.mp distinct
    obtain ⟨firstN, first⟩ := List.forall_mem_cons.mp first
    rw [List.length_cons] at room ⊢
    rw [State.checkSlots_cons inWindow firstN, if_neg (List.cons_ne_nil n rest)]
    by_cases more : s.watch.checked.length + 1 < 8
    · have count : (s.noteChecked [n]).watch.checked.length = s.watch.checked.length + 1 := rfl
      have firstRest : ∀ m ∈ rest, m ∉ (s.noteChecked [n]).watch.checked := fun m mem =>
        List.not_mem_cons_of_ne_of_not_mem (fun eq => other (eq ▸ mem)) (first m mem)
      rw [if_pos more, ih (s := s.noteChecked [n]) inWindow distinct firstRest (by omega), count]
      by_cases last : rest = []
      · subst last
        rw [if_pos rfl, if_pos (by simpa using more)]
        rfl
      · rw [if_neg last, Nat.add_assoc, Nat.add_comm 1]
        rw [State.noteChecked_noteChecked, State.noteChecked_nextPeriod, List.reverse_cons]
    · rw [if_neg more, if_neg (by omega)]

/-- A check-in before the window, or a second one of its slot, expires the watchdog. -/
theorem State.checkSlots_of_violation {s : State} {n : Nat}
    (early : s.elapsed - s.watch.periodAt < s.fused.openNs ∨ s.watch.checked.contains n = true) (env : StartEnv) (rest : List Nat) :
    State.checkSlots env (n :: rest) s = s.watchExpires (some n) env :=
  if_pos early

theorem State.checkIn_of_running {s : State} (running : s.watch.running = true) (activity : Nat) (env : StartEnv) :
    s.checkIn activity env = State.checkSlots env (s.slotsOf activity) s := if_pos running

theorem State.watchRunsOut_of_running {s : State} (running : s.watch.running = true) (env : StartEnv) :
    s.watchRunsOut env = (s.waitUntil (s.watch.periodAt + s.fused.periodNs)).watchExpires none env := if_pos running

/-! ## Expiries -/

/-- The slots that an expiry records: those that have not checked in, with the violating one (R446). -/
def State.missedSlots (violator : Option Nat) (s : State) : List Nat :=
  (List.range 8).filter fun n => !s.watch.checked.contains n || decide (violator = some n)

/-- An expiry counted, with the slots that missed. -/
def State.countExpiry (violator : Option Nat) (s : State) : State := s.modWatch fun w =>
  { w with lastMissed := slotMap (s.missedSlots violator), resetCount := min 0xFFFF (s.watch.resetCount + 1) }

/-- An expiry counted and logged. -/
def State.noteExpiry (violator : Option Nat) (s : State) : State :=
  (s.countExpiry violator).event .watchdogExpiry (slotMap (s.missedSlots violator)) (min 0xFFFF (s.watch.resetCount + 1)) 0

/-- The watchdog warm starts that count with one at this instant (R91), this one among them. -/
def State.recentWarm (s : State) : List Nat := s.elapsed :: s.watch.warmAt.filter fun t => s.elapsed < t + secs 60


theorem State.noteExpiry_only (violator : Option Nat) (s : State) : Only [.log, .watch] s (s.noteExpiry violator) :=
  (State.event_only ..).into rfl ((State.modWatch_only ..).mono rfl)

theorem State.noteExpiry_watch (violator : Option Nat) (s : State) :
    (s.noteExpiry violator).watch = (s.countExpiry violator).watch := (State.event_only ..).same .watch rfl

theorem State.noteExpiry_recentWarm (violator : Option Nat) (s : State) : (s.noteExpiry violator).recentWarm = s.recentWarm := by
  have clock : (s.noteExpiry violator).elapsed = s.elapsed := (s.noteExpiry_only violator).same .clock rfl
  rw [State.recentWarm, State.noteExpiry_watch, clock]
  rfl

/-- An expiry in a serving state is recorded and counted by R91. -/
theorem State.watchExpires_of_serving {s : State} (serving : s.mode.serving = true) (violator : Option Nat) (env : StartEnv) :
    s.watchExpires violator env =
      ((s.noteExpiry violator).watchStarts env State.orderlyStop (State.beginWarm .watchdog env)).runStart := by
  have mode : (s.noteExpiry violator).mode = s.mode := (s.noteExpiry_only violator).same .mode rfl
  rw [← mode] at serving
  unfold State.watchExpires
  extract_lets missed n counted noted
  split
  · next cold _ => cases serving.symm.trans (congrArg Mode.serving cold)
  · next warm _ => cases serving.symm.trans (congrArg Mode.serving warm)
  · rfl

theorem State.watchStarts_of_few {s : State} (few : s.recentWarm.length < 3) (env : StartEnv) (stop warm : State → State) :
    s.watchStarts env stop warm = warm (s.modWatch fun w => { w with warmAt := s.recentWarm }) := if_pos few

/-- Where no alarm waits, a start begins with its reference point now. -/
theorem State.beginRun_of_no_alarm {s : State} (quiet : s.sec.alarmPending = false) (path : StartPath) (source : StartSource)
    (step : Nat) (env : StartEnv) : s.beginRun path source step env =
      (s.when s.start.run.isSome State.pauseBounds).modStart fun x =>
        { x with run := some ⟨path, source, step, env, false⟩, refAt := s.elapsed } := by
  cases run : s.start.run.isSome <;> simp [State.beginRun, State.when, run, State.pauseBounds, quiet]

/-- Before an orderly stop puts the drive's work away it halts test, jobs, graft and watchdog. -/
theorem State.quiesce_watch (s : State) : s.quiesce.watch = s.abortTest.abortJobs.abandonGraft.haltWatch.watch :=
  (State.putAway_only s.abortTest.abortJobs.abandonGraft.haltWatch.stopServing.settle).same .watch rfl

theorem State.haltWatch_figures (s : State) : s.haltWatch.watch.resetCount = s.watch.resetCount ∧
    s.haltWatch.watch.lastMissed = s.watch.lastMissed := by
  unfold State.haltWatch
  split <;> exact ⟨rfl, rfl⟩

/-- An orderly stop leaves the figures of the watchdog. -/
theorem State.orderlyStop_figures (s : State) : s.orderlyStop.watch.resetCount = s.watch.resetCount ∧
    s.orderlyStop.watch.lastMissed = s.watch.lastMissed := by
  have halted := State.haltWatch_figures s.abortTest.abortJobs.abandonGraft
  have graft : s.abortTest.abortJobs.abandonGraft.watch = s.abortTest.abortJobs.watch := (State.abandonGraft_only _).same .watch rfl
  have test : s.abortTest.watch = s.watch := s.abortTest_only.same .watch rfl
  have stopped : s.orderlyStop.watch = s.quiesce.watch := s.orderlyStop_from.same .watch rfl
  rw [graft] at halted
  rw [stopped, s.quiesce_watch, ← test]
  exact halted

/-- A warm start recognised where no alarm waits: Warm Start at step 4, with the figures of the watchdog as they were. -/
structure WarmBegun (source : StartSource) (env : StartEnv) (s t : State) : Prop where
  mode : t.mode = .warmStart
  run : t.start.run = some ⟨.warm, source, 4, env, false⟩
  resetCount : t.watch.resetCount = s.watch.resetCount
  lastMissed : t.watch.lastMissed = s.watch.lastMissed
  clock : t.elapsed = s.elapsed

theorem State.beginWarm_begun {s : State} (quiet : s.sec.alarmPending = false) (source : StartSource) (env : StartEnv) :
    WarmBegun source env s (s.beginWarm source env) := by
  have stopped := s.orderlyStop_only
  have alarm : s.orderlyStop.sec = s.sec := stopped.same .sec rfl
  have clock : s.orderlyStop.elapsed = s.elapsed := stopped.same .clock rfl
  obtain ⟨resetCount, lastMissed⟩ := s.orderlyStop_figures
  have bounds := Only.when s.orderlyStop.start.run.isSome s.orderlyStop.pauseBounds_only (.refl _ _)
  have watch := bounds.same .watch rfl
  rw [State.beginWarm, State.beginRun_of_no_alarm (alarm ▸ quiet)]
  constructor
  case mode => exact (bounds.same .mode rfl).trans s.orderlyStop_mode
  case run => rfl
  case resetCount => exact (congrArg WatchState.resetCount watch).trans resetCount
  case lastMissed => exact (congrArg WatchState.lastMissed watch).trans lastMissed
  case clock => exact (bounds.same .clock rfl).trans clock

/-- In a serving state with no alarm waiting, an expiry that is not the third within 60 s is recorded and begins a warm start. -/
theorem State.watchExpires_warm {s : State} (serving : s.mode.serving = true) (quiet : s.sec.alarmPending = false)
    (few : (s.watch.warmAt.filter fun t => s.elapsed < t + secs 60).length < 2) (violator : Option Nat) (env : StartEnv) :
    ∃ u : State, s.watchExpires violator env = u.runStart ∧ u.mode = .warmStart ∧
      u.start.run = some ⟨.warm, .watchdog, 4, env, false⟩ ∧ u.watch.resetCount = min 0xFFFF (s.watch.resetCount + 1) ∧
      u.watch.lastMissed = slotMap (s.missedSlots violator) ∧ u.elapsed = s.elapsed := by
  have noted := s.noteExpiry_only violator
  have alarm : (s.noteExpiry violator).sec = s.sec := noted.same .sec rfl
  have third : (s.noteExpiry violator).recentWarm.length < 3 := by
    rw [State.noteExpiry_recentWarm, State.recentWarm, List.length_cons]
    omega
  have begun := State.beginWarm_begun (s := (s.noteExpiry violator).modWatch fun w =>
    { w with warmAt := (s.noteExpiry violator).recentWarm }) (alarm ▸ quiet) .watchdog env
  refine ⟨_, ?_, begun.mode, begun.run, begun.resetCount.trans ?_, begun.lastMissed.trans ?_, begun.clock.trans (noted.same .clock rfl)⟩
  · rw [State.watchExpires_of_serving serving, State.watchStarts_of_few third]
  · exact congrArg WatchState.resetCount (s.noteExpiry_watch violator)
  · exact congrArg WatchState.lastMissed (s.noteExpiry_watch violator)

/-- Settles O28: check-ins are `checkSlots`, and an expiry in a serving state is `beginWarm`. -/
theorem watchdog : Obligations.Watchdog := by
  unfold Obligations.Watchdog
  refine fun s running => ⟨fun activity n => State.mem_slotsOf, fun activity env first room opened early => ?_,
    fun activity slot rest env slots serving quiet few violated => ?_, fun env serving quiet few => ?_⟩
  · have fresh : ∀ n ∈ s.slotsOf activity, n ∉ s.watch.checked := by simpa using first
    have checked := (State.checkIn_of_running running activity env).trans
      (State.checkSlots_of_first ⟨opened, early⟩ (s.slotsOf_nodup activity) fresh room env)
    refine ⟨_, congrArg State.done checked, ?_, (State.settle_only _).into rfl ?_⟩
    · rw [State.settle_watch, apply_ite State.watch, apply_ite State.watch]
      rfl
    · exact .ite (.refl ..) (.ite ((State.modWatch_only ..).mono rfl) ((State.modWatch_only ..).mono rfl))
  · obtain ⟨u, expired, mode, run, resetCount, missed, clock⟩ := State.watchExpires_warm serving quiet few (some slot) env
    have answer : s.checkIn activity env = u.runStart := by
      rw [State.checkIn_of_running running, slots, State.checkSlots_of_violation violated, expired]
    refine ⟨u, congrArg State.done answer, mode, run, resetCount, ?_, clock⟩
    rw [missed, State.missedSlots]
    simp only [Option.some.injEq, eq_comm]
  · obtain ⟨u, expired, mode, run, resetCount, missed, clock⟩ := State.watchExpires_warm
      (s := s.waitUntil (s.watch.periodAt + s.fused.periodNs)) serving quiet few none env
    refine ⟨u, congrArg State.done ((State.watchRunsOut_of_running running env).trans expired), mode, run, resetCount, ?_, clock⟩
    rw [missed, State.missedSlots]
    simp

end Sys2Proof.Machine

/-!
SUPPORT. Reception: what a packet of the line, a whole or joined frame, and the bridge make of the state.
-/
namespace Sys2Proof.Machine

/-! ## Packets on the wire -/

@[simp] theorem PerPort.get_modify {α : Type} (p : PerPort α) (q : Port) (f : α → α) : (p.modify q f).get q = f (p.get q) := by
  cases q <;> rfl

@[simp] theorem PerPort.modify_modify {α : Type} (p : PerPort α) (q : Port) (f g : α → α) :
    (p.modify q f).modify q g = p.modify q fun x => g (f x) := by
  cases q <;> rfl

/-- The instant at which the next packet of some bytes on a port has ended. -/
def State.endsAt (q : Port) (length : Nat) (s : State) : Nat := max s.elapsed ((s.portOf q).rxEnd + wireNs (s.portOf q).speed length)

@[simp] theorem State.onWire_elapsed (q : Port) (length : Nat) (s : State) : (s.onWire q length).elapsed = s.endsAt q length := rfl

theorem State.onWire_net (q : Port) (length : Nat) (s : State) : (s.onWire q length).net =
    { s.net with port := s.net.port.modify q fun p => { p with rxEnd := s.endsAt q length } } := rfl

/-- A port keeps all but the end of its last packet. -/
theorem State.onWire_portOf (q : Port) (length : Nat) (s : State) :
    (s.onWire q length).portOf q = { s.portOf q with rxEnd := s.endsAt q length } := PerPort.get_modify ..

/-- The fragments kept of a port's frame are dropped. -/
def State.dropPart (q : Port) (s : State) : State := s.modPort q fun p => { p with rxPart := none }

/-- The instant at which the packet that takes the wire next has begun. -/
def State.begunAt (q : Port) (length : Nat) (s : State) : Nat :=
  s.endsAt q length - length * 8 * bitNs (s.portOf q).speed

/-- What the port makes of a joined packet. -/
def State.takeJoined (q : Port) (s : State) : Joined → State
  | .error => (s.dropPart q).bump q .rxFragErr
  | .part x => s.modPort q fun p => { p with rxPart := some x }
  | .frame bytes begun bad => (s.dropPart q).judgeFrame q bad begun bytes

section
variable {s : State} {q : Port} {pkt : MPacket} {err : RxError} {bytes : Bytes}

theorem State.frameReceived_of_down (down : (s.portOf q).up = false) : s.frameReceived q pkt err bytes = s := by
  simp [State.frameReceived, down]

theorem State.frameReceived_fragErr (up : (s.portOf q).up = true) (fragment : pkt ≠ .whole)
    (lost : (s.portOf q).preempt ≠ .active ∨ err = .fragment) :
    s.frameReceived q pkt err bytes = ((s.onWire q bytes.length).dropPart q).bump q .rxFragErr := by
  have row : err = .fragment ∨ (s.portOf q).preempt ≠ .active := lost.symm
  simp [State.frameReceived, up, State.onWire_portOf, fragment, row, State.when, State.dropPart]

/-- Where preemption is active, a first fragment with none kept before it, and a continuation, are joined to what is kept. -/
theorem State.frameReceived_joined (up : (s.portOf q).up = true) (active : (s.portOf q).preempt = .active) (sound : err ≠ .fragment)
    (row : (∃ n, pkt = .first n ∧ (s.portOf q).rxPart = none) ∨ ∃ n k, pkt = .continuation n k) :
    s.frameReceived q pkt err bytes = (s.onWire q bytes.length).takeJoined q
      (joinPacket (s.portOf q).rxPart pkt (s.begunAt q bytes.length) (decide (err = .symbol)) bytes) := by
  generalize packet : joinPacket (s.portOf q).rxPart pkt (s.begunAt q bytes.length) (decide (err = .symbol)) bytes = joined
  rw [State.begunAt] at packet
  rcases row with ⟨n, rfl, empty⟩ | ⟨n, k, rfl⟩
  · rw [empty] at packet
    cases joined <;>
      simp [State.frameReceived, up, State.onWire_portOf, active, sound, empty, State.when, packet, State.takeJoined, State.dropPart]
  · cases joined <;>
      simp [State.frameReceived, up, State.onWire_portOf, active, sound, State.when, packet, State.takeJoined, State.dropPart]

theorem State.frameReceived_whole_fragErr (up : (s.portOf q).up = true) :
    s.frameReceived q .whole .fragment bytes = (s.onWire q bytes.length).bump q .rxFragErr := by
  simp [State.frameReceived, up, State.when]

theorem State.frameReceived_whole (up : (s.portOf q).up = true) (sound : err ≠ .fragment) :
    s.frameReceived q .whole err bytes =
      (s.onWire q bytes.length).judgeFrame q (decide (err = .symbol)) (s.begunAt q bytes.length) bytes := by
  simp [State.frameReceived, up, State.when, sound, State.onWire_portOf, joinPacket, State.begunAt]
end

section
variable {part : Option RxPart} {begun : Nat} {bad : Bool} {bytes : Bytes}

/-- A first fragment that ends in the mCRC of its bytes is kept. -/
theorem joinPacket_first {n : Nat} (mcrc : bytes.drop (bytes.length - 4) = mcrcOf (bytes.take (bytes.length - 4))) :
    joinPacket part (.first n) begun bad bytes = .part ⟨n, 0, bytes.take (bytes.length - 4), begun, bad⟩ :=
  if_pos mcrc

/-- A continuation of an unknown frame or out of order. -/
theorem joinPacket_stray {n k : Nat} (stray : part = none ∨ ∃ p, part = some p ∧ (n ≠ p.frame ∨ k ≠ p.next)) :
    joinPacket part (.continuation n k) begun bad bytes = .error := by
  rcases stray with rfl | ⟨p, rfl, other⟩
  · rfl
  · exact if_neg fun ⟨frame, next⟩ => other.elim (· frame) (· next)

/-- A continuation that is awaited and does not end in the mCRC completes its frame. -/
theorem joinPacket_last {p : RxPart} (long : 4 ≤ bytes.length)
    (fcs : bytes.drop (bytes.length - 4) ≠ mcrcOf (p.bytes ++ bytes.take (bytes.length - 4))) :
    joinPacket (some p) (.continuation p.frame p.next) begun bad bytes = .frame (p.bytes ++ bytes) p.begun (p.bad || bad) := by
  have cut : (p.bytes ++ bytes).length - 4 = p.bytes.length + (bytes.length - 4) := by
    rw [List.length_append]
    omega
  have whole : joinBytes p.frame (p.next + 1) p.begun (bad || p.bad) (p.bytes ++ bytes) =
      .frame (p.bytes ++ bytes) p.begun (bad || p.bad) := by
    unfold joinBytes
    rw [cut, List.drop_length_add_append, List.take_length_add_append]
    exact if_neg fcs
  rw [joinPacket, if_pos ⟨rfl, rfl⟩, whole, Bool.or_comm]

end

/-! ## Table 7-3 -/

@[simp] theorem parseFrame_length (bytes : Bytes) : (parseFrame bytes).length = bytes.length := rfl

/-- The largest frame that a port takes, by its tag. -/
def State.mostBytes (q : Port) (f : Frame) (s : State) : Nat :=
  if f.tagged = true then (s.portCfg q).maxFrame else (s.portCfg q).maxFrame - 4

/-- A frame that no row of Table 7-3 before row 8 counts as an error. -/
structure Frame.Sound (q : Port) (s : State) (f : Frame) : Prop where
  long : 64 ≤ f.length
  fits : f.length ≤ s.mostBytes q f
  fcs : f.fcsOk = true
  single : isGroup f.src = false
  nonzero : f.src ≠ 0
  foreign : f.src ≠ s.macInUse.toNat ∧ f.src ≠ s.fused.macPortA.toNat ∧ f.src ≠ s.fused.macPortB.toNat
  vlan : f.tagged = true → f.tag.vid 1 ≠ 0xFFF

section
variable {s : State} {q : Port} {begun : Nat} {bytes : Bytes}

theorem State.judgeFrame_bad : s.judgeFrame q true begun bytes = s.bump q .rxSymbolErr := rfl

theorem State.judgeFrame_runt (short : bytes.length < 64) : s.judgeFrame q false begun bytes = s.bump q .rxRunt := by
  simp [State.judgeFrame, short]

theorem State.judgeFrame_oversize (long : 64 ≤ bytes.length) (tooLong : s.mostBytes q (parseFrame bytes) < bytes.length) :
    s.judgeFrame q false begun bytes = s.bump q .rxOversize := by
  unfold State.mostBytes at tooLong
  simp [State.judgeFrame, Nat.not_lt.mpr long, tooLong]

section
variable (long : 64 ≤ bytes.length) (fits : bytes.length ≤ s.mostBytes q (parseFrame bytes))
include long fits

theorem State.judgeFrame_fcs (wrong : (parseFrame bytes).fcsOk = false) :
    s.judgeFrame q false begun bytes = s.bump q .rxFcsErr := by
  unfold State.mostBytes at fits
  simp [State.judgeFrame, Nat.not_lt.mpr long, Nat.not_lt.mpr fits, wrong]

theorem State.judgeFrame_source (fcs : (parseFrame bytes).fcsOk = true)
    (source : isGroup (parseFrame bytes).src = true ∨ (parseFrame bytes).src = 0) :
    s.judgeFrame q false begun bytes = s.bump q .rxBadSource := by
  unfold State.mostBytes at fits
  simp [State.judgeFrame, Nat.not_lt.mpr long, Nat.not_lt.mpr fits, fcs, source]

end

/-- What is kept of the receipt of a frame that ended now. -/
def State.receipt (q : Port) (f : Frame) (stamp : Nat) (s : State) : Rx :=
  { port := q, tag := f.tag, peer := { mac := BitVec.ofNat 48 f.src }, stamp := stamp, at_ := s.elapsed }

/-- Rows 9 to 12 of Table 7-3: where a sound frame goes by its destination and EtherType. -/
def State.sortFrame (q : Port) (f : Frame) (rx : Rx) (bytes : Bytes) (s : State) : State :=
  if f.dst = 0x0180C2000001 ∧ f.ethertype = 0x8808 ∧ fieldAt 0 2 f.payload = 1 then
    (s.bump q .rxPause).handOn .pause rx f.payload 0
  else if f.ethertype = 0x88F7 ∧ (f.dst = 0x0180C200000E ∨ f.dst = (s.fused.macPort q).toNat) then
    (s.bump q .gptpRx).handOn .gptp rx f.payload 0
  else if (0x0180C2000000 ≤ f.dst ∧ f.dst ≤ 0x0180C200000F) ∨ f.dst = (s.fused.macPort q).toNat then s.bump q .rxLinkLocal
  else s.bridgeFrame q f rx.stamp bytes

section
variable (sound : (parseFrame bytes).Sound q s)
include sound

theorem State.judgeFrame_sound : s.judgeFrame q false begun bytes =
    (s.bump q .rxFramesOk).sortFrame q (parseFrame bytes) (s.receipt q (parseFrame bytes) (s.time.stampAt begun)) bytes := by
  obtain ⟨long, fits, fcs, single, nonzero, ⟨notOwn, notA, notB⟩, vlan⟩ := sound
  unfold State.mostBytes at fits
  have tagged : ¬ ((parseFrame bytes).tagged = true ∧ (parseFrame bytes).tag.vid 1 = 0xFFF) := fun h => vlan h.1 h.2
  unfold State.judgeFrame
  rw [if_neg Bool.false_ne_true, if_neg (Nat.not_lt.mpr long), if_neg (Nat.not_lt.mpr fits), if_neg (by simp [fcs]),
    if_neg (by simp [single, nonzero]), if_neg (by simp [notOwn, notA, notB]), if_neg tagged]
  rfl

/-- A sound pause frame is counted and handed to its row (R166). -/
theorem State.judgeFrame_pause (dst : (parseFrame bytes).dst = 0x0180C2000001) (ethertype : (parseFrame bytes).ethertype = 0x8808)
    (opcode : fieldAt 0 2 (parseFrame bytes).payload = 1) : s.judgeFrame q false begun bytes =
      ((s.bump q .rxFramesOk).bump q .rxPause).handOn .pause (s.receipt q (parseFrame bytes) (s.time.stampAt begun))
        (parseFrame bytes).payload 0 := by
  rw [State.judgeFrame_sound sound]
  exact if_pos ⟨dst, ethertype, opcode⟩

/-- A sound frame for no address of the port itself goes to the bridge. -/
theorem State.judgeFrame_bridge (remote : (parseFrame bytes).dst < 0x0180C2000000 ∨ 0x0180C200000F < (parseFrame bytes).dst)
    (other : (parseFrame bytes).dst ≠ (s.fused.macPort q).toNat) (ethertype : (parseFrame bytes).ethertype ≠ 0x88F7) :
    s.judgeFrame q false begun bytes =
      (s.bump q .rxFramesOk).bridgeFrame q (parseFrame bytes) (s.time.stampAt begun) bytes := by
  have pause : (parseFrame bytes).dst ≠ 0x0180C2000001 := by omega
  have notLocal : ¬ (0x0180C2000000 ≤ (parseFrame bytes).dst ∧ (parseFrame bytes).dst ≤ 0x0180C200000F) := by omega
  rw [State.judgeFrame_sound sound, State.sortFrame, if_neg fun h => pause h.1, if_neg fun h => ethertype h.1,
    if_neg fun h => h.elim notLocal other]
  rfl

end
end

/-! ## The bridge and the endpoint -/

/-- An operation of the bridge: it changes the network part alone, and neither the frames handed on nor the ingress buffer nor
its gate. -/
structure Bridged (s t : State) : Prop where
  only : Only [.net] s t
  inbox : t.net.inbox = s.net.inbox
  level : t.net.level = s.net.level
  gateOpen : t.net.gateOpen = s.net.gateOpen

theorem Bridged.refl (s : State) : Bridged s s := ⟨.refl .., rfl, rfl, rfl⟩

theorem Bridged.trans {s t u : State} (h : Bridged s t) (k : Bridged t u) : Bridged s u :=
  ⟨h.only.trans k.only, k.inbox.trans h.inbox, k.level.trans h.level, k.gateOpen.trans h.gateOpen⟩

theorem Bridged.mode {s t : State} (h : Bridged s t) : t.mode = s.mode := h.only.same .mode rfl

theorem Bridged.cfg {s t : State} (h : Bridged s t) : t.cfg = s.cfg := h.only.same .cfg rfl

theorem Bridged.ite {c : Prop} [Decidable c] {s t u : State} (h : Bridged s t) (k : Bridged s u) :
    Bridged s (if c then t else u) := by
  split
  · exact h
  · exact k

section
variable (s : State) (q : Port)

theorem State.bump_bridged (k : PortCounter) : Bridged s (s.bump q k) := ⟨State.bump_only .., rfl, rfl, rfl⟩

theorem State.count_bridged (k : DevCounter) (n : Nat) : Bridged s (s.count k n) := ⟨State.count_only .., rfl, rfl, rfl⟩

theorem State.modPort_bridged (f : PortState → PortState) : Bridged s (s.modPort q f) := ⟨State.modPort_only .., rfl, rfl, rfl⟩

theorem State.learn_bridged (mac : Nat) : Bridged s (s.learn q mac) := by
  have put : ∀ (t : State) (l : List LearnEntry), Bridged t (t.modNet fun n => { n with learn := l }) :=
    fun t _ => ⟨State.modNet_only .., rfl, rfl, rfl⟩
  unfold State.learn
  refine .ite (.refl s) ?_
  split
  · exact .trans (.ite (.refl s) (s.count_bridged ..)) (put ..)
  · exact .ite (s.count_bridged ..) (put ..)

theorem State.learn_off (off : s.bridgeCfg.learn = 0) (mac : Nat) : s.learn q mac = s := by
  simp [State.learn, off]

theorem State.forward_bridged (f : Frame) (bytes : Bytes) : Bridged s (s.forward q f bytes) := by
  unfold State.forward
  exact .ite (.refl s) (.ite (s.bump_bridged ..) (.ite (s.bump_bridged ..) (s.modPort_bridged ..)))

theorem State.pauseWhilePaused_bridged : Bridged s (s.pauseWhilePaused q) := by
  unfold State.pauseWhilePaused
  exact .ite (s.modPort_bridged ..) (.refl s)

theorem State.pauseWhilePaused_counters : (s.pauseWhilePaused q).net.counters = s.net.counters := by
  unfold State.pauseWhilePaused
  extract_lets
  split <;> rfl

end

theorem State.storeFrame_level (q : Port) (occ : Nat) (s : State) : (s.storeFrame q occ).net.level = s.net.level + occ := by
  unfold State.storeFrame
  extract_lets level counted crossed
  split
  · split <;> rfl
  · rfl

theorem State.activity_bridged (s : State) : Bridged s s.activity :=
  .ite ⟨State.modNet_only .., rfl, rfl, rfl⟩ (.refl s)

/-- A frame for the endpoint taken into the ingress buffer. -/
def State.intake (q : Port) (occ : Nat) (s : State) : State :=
  (((s.pauseWhilePaused q).count .epRxAccepted 1).storeFrame q occ).activity

theorem State.intake_only (q : Port) (occ : Nat) (s : State) : Only [.net] s (s.intake q occ) :=
  .trans (((s.pauseWhilePaused_bridged q).trans (State.count_bridged ..)).only.trans (State.storeFrame_only ..))
    (State.activity_bridged _).only

theorem State.intake_level (q : Port) (occ : Nat) (s : State) : (s.intake q occ).net.level = s.net.level + occ := by
  have before := (s.pauseWhilePaused_bridged q).trans (State.count_bridged _ .epRxAccepted 1)
  rw [State.intake, (State.activity_bridged _).level, State.storeFrame_level, before.level]

/-- In a serving state the gate passes what comes while it is open, and nothing else. -/
theorem State.gatePasses_of_serving {s : State} (serving : s.mode.serving = true) (q : Port) (f : Frame) :
    s.gatePasses q f = s.net.gateOpen := by
  unfold State.gatePasses
  split
  · next asleep => cases serving.symm.trans (congrArg Mode.serving asleep)
  · split
    · next rescue => cases serving.symm.trans (congrArg Mode.serving rescue)
    · rfl

section
variable {s : State} {q : Port} {f : Frame}

theorem State.endpoint_of_gate_shut (serving : s.mode.serving = true) (shut : s.net.gateOpen = false) (stamp : Nat) :
    s.endpoint q f stamp = (s.pauseWhilePaused q).count .epNotReady 1 := by
  have paused := s.pauseWhilePaused_bridged q
  have refused : (s.pauseWhilePaused q).gatePasses q f = false := by
    rw [State.gatePasses_of_serving (paused.mode ▸ serving), paused.gateOpen, shut]
  simp [State.endpoint, refused]

/-- An ARP frame that the gate passes and the ingress buffer has room for is stored and handed to its row. -/
theorem State.endpoint_arp (serving : s.mode.serving = true) (gate : s.net.gateOpen = true) (arp : f.ethertype = 0x0806)
    (ly3 : s.cfg.inUse.protocol.ly3Ethertype ≠ 0x0806) (room : s.net.level + occupancyOf f.length f.tagged ≤ 196608) (stamp : Nat) :
    s.endpoint q f stamp = (s.intake q (occupancyOf f.length f.tagged)).handOn .arp
      ((s.intake q (occupancyOf f.length f.tagged)).receipt q f stamp) f.payload (occupancyOf f.length f.tagged) := by
  have paused := s.pauseWhilePaused_bridged q
  have passed : (s.pauseWhilePaused q).gatePasses q f = true := by
    rw [State.gatePasses_of_serving (paused.mode ▸ serving), paused.gateOpen, gate]
  simp [State.endpoint, passed, paused.level, paused.cfg, arp, ly3.symm, Nat.not_lt.mpr room, State.intake, State.receipt]

/-- The endpoint address in use stays, whatever the bridge does. -/
theorem Bridged.macInUse {s t : State} (h : Bridged s t) : t.macInUse = s.macInUse := by
  have fused : t.fused = s.fused := h.only.same .fused rfl
  rw [State.macInUse, h.cfg, h.mode, fused, State.macInUse]

theorem State.bridgeFrame_own (own : f.dst = s.macInUse.toNat) (stamp : Nat) (bytes : Bytes) :
    s.bridgeFrame q f stamp bytes = (s.learn q f.src).endpoint q f stamp := by
  rw [← (s.learn_bridged q f.src).macInUse] at own
  exact if_pos own

theorem State.bridgeFrame_broadcast (broadcast : f.dst = broadcastMac.toNat) (other : broadcastMac ≠ s.macInUse) (stamp : Nat)
    (bytes : Bytes) : s.bridgeFrame q f stamp bytes = ((s.learn q f.src).forward q f bytes).endpoint q f stamp := by
  have notOwn : f.dst ≠ (s.learn q f.src).macInUse.toNat := by
    rw [(s.learn_bridged q f.src).macInUse, broadcast]
    exact fun eq => other (BitVec.eq_of_toNat_eq eq)
  exact (if_neg notOwn).trans (if_pos (.inl broadcast))

end

/-! ## FRAME_RECEIVED -/

section
variable {s : State} {q : Port} {pkt : MPacket} {err : RxError} {bytes : Bytes}

/-- A packet that the port discards under a counter takes its time on the wire and changes nothing else. -/
theorem exec_frameReceived_of_discard {k : PortCounter}
    (row : s.frameReceived q pkt err bytes = (s.onWire q bytes.length).bump q k) :
    ∃ t, exec (.frameReceived q ⟨pkt, err⟩ bytes) s = .next t ∧ t.elapsed = s.endsAt q bytes.length ∧
      t.net = { s.net with
        port := s.net.port.modify q fun p => { p with rxEnd := s.endsAt q bytes.length }
        counters := s.net.counters.bumpPort q k } ∧ Only [.clock, .net, .outputs] s t :=
  ⟨_, congrArg State.done row, rfl, rfl,
    (State.settle_only _).into rfl ((State.bump_only ..).into rfl ((State.onWire_only ..).mono rfl))⟩

theorem State.dropPart_onWire_only (q : Port) (length : Nat) (s : State) : Only [.clock, .net] s ((s.onWire q length).dropPart q) :=
  (State.modPort_only ..).into rfl ((State.onWire_only ..).mono rfl)

theorem State.dropPart_onWire_net (q : Port) (length : Nat) (s : State) : ((s.onWire q length).dropPart q).net =
    { s.net with port := s.net.port.modify q fun p => { p with rxEnd := s.endsAt q length, rxPart := none } } := by
  rw [State.dropPart, State.modPort_net, State.onWire_net, PerPort.modify_modify]

/-- A fragment discarded at row 1 takes what was kept of its frame with it. -/
theorem exec_frameReceived_of_lost
    (row : s.frameReceived q pkt err bytes = ((s.onWire q bytes.length).dropPart q).bump q .rxFragErr) :
    ∃ t, exec (.frameReceived q ⟨pkt, err⟩ bytes) s = .next t ∧ t.elapsed = s.endsAt q bytes.length ∧
      t.net = { s.net with
        port := s.net.port.modify q fun p => { p with rxEnd := s.endsAt q bytes.length, rxPart := none }
        counters := s.net.counters.bumpPort q .rxFragErr } ∧ Only [.clock, .net, .outputs] s t := by
  refine ⟨_, congrArg State.done row, rfl, ?_,
    (State.settle_only _).into rfl ((State.bump_only ..).into rfl ((State.dropPart_onWire_only ..).mono rfl))⟩
  exact congrArg (fun n : NetState => { n with counters := n.counters.bumpPort q .rxFragErr }) (s.dropPart_onWire_net q bytes.length)

theorem Frame.Sound.onWire {f : Frame} (h : f.Sound q s) (length : Nat) : f.Sound q (s.onWire q length) :=
  ⟨h.long, h.fits, h.fcs, h.single, h.nonzero, h.foreign, h.vlan⟩

/-- A first fragment that ends in its mCRC is kept, where none was kept before. -/
theorem State.frameReceived_first (up : (s.portOf q).up = true) (active : (s.portOf q).preempt = .active) (sound : err ≠ .fragment)
    (empty : (s.portOf q).rxPart = none) (mcrc : bytes.drop (bytes.length - 4) = mcrcOf (bytes.take (bytes.length - 4))) (n : Nat) :
    s.frameReceived q (.first n) err bytes = (s.onWire q bytes.length).modPort q fun p => { p with
      rxPart := some ⟨n, 0, bytes.take (bytes.length - 4), s.begunAt q bytes.length, decide (err = .symbol)⟩ } := by
  rw [State.frameReceived_joined up active sound (.inl ⟨n, rfl, empty⟩), joinPacket_first mcrc]
  rfl

theorem State.frameReceived_stray {n k : Nat} (up : (s.portOf q).up = true) (active : (s.portOf q).preempt = .active)
    (sound : err ≠ .fragment) (stray : (s.portOf q).rxPart = none ∨ ∃ p, (s.portOf q).rxPart = some p ∧ (n ≠ p.frame ∨ k ≠ p.next)) :
    s.frameReceived q (.continuation n k) err bytes = ((s.onWire q bytes.length).dropPart q).bump q .rxFragErr := by
  rw [State.frameReceived_joined up active sound (.inr ⟨n, k, rfl⟩), joinPacket_stray stray]
  rfl

/-- A continuation that is awaited and ends in the FCS completes its frame. -/
theorem State.frameReceived_last {p : RxPart} (up : (s.portOf q).up = true) (active : (s.portOf q).preempt = .active)
    (sound : err ≠ .fragment) (part : (s.portOf q).rxPart = some p) (long : 4 ≤ bytes.length)
    (fcs : bytes.drop (bytes.length - 4) ≠ mcrcOf (p.bytes ++ bytes.take (bytes.length - 4))) :
    s.frameReceived q (.continuation p.frame p.next) err bytes = ((s.onWire q bytes.length).dropPart q).judgeFrame q
      (p.bad || decide (err = .symbol)) p.begun (p.bytes ++ bytes) := by
  rw [State.frameReceived_joined up active sound (.inr ⟨_, _, rfl⟩), part, joinPacket_last long fcs]
  rfl

/-- A whole frame without an error on the line is judged as it ends. -/
theorem State.frameReceived_sound (up : (s.portOf q).up = true) : s.frameReceived q .whole .none bytes =
    (s.onWire q bytes.length).judgeFrame q false (s.begunAt q bytes.length) bytes :=
  State.frameReceived_whole up nofun

/-- A frame counted as received. -/
def State.accepted (q : Port) (length : Nat) (s : State) : State := (s.onWire q length).bump q .rxFramesOk

theorem State.accepted_only (q : Port) (length : Nat) (s : State) : Only [.clock, .net] s (s.accepted q length) :=
  (State.bump_only ..).into rfl ((State.onWire_only ..).mono rfl)

/-- What follows in the network part alone leaves every other part as FRAME_RECEIVED found it. -/
theorem State.accepted_settle_only {length : Nat} {u : State} (h : Only [.net] (s.accepted q length) u) :
    Only [.clock, .net, .outputs] s u.settle :=
  (State.settle_only u).into rfl (h.into rfl ((s.accepted_only q length).mono rfl))

section
variable (up : (s.portOf q).up = true) (sound : (parseFrame bytes).Sound q s)
include up sound

/-- A sound pause frame is handed on to its row. -/
theorem State.frameReceived_pause (dst : (parseFrame bytes).dst = 0x0180C2000001) (ethertype : (parseFrame bytes).ethertype = 0x8808)
    (opcode : fieldAt 0 2 (parseFrame bytes).payload = 1) : s.frameReceived q .whole .none bytes =
      ((s.accepted q bytes.length).bump q .rxPause).handOn .pause ((s.onWire q bytes.length).receipt q (parseFrame bytes)
        (s.time.stampAt (s.begunAt q bytes.length))) (parseFrame bytes).payload 0 :=
  (State.frameReceived_sound up).trans (State.judgeFrame_pause (sound.onWire _) dst ethertype opcode)

theorem State.frameReceived_bridge (remote : (parseFrame bytes).dst < 0x0180C2000000 ∨ 0x0180C200000F < (parseFrame bytes).dst)
    (other : (parseFrame bytes).dst ≠ (s.fused.macPort q).toNat) (ethertype : (parseFrame bytes).ethertype ≠ 0x88F7) :
    s.frameReceived q .whole .none bytes =
      (s.accepted q bytes.length).bridgeFrame q (parseFrame bytes) (s.time.stampAt (s.begunAt q bytes.length)) bytes :=
  (State.frameReceived_sound up).trans (State.judgeFrame_bridge (sound.onWire _) remote other ethertype)

/-- A sound frame to the endpoint address while the gate is closed, in a serving drive (R99, R162). -/
theorem State.frameReceived_gate_shut (own : (parseFrame bytes).dst = s.macInUse.toNat)
    (remote : (parseFrame bytes).dst < 0x0180C2000000 ∨ 0x0180C200000F < (parseFrame bytes).dst)
    (other : (parseFrame bytes).dst ≠ (s.fused.macPort q).toNat) (ethertype : (parseFrame bytes).ethertype ≠ 0x88F7)
    (serving : s.mode.serving = true) (shut : s.net.gateOpen = false) : s.frameReceived q .whole .none bytes =
      (((s.accepted q bytes.length).learn q (parseFrame bytes).src).pauseWhilePaused q).count .epNotReady 1 := by
  have learned := (s.accepted q bytes.length).learn_bridged q (parseFrame bytes).src
  rw [State.frameReceived_bridge up sound remote other ethertype, State.bridgeFrame_own (s := s.accepted q bytes.length) own]
  exact State.endpoint_of_gate_shut ((congrArg Mode.serving learned.mode).trans serving) (learned.gateOpen.trans shut) _

/-- A sound broadcast ARP frame that finds the gate open and room in the ingress buffer. -/
theorem State.frameReceived_arp (broadcast : (parseFrame bytes).dst = broadcastMac.toNat) (notOwn : broadcastMac ≠ s.macInUse)
    (notPort : broadcastMac ≠ s.fused.macPort q) (arp : (parseFrame bytes).ethertype = 0x0806)
    (ly3 : s.cfg.inUse.protocol.ly3Ethertype ≠ 0x0806) (serving : s.mode.serving = true) (gate : s.net.gateOpen = true)
    (room : s.net.level + occupancyOf bytes.length (parseFrame bytes).tagged ≤ 196608) :
    ∃ u : State, Bridged (s.accepted q bytes.length) u ∧ s.frameReceived q .whole .none bytes =
      (u.intake q (occupancyOf bytes.length (parseFrame bytes).tagged)).handOn .arp
        ((u.intake q (occupancyOf bytes.length (parseFrame bytes).tagged)).receipt q (parseFrame bytes)
          (s.time.stampAt (s.begunAt q bytes.length)))
        (parseFrame bytes).payload (occupancyOf bytes.length (parseFrame bytes).tagged) := by
  have group : broadcastMac.toNat = 0xFFFFFFFFFFFF := rfl
  have remote : 0x0180C200000F < (parseFrame bytes).dst := by rw [broadcast, group]; decide
  have other : (parseFrame bytes).dst ≠ (s.fused.macPort q).toNat := fun eq =>
    notPort (BitVec.eq_of_toNat_eq (broadcast.symm.trans eq))
  have bridged := ((s.accepted q bytes.length).learn_bridged q (parseFrame bytes).src).trans
    (State.forward_bridged _ q (parseFrame bytes) bytes)
  refine ⟨_, bridged, ?_⟩
  rw [State.frameReceived_bridge up sound (.inr remote) other (by simp [arp]),
    State.bridgeFrame_broadcast (s := s.accepted q bytes.length) broadcast notOwn]
  exact State.endpoint_arp ((congrArg Mode.serving bridged.mode).trans serving) (bridged.gateOpen.trans gate) arp
    (by rw [bridged.cfg]; exact ly3) (by rw [bridged.level]; exact room) _

end

/-- With learning off, a frame that finds the gate closed moves two counters alone. -/
theorem State.gate_shut_counters (off : s.bridgeCfg.learn = 0) (src : Nat) :
    ((((s.accepted q bytes.length).learn q src).pauseWhilePaused q).count .epNotReady 1).net.counters =
      (s.net.counters.bumpPort q .rxFramesOk).addDev .epNotReady 1 := by
  rw [State.count, State.modNet_net, State.pauseWhilePaused_counters, State.learn_off (s.accepted q bytes.length) q off]
  rfl

end

/-- Settles O46: a packet is `dropPart`, `takeJoined` or `judgeFrame`, and a sound frame goes to its row or to the bridge. -/
theorem frameReception : Obligations.FrameReception := by
  unfold Obligations.FrameReception
  refine ⟨fun s q pkt err bytes => ⟨fun down => ?_, fun up fragment => ?_⟩, fun s q err bytes up => ?_⟩
  · exact ⟨_, congrArg State.done (State.frameReceived_of_down down), State.settle_only s⟩
  · intro at_ body kept lost
    refine ⟨fun bad => exec_frameReceived_of_lost (State.frameReceived_fragErr up fragment bad), fun active sound =>
      ⟨?first, ?stray, ?last⟩⟩
    case first =>
      rintro n rfl empty mcrc
      refine ⟨_, congrArg State.done (State.frameReceived_first up active sound empty mcrc n), rfl, ?_,
        (State.settle_only _).into rfl ((State.modPort_only ..).into rfl ((State.onWire_only ..).mono rfl))⟩
      rw [State.settle_net, State.modPort_net, State.onWire_net, PerPort.modify_modify]
      rfl
    case stray =>
      rintro n k rfl stray
      exact exec_frameReceived_of_lost (State.frameReceived_stray up active sound stray)
    case last =>
      rintro n k p rfl part rfl rfl fcs long
      exact ⟨_, rfl, s.dropPart_onWire_net .., s.dropPart_onWire_only .., congrArg State.done
        (State.frameReceived_last up active sound part long fcs)⟩
  · intro f at_ most ends discarded sized sound
    have isSound : sound → err = .none ∧ f.Sound q s := fun ⟨⟨clean, long, fits⟩, fcs, single, nonzero, own, portA, portB, vlan⟩ =>
      ⟨clean, long, fits, fcs, single, nonzero, ⟨own, portA, portB⟩, vlan⟩
    refine ⟨?fragment, ?symbol, ?runt, ?oversize, ?fcs, ?source, fun h => ?pause, fun h => ?shut, fun h => ?arp⟩
    case fragment =>
      rintro rfl
      exact exec_frameReceived_of_discard (State.frameReceived_whole_fragErr up)
    case symbol =>
      rintro rfl
      exact exec_frameReceived_of_discard ((State.frameReceived_whole (err := .symbol) up nofun).trans State.judgeFrame_bad)
    case runt =>
      rintro rfl short
      exact exec_frameReceived_of_discard ((State.frameReceived_sound up).trans (State.judgeFrame_runt short))
    case oversize =>
      rintro rfl long tooLong
      exact exec_frameReceived_of_discard ((State.frameReceived_sound up).trans (State.judgeFrame_oversize long tooLong))
    case fcs =>
      rintro ⟨rfl, long, fits⟩ wrong
      exact exec_frameReceived_of_discard ((State.frameReceived_sound up).trans (State.judgeFrame_fcs long fits wrong))
    case source =>
      rintro ⟨rfl, long, fits⟩ fcs source
      exact exec_frameReceived_of_discard ((State.frameReceived_sound up).trans (State.judgeFrame_source long fits fcs source))
    case pause =>
      obtain ⟨rfl, passes⟩ := isSound h
      intro dst ethertype opcode
      refine ⟨_, congrArg State.done (State.frameReceived_pause up passes dst ethertype opcode), rfl, rfl, rfl, ?_, ?_, ?_⟩
      · exact List.length_append
      · exact congrArg (Option.map _) List.getLast?_concat
      · exact State.accepted_settle_only ((State.bump_only ..).trans (State.handOn_only ..))
    case shut =>
      obtain ⟨rfl, passes⟩ := isSound h
      intro own remote ethertype other serving shut
      have bridged := (((s.accepted q bytes.length).learn_bridged q f.src).trans (State.pauseWhilePaused_bridged _ q)).trans
        (State.count_bridged _ .epNotReady 1)
      exact ⟨_, congrArg State.done (State.frameReceived_gate_shut up passes own remote other ethertype serving shut), bridged.inbox,
        bridged.level, fun off => State.gate_shut_counters off f.src,
        State.accepted_settle_only bridged.only⟩
    case arp =>
      obtain ⟨rfl, passes⟩ := isSound h
      intro broadcast notOwn notPort arp ly3 serving gate room
      obtain ⟨u, bridged, row⟩ := State.frameReceived_arp up passes broadcast notOwn notPort arp ly3 serving gate room
      refine ⟨_, congrArg State.done row, (u.intake_level ..).trans (congrArg (· + _) bridged.level), ?_, ?_⟩
      · exact congrArg (Option.map _) List.getLast?_concat
      · exact State.accepted_settle_only ((bridged.only.trans (State.intake_only ..)).trans (State.handOn_only ..))

end Sys2Proof.Machine

/-!
SUPPORT. Gates and credit: one port of two, the next gate entry, and one bit time of a shaper.
-/
namespace Sys2Proof.Machine

/-! ## One port of two -/

section
variable {α : Type} (p : PerPort α) (q : Port) {f g : α → α}

@[simp] theorem PerPort.get_modify_other : (p.modify q f).get q.other = p.get q.other := by
  cases q <;> rfl

theorem PerPort.modify_congr (h : f (p.get q) = g (p.get q)) : p.modify q f = p.modify q g := by
  cases q <;> simp_all [PerPort.modify, PerPort.get]

end

section
variable (q : Port) (f : PortState → PortState) (s : State)

@[simp] theorem State.settle_portOf : s.settle.portOf q = s.portOf q := rfl

@[simp] theorem State.modPort_portOf : (s.modPort q f).portOf q = f (s.portOf q) := PerPort.get_modify ..

@[simp] theorem State.modPort_portOf_other : (s.modPort q f).portOf q.other = s.portOf q.other := PerPort.get_modify_other ..

end

/-! ## Shapers (R195) -/

section
variable (cls : Nat) {f g : Shaper → Shaper} (p : PortState)

theorem PortState.shaper_modShaper : (p.modShaper cls f).shaper cls = f (p.shaper cls) := by
  by_cases h : cls = 5 <;> simp [PortState.modShaper, PortState.shaper, h]

theorem PortState.modShaper_congr (h : f (p.shaper cls) = g (p.shaper cls)) : p.modShaper cls f = p.modShaper cls g := by
  by_cases five : cls = 5 <;> simp_all [PortState.modShaper, PortState.shaper]

end

section
variable {s : State} {q : Port} {cls : Nat}

theorem Shaper.bitTime_sending (r : Nat) (waiting : Bool) {c : Shaper} (slope : c.idle ≠ 0) :
    c.bitTime r true true waiting = { c with cs := max (min (c.cs + c.idle - r) c.hi) c.lo } := by
  simp [Shaper.bitTime, slope]

/-- A credit above its lower bound falls while the class transmits at a rate above its idle slope. -/
theorem Shaper.bitTime_sending_lt {r : Nat} (waiting : Bool) {c : Shaper} (slope : c.idle ≠ 0) (slow : c.idle < r)
    (above : c.lo < c.cs) : (c.bitTime r true true waiting).cs < c.cs := by
  rw [Shaper.bitTime_sending r waiting slope]
  have falls : c.cs + c.idle - r < c.cs := by omega
  exact Int.max_lt.mpr ⟨Int.lt_of_le_of_lt (Int.min_le_left ..) falls, above⟩

/-- The credit alone changes, and only where the class has a slope and its gate is open. -/
theorem Shaper.bitTime_eq (r : Nat) (gateOpen sending waiting : Bool) (c : Shaper) : c.bitTime r gateOpen sending waiting =
    { c with cs := if c.idle = 0 ∨ gateOpen = false then c.cs else max (min (if sending = true then c.cs + c.idle - r
      else if waiting = true then c.cs + c.idle else if c.cs < 0 then min 0 (c.cs + c.idle) else 0) c.hi) c.lo } := by
  simp only [Shaper.bitTime, Bool.not_eq_eq_eq_not, Bool.not_true]
  by_cases rest : c.idle = 0 ∨ gateOpen = false
  · simp only [if_pos rest]
  · simp only [if_neg rest]

/-- A frame of a class is on the wire of a port. -/
def PortState.sends (cls : Nat) (p : PortState) : Bool :=
  match p.onWire with
  | some w => decide (w.cls = some cls)
  | none => false

theorem State.creditBit_of_shaped (shaped : s.shaped q cls = true) (up : (s.portOf q).up = true) :
    s.creditBit q cls = s.modPort q fun p =>
      p.modShaper cls (Shaper.bitTime (rateKbps p.speed) (bit p.gate.gates cls) (p.sends cls) (p.waits cls)) :=
  if_pos ⟨shaped, up⟩

theorem State.creditBit_shaper (shaped : s.shaped q cls = true) (up : (s.portOf q).up = true) :
    ((s.creditBit q cls).portOf q).shaper cls = ((s.portOf q).shaper cls).bitTime (rateKbps (s.portOf q).speed)
      (bit (s.portOf q).gate.gates cls) ((s.portOf q).sends cls) ((s.portOf q).waits cls) := by
  rw [State.creditBit_of_shaped shaped up, State.modPort_portOf, PortState.shaper_modShaper]

theorem State.gateStart_of_inUse (inUse : s.listInUse q = true) :
    s.gateStart q = (s.waitTime (s.portOf q).gate.entryEnd).modPort q fun p =>
      { p with gate := p.gate.next (s.cfg.inUse.gates.get q) (decide (p.preempt = .active)) } :=
  if_pos inUse

end

/-- Settles O33: the entry under way is waited for, and a bit time of credit is `Shaper.bitTime` of the class's shaper alone. -/
theorem gatesAndCredit : Obligations.GatesAndCredit := by
  unfold Obligations.GatesAndCredit
  refine fun s q => ⟨fun inUse => ?entry, fun cls shaped up => ?credit⟩
  case entry =>
    have row := congrArg State.done (State.gateStart_of_inUse inUse)
    exact ⟨_, row, Nat.le_add_right .., rfl, exec_only (c := .gateEntryStart q) row⟩
  case credit =>
    have row := congrArg State.done (State.creditBit_of_shaped shaped up)
    refine ⟨_, row, ?_, exec_only (c := .creditPerBitTime q cls) row⟩
    refine congrArg (fun p => { s.net with port := p }) (PerPort.modify_congr _ _ ?_)
    exact PortState.modShaper_congr cls (s.portOf q) (Shaper.bitTime_eq ..)

/-! ## First answers (R198) -/

section
variable (s : State) (q : Port) (a b : Shaper)

theorem State.eligible_first_of_shapers (cls length : Nat) :
    (s.modPort q fun p => { p with shaper5 := a, shaper6 := b }).eligible q cls length true true =
      s.eligible q cls length true true := by
  cases q <;> rfl

theorem State.pickFirst_of_shapers : (s.modPort q fun p => { p with shaper5 := a, shaper6 := b }).pickFirst q = s.pickFirst q := by
  simp only [State.pickFirst, State.modPort_portOf, State.eligible_first_of_shapers]

end

/-- Settles O34: an entry marked as first answer is eligible whatever the shapers hold, and on the wire it is sending. -/
theorem firstAnswersPassShapers : Obligations.FirstAnswersPassShapers := by
  unfold Obligations.FirstAnswersPassShapers
  refine ⟨State.pickFirst_of_shapers, fun s q e up wire _ shaped gate slope => ?_⟩
  have sends : (s.portOf q).sends e.cls = true := by simp [PortState.sends, wire, OnWire.cls]
  have shaper := State.creditBit_shaper shaped up
  rw [gate, sends] at shaper
  refine ⟨_, rfl, ⟨?_, fun slow above _ => ?_⟩, exec_only (c := .creditPerBitTime q e.cls) rfl⟩
  · exact congrArg Shaper.cs (shaper.trans (Shaper.bitTime_sending _ _ slope))
  · exact Int.lt_of_le_of_lt (Int.le_of_eq (congrArg Shaper.cs shaper)) (Shaper.bitTime_sending_lt _ slope slow above)

end Sys2Proof.Machine

/-!
SUPPORT. 1PPS: how time passes up to a value of the drive's time, and the edges of output and input.
-/
namespace Sys2Proof.Machine

/-! ## Instants of the drive's time -/

/-- An operation that touches neither the time base nor the clock leaves the drive's time. -/
theorem Only.timeNs {l : List Area} {s t : State} (h : Only l s t) (ht : l.contains .time = false) (hc : l.contains .clock = false) :
    t.timeNs = s.timeNs := by
  have time : t.time = s.time := h.same .time ht
  have clock : t.elapsed = s.elapsed := h.same .clock hc
  rw [State.timeNs, time, clock, State.timeNs]

section
variable {s : State} {ns : Nat}

theorem TimeState.at_nominal {t : TimeState} (running : t.running = true) (nominal : t.ratePpb = 0) (elapsed : Nat) :
    t.at elapsed = t.anchorNs + (elapsed - t.anchorAt) := by
  simp [TimeState.at, running, nominal]

theorem State.waitTime_elapsed_nominal (nominal : s.time.ratePpb = 0) : (s.waitTime ns).elapsed = s.elapsed + (ns - s.timeNs) := by
  have whole (d : Nat) : ((d : Int) * 1000000000 + 1000000000 - 1) / 1000000000 = d := by omega
  simp only [State.waitTime, nominal, Int.add_zero, whole, Int.toNat_natCast]

/-- At its nominal rate the time base shows the value that was waited for. -/
theorem State.waitTime_timeNs (running : s.time.running = true) (nominal : s.time.ratePpb = 0) (anchored : s.time.anchorAt ≤ s.elapsed)
    (ahead : s.timeNs ≤ ns) : (s.waitTime ns).timeNs = ns := by
  have now : s.timeNs = s.time.anchorNs + (s.elapsed - s.time.anchorAt) := TimeState.at_nominal running nominal _
  have shown : (s.waitTime ns).timeNs = s.time.anchorNs + ((s.waitTime ns).elapsed - s.time.anchorAt) :=
    TimeState.at_nominal running nominal _
  rw [State.waitTime_elapsed_nominal nominal] at shown
  omega

/-- At a rate within its bounds a second of the drive's time lasts more than 500 ms. -/
theorem State.waitTime_elapsed_of_second (slow : -500000 ≤ s.time.ratePpb) (fast : s.time.ratePpb ≤ 500000)
    (second : s.timeNs + 1000000000 ≤ ns) : s.elapsed + ms 500 ≤ (s.waitTime ns).elapsed := by
  have pace : (0 : Int) < 1000000000 + s.time.ratePpb := by omega
  have lasts : (500000000 : Int) ≤ (((ns - s.timeNs : Nat) : Int) * 1000000000 + (1000000000 + s.time.ratePpb) - 1) /
      (1000000000 + s.time.ratePpb) := (Int.le_ediv_iff_mul_le pace).mpr (by omega)
  change s.elapsed + 500 * 1000000 ≤ s.elapsed + Int.toNat _
  omega

end

/-! ## The output (R186) -/

/-- The second boundary at or after the drive's time. -/
def State.nextSecond (s : State) : Nat := (s.timeNs + 999999999) / 1000000000 * 1000000000

/-- The next second boundary comes less than 500 ms after the last rising edge. -/
def State.secondEarly (s : State) : Bool :=
  match s.time.ppsRise with
  | some r => decide ((s.waitTime s.nextSecond).elapsed < r + ms 500)
  | none => false

/-- The second boundary of the next rising edge. -/
def State.edgeSecond (s : State) : Nat := if s.secondEarly = true then s.nextSecond + 1000000000 else s.nextSecond

/-- The output raised. -/
def State.raisePps (s : State) : State := s.modTime fun t => { t with ppsRise := some s.elapsed, ppsHigh := true }

theorem State.edgeSecond_ahead (s : State) : s.timeNs ≤ s.edgeSecond ∧ s.edgeSecond % 1000000000 = 0 := by
  unfold State.edgeSecond State.nextSecond
  split <;> omega

section
variable {s : State}

theorem State.ppsOut_of_running (running : s.time.running = true) (off : s.mode ≠ .off) (dusk : s.mode ≠ .dusk) :
    s.ppsOut = (s.waitTime s.edgeSecond).raisePps := by
  have row : s.ppsOut = (if s.secondEarly = true then s.waitTime (s.nextSecond + 1000000000) else s.waitTime s.nextSecond).raisePps :=
    if_neg (by simp [running, off, dusk])
  rw [row, State.edgeSecond, apply_ite fun ns => s.waitTime ns]

/-- The next rising edge lies at least 500 ms after the last. -/
theorem State.edgeSecond_late {r : Nat} (slow : -500000 ≤ s.time.ratePpb) (fast : s.time.ratePpb ≤ 500000)
    (last : s.time.ppsRise = some r) (past : r ≤ s.elapsed) : r + ms 500 ≤ (s.waitTime s.edgeSecond).elapsed := by
  unfold State.edgeSecond
  split
  · have second : s.timeNs + 1000000000 ≤ s.nextSecond + 1000000000 := by unfold State.nextSecond; omega
    exact Nat.le_trans (Nat.add_le_add_right past _) (State.waitTime_elapsed_of_second slow fast second)
  · next early => simpa [State.secondEarly, last] using early

theorem State.ppsFall_of_high {r : Nat} (high : s.time.ppsHigh = true) (rise : s.time.ppsRise = some r) :
    s.ppsFall = (s.waitUntil (r + ms 100)).modTime fun t => { t with ppsHigh := false } := by
  simp [State.ppsFall, high, rise]

/-! ## The input (R187) -/

theorem State.ppsEdge_short {low high : Nat} (running : s.time.running = true) (used : s.ppsMode ≠ 0) (short : low < 1000 ∨ high < 1000) :
    s.ppsEdge low high = s.count .ppsInRejected 1 := by
  simp [State.ppsEdge, running, used, short]

theorem State.ppsEdge_stamped {low high : Nat} (running : s.time.running = true) (used : s.ppsMode = 1) (hlow : 1000 ≤ low)
    (hhigh : 1000 ≤ high) : s.ppsEdge low high =
      (s.modTime fun t => { t with ppsIn := (s.timeNs :: t.ppsIn).take 8 }).waitUntil (s.elapsed + 1000) := by
  simp [State.ppsEdge, running, used, Nat.not_lt.mpr hlow, Nat.not_lt.mpr hhigh]

theorem State.ppsEdge_unused {low high : Nat} (unused : s.ppsMode = 0) : s.ppsEdge low high = s := by
  simp [State.ppsEdge, unused]

end

/-- Settles O39: the output rises at `edgeSecond`, and an edge of the input is `ppsEdge_short`, `ppsEdge_stamped` or unused. -/
theorem ppsEdges : Obligations.PpsEdges := by
  unfold Obligations.PpsEdges
  refine fun s running => ⟨fun off dusk slow fast anchored => ?rise, fun r high rise => ?fall, fun low high used short => ?short,
    fun low high used hlow hhigh => ?stamped, fun low high unused => ?unused⟩
  case rise =>
    have row := congrArg State.done (State.ppsOut_of_running running off dusk)
    obtain ⟨ahead, boundary⟩ := s.edgeSecond_ahead
    refine ⟨_, row, rfl, fun nominal => ?_, fun r last past => State.edgeSecond_late slow fast last past,
      exec_only (c := .ppsOutEdge) row⟩
    have shows : (s.waitTime s.edgeSecond).timeNs = s.edgeSecond := State.waitTime_timeNs running nominal anchored ahead
    exact (congrArg (· % 1000000000) shows).trans boundary
  case fall =>
    have row := congrArg State.done (State.ppsFall_of_high high rise)
    exact ⟨_, row, rfl, rfl, exec_only (c := .ppsOutFallingEdge) row⟩
  case short =>
    exact ⟨_, congrArg State.done (State.ppsEdge_short running used short), rfl,
      (State.settle_only _).into rfl ((State.count_only ..).mono rfl)⟩
  case stamped =>
    exact ⟨_, congrArg State.done (State.ppsEdge_stamped running used hlow hhigh), rfl,
      (State.settle_only _).into rfl ((State.waitUntil_only ..).into rfl ((State.modTime_only ..).mono rfl))⟩
  case unused => exact ⟨_, congrArg State.done (State.ppsEdge_unused unused), State.settle_only s⟩

end Sys2Proof.Machine

/-!
SUPPORT. 802.1AS messages: what a port queues, the roles of the ports, the selection of the master, and what each timer sends or
forgets.
-/
namespace Sys2Proof.Machine

/-- A change of one port that leaves a figure leaves it on both. -/
theorem PerPort.modify_keeps {α β : Type} {f : α → α} {g : α → β} (p : PerPort α) (q : Port) (keeps : ∀ x, g (f x) = g x) (r : Port) :
    g ((p.modify q f).get r) = g (p.get r) := by
  cases q <;> cases r <;> simp [PerPort.modify, PerPort.get, keeps]

/-! ## Frames queued (R181) -/

/-- The logMessageInterval that the drive sends with a message. -/
def State.gptpInterval (m : GptpMsg) (s : State) : Int :=
  match m with
  | .sync .. | .followUp .. => s.timeCfg.logSyncInterval
  | .pdelayReq _ => s.timeCfg.logPdelayInterval
  | .announce _ => 0
  | .pdelayResp .. | .pdelayRespFollowUp .. | .signaling => 0x7F

/-- The frame in which a port sends a message. -/
def State.gptpFrame (q : Port) (m : GptpMsg) (relayed : Option Relay) (s : State) : GptpFrame :=
  ⟨s.timeCfg.domain, m, s.portId q, s.gptpInterval m, relayed⟩

section
variable {q : Port} {m : GptpMsg} {relayed : Option Relay} {s : State}

theorem State.sendGptp_of_up (up : (s.portOf q).up = true) : s.sendGptp q m relayed =
    s.modPort q fun p => { p with gptpQ := p.gptpQ ++ [s.gptpFrame q m relayed] } :=
  if_pos up

theorem State.sendGptp_of_down (down : (s.portOf q).up = false) : s.sendGptp q m relayed = s :=
  if_neg (by simp [down])

theorem State.sendGptp_gptpQ : ((s.sendGptp q m relayed).portOf q).gptpQ =
    (s.portOf q).gptpQ ++ if (s.portOf q).up = true then [s.gptpFrame q m relayed] else [] := by
  cases up : (s.portOf q).up
  · simp [State.sendGptp_of_down up]
  · simp [State.sendGptp_of_up up]

end

section
variable (q : Port) (m : GptpMsg) (relayed : Option Relay) (s : State)

@[simp] theorem State.sendGptp_time : (s.sendGptp q m relayed).time = s.time := (State.sendGptp_only ..).same .time rfl

@[simp] theorem State.sendGptp_portOf_other : (s.sendGptp q m relayed).portOf q.other = s.portOf q.other := by
  unfold State.sendGptp
  split
  · exact State.modPort_portOf_other ..
  · rfl

@[simp] theorem State.sendGptp_inbox : (s.sendGptp q m relayed).net.inbox = s.net.inbox := by
  unfold State.sendGptp
  split <;> rfl

end

/-! ## What roles, identities and parameters depend on -/

/-- Two states in which the ports of the clock have the same roles: what roles and the drive's own announcement depend on. -/
structure SameClock (s t : State) : Prop where
  cfg : t.cfg = s.cfg
  fused : t.fused = s.fused
  configured : t.time.configured = s.time.configured
  lock : t.time.ppsLock = s.time.ppsLock
  slave : t.time.slave = s.time.slave
  capable : ∀ q, (t.time.port.get q).asCapable = (s.time.port.get q).asCapable
  announce : ∀ q, (t.time.port.get q).announce = (s.time.port.get q).announce
  sender : ∀ q, (t.time.port.get q).sender = (s.time.port.get q).sender

namespace SameClock
variable {s t u : State}

theorem trans (h : SameClock s t) (k : SameClock t u) : SameClock s u where
  cfg := k.cfg.trans h.cfg
  fused := k.fused.trans h.fused
  configured := k.configured.trans h.configured
  lock := k.lock.trans h.lock
  slave := k.slave.trans h.slave
  capable q := (k.capable q).trans (h.capable q)
  announce q := (k.announce q).trans (h.announce q)
  sender q := (k.sender q).trans (h.sender q)

theorem of_only {l : List Area} (k : Only l s t) (hc : l.contains .cfg = false) (hf : l.contains .fused = false)
    (ht : l.contains .time = false) : SameClock s t := by
  have time : t.time = s.time := k.same .time ht
  exact ⟨k.same .cfg hc, k.same .fused hf, by rw [time], by rw [time], by rw [time], fun q => by rw [time], fun q => by rw [time],
    fun q => by rw [time]⟩

theorem timeCfg (h : SameClock s t) : t.timeCfg = s.timeCfg := by rw [State.timeCfg, h.configured, h.cfg, State.timeCfg]

theorem clockId (h : SameClock s t) : t.clockId = s.clockId := by rw [State.clockId, h.fused, State.clockId]

theorem portId (h : SameClock s t) (q : Port) : t.portId q = s.portId q := by rw [State.portId, h.clockId, State.portId]

theorem gptpFrame (h : SameClock s t) (q : Port) (m : GptpMsg) (relayed : Option Relay) :
    t.gptpFrame q m relayed = s.gptpFrame q m relayed := by
  simp only [State.gptpFrame, State.gptpInterval, h.timeCfg, h.portId]

theorem ownAnnounce (h : SameClock s t) : t.ownAnnounce = s.ownAnnounce := by
  rw [State.ownAnnounce, h.timeCfg, h.clockId, h.lock, State.ownAnnounce]

theorem offer (h : SameClock s t) (q : Port) : (t.time.port.get q).offer = (s.time.port.get q).offer := by
  rw [GptpPort.offer, h.capable, h.announce, GptpPort.offer]

theorem toAnnounce (h : SameClock s t) : t.toAnnounce = s.toAnnounce := by
  simp only [State.toAnnounce, h.slave, h.ownAnnounce, h.clockId, h.offer]

theorem gptpRole (h : SameClock s t) (q : Port) : t.gptpRole q = s.gptpRole q := by
  simp only [State.gptpRole, h.slave, h.capable, h.announce, h.sender, h.toAnnounce, h.portId]

end SameClock

theorem State.sendGptp_sameClock (q : Port) (m : GptpMsg) (relayed : Option Relay) (s : State) :
    SameClock s (s.sendGptp q m relayed) := .of_only (State.sendGptp_only ..) rfl rfl rfl

theorem State.waitUntil_sameClock (n : Nat) (s : State) : SameClock s (s.waitUntil n) :=
  .of_only (State.waitUntil_only ..) rfl rfl rfl

/-! ## One message on each port -/

/-- One message queued on each port that meets a condition. -/
def State.sendWhere (c : Port → Prop) [DecidablePred c] (m : GptpMsg) (s : State) : State :=
  let a := if c .A then s.sendGptp .A m none else s
  if c .B then a.sendGptp .B m none else a

section
variable (c : Port → Prop) [DecidablePred c] (m : GptpMsg) (s : State)

theorem State.sendWhere_only : Only [.net] s (s.sendWhere c m) := by
  have a : Only [.net] s (if c .A then s.sendGptp .A m none else s) := .ite (State.sendGptp_only ..) (.refl ..)
  exact .ite (a.trans (State.sendGptp_only ..)) a

theorem State.sendWhere_gptpQ (q : Port) : ((s.sendWhere c m).portOf q).gptpQ =
    (s.portOf q).gptpQ ++ if c q ∧ (s.portOf q).up = true then [s.gptpFrame q m none] else [] := by
  have a : ∀ t : State, (t.sendGptp .A m none).portOf .B = t.portOf .B := State.sendGptp_portOf_other .A m none
  have b : ∀ t : State, (t.sendGptp .B m none).portOf .A = t.portOf .A := State.sendGptp_portOf_other .B m none
  have frame := (State.sendGptp_sameClock .A m none s).gptpFrame .B m none
  cases q <;> by_cases hA : c .A <;> by_cases hB : c .B <;> simp [State.sendWhere, hA, hB, a, b, frame, State.sendGptp_gptpQ]

end

/-! ## Synchronised state and best master (R181, R184) -/

section
variable (b : Bool) (s : State)

theorem State.setSynced_time : (s.setSynced b).time = { s.time with synced := b } := by
  unfold State.setSynced
  split
  · next same => rw [← same]
  · exact (State.event_only ..).same .time rfl

theorem State.setSynced_log {b : Bool} {s : State} (same : s.time.synced = b) : (s.setSynced b).log = s.log := by
  rw [State.setSynced, if_pos same]

end

/-- With nothing announced on either port, no clock is better than the drive. -/
theorem State.bestPort_of_silent {s : State} {q : Port} (here : (s.time.port.get q).announce = none)
    (there : (s.time.port.get q.other).announce = none) : s.bestPort = none := by
  have silent : (s.time.port.get .A).announce = none ∧ (s.time.port.get .B).announce = none := by
    cases q
    · exact ⟨here, there⟩
    · exact ⟨there, here⟩
  have quiet : ∀ p : GptpPort, p.announce = none → p.offerKey = none := fun p none => by
    simp [GptpPort.offerKey, GptpPort.offer, none]
  simp [State.bestPort, quiet _ silent.1, quiet _ silent.2]

/-- With no better clock the drive follows none, and is grandmaster where it may be. -/
theorem State.selectMaster_of_best {s : State} (running : s.time.running = true) (best : s.bestPort = none) :
    s.selectMaster.time.slave = none ∧ s.selectMaster.time.grandmaster = decide (s.timeCfg.gmCapable = 1) := by
  simp only [State.selectMaster, running, best, Option.isNone_none, Bool.true_and, Bool.not_true, Bool.false_eq_true, if_false]
  split
  · next stays => exact ⟨stays.1.symm, stays.2.symm⟩
  · rw [State.setSynced_time]
    exact ⟨rfl, rfl⟩

theorem State.selectMaster_ports (s : State) : s.selectMaster.time.port = s.time.port := by
  unfold State.selectMaster
  extract_lets best slave gm
  split
  · rfl
  · split
    · rfl
    · rw [State.setSynced_time]
      rfl

/-! ## Timers -/

section
variable {s : State} {q : Port}

theorem State.syncSend_of_grandmaster (running : s.time.running = true) (grandmaster : s.time.grandmaster = true) :
    s.syncSend = ((s.waitUntil s.time.syncDue).sendWhere (fun q => (s.time.port.get q).asCapable = true)
      (.sync s.time.syncSeq true 0 0 0)).modTime fun t =>
        { t with syncSeq := (s.time.syncSeq + 1) % 65536
                 syncDue := max s.elapsed s.time.syncDue + logNs s.timeCfg.logSyncInterval } := by
  by_cases hA : (s.time.port.get .A).asCapable = true <;> by_cases hB : (s.time.port.get .B).asCapable = true <;>
    simp [State.syncSend, running, grandmaster, State.sendWhere, hA, hB, (State.waitUntil_sameClock _ s).timeCfg]

theorem State.announceSend_of_running (running : s.time.running = true) :
    s.announceSend = ((s.waitUntil s.time.announceDue).sendWhere (fun q => s.gptpRole q = .master) (.announce s.toAnnounce)).modTime
      fun t => { t with announceDue := max s.elapsed s.time.announceDue + secs 1 } := by
  have wait := State.waitUntil_sameClock s.time.announceDue s
  have role (m : GptpMsg) (q : Port) : ((s.waitUntil s.time.announceDue).sendGptp .A m none).gptpRole q = s.gptpRole q :=
    (wait.trans (State.sendGptp_sameClock ..)).gptpRole q
  by_cases hA : s.gptpRole .A = .master <;> by_cases hB : s.gptpRole .B = .master <;>
    simp [State.announceSend, running, State.sendWhere, wait.gptpRole, wait.toAnnounce, role, hA, hB, logNs]

/-- The sequence number of a port's next peer-delay exchange. -/
def State.nextExchange (q : Port) (s : State) : Nat := ((s.time.port.get q).pdelaySeq + 1) % 65536

/-- A new peer-delay exchange of a port, without time-stamps. -/
def State.beginExchange (q : Port) (s : State) : State :=
  s.modGptp q fun p => { p with pdelaySeq := s.nextExchange q, t1 := none, t2 := none, t4 := none }

/-- A new peer-delay exchange begun on a port with link, and its request queued. -/
def State.askDelay (q : Port) (s : State) : State :=
  if s.time.running = true ∧ (s.portOf q).up = true then (s.beginExchange q).sendGptp q (.pdelayReq (s.nextExchange q)) none else s

theorem State.pdelayRequest_of_running (running : s.time.running = true) :
    s.pdelayRequest = (((s.waitUntil s.time.pdelayDue).askDelay .A).askDelay .B).modTime fun t =>
      { t with pdelayDue := max s.elapsed s.time.pdelayDue + logNs s.timeCfg.logPdelayInterval } := by
  rw [← (State.waitUntil_sameClock s.time.pdelayDue s).timeCfg]
  simp [State.pdelayRequest, running, State.when, State.askDelay, State.beginExchange, State.nextExchange]

/-- What PDELAY_REQUEST makes of one port: a request queued and a new exchange, or nothing where the link is down. -/
structure DelayAsked (q : Port) (s t : State) : Prop where
  queue : (s.portOf q).up = true → (t.portOf q).gptpQ = (s.portOf q).gptpQ ++
    [⟨s.timeCfg.domain, .pdelayReq (((s.time.port.get q).pdelaySeq + 1) % 65536), s.portId q, s.timeCfg.logPdelayInterval, none⟩]
  exchange : (s.portOf q).up = true → t.time.port.get q = { s.time.port.get q with
    pdelaySeq := ((s.time.port.get q).pdelaySeq + 1) % 65536, t1 := none, t2 := none, t4 := none }
  down : (s.portOf q).up = false → t.portOf q = s.portOf q ∧ t.time.port.get q = s.time.port.get q

theorem State.modGptp_sameClock {f : GptpPort → GptpPort} (capable : ∀ p, (f p).asCapable = p.asCapable)
    (announce : ∀ p, (f p).announce = p.announce) (sender : ∀ p, (f p).sender = p.sender) : SameClock s (s.modGptp q f) where
  cfg := rfl
  fused := rfl
  configured := rfl
  lock := rfl
  slave := rfl
  capable := PerPort.modify_keeps _ q capable
  announce := PerPort.modify_keeps _ q announce
  sender := PerPort.modify_keeps _ q sender

@[simp] theorem State.modGptp_get (f : GptpPort → GptpPort) : (s.modGptp q f).time.port.get q = f (s.time.port.get q) :=
  PerPort.get_modify ..

@[simp] theorem State.modGptp_get_other (f : GptpPort → GptpPort) :
    (s.modGptp q f).time.port.get q.other = s.time.port.get q.other :=
  PerPort.get_modify_other ..

@[simp] theorem State.modGptp_portOf (f : GptpPort → GptpPort) (r : Port) : (s.modGptp q f).portOf r = s.portOf r := rfl

theorem State.beginExchange_sameClock : SameClock s (s.beginExchange q) :=
  State.modGptp_sameClock (fun _ => rfl) (fun _ => rfl) fun _ => rfl

theorem State.askDelay_asked (running : s.time.running = true) : DelayAsked q s (s.askDelay q) := by
  refine ⟨fun up => ?_, fun up => ?_, fun down => ?_⟩
  · rw [State.askDelay, if_pos ⟨running, up⟩, State.sendGptp_gptpQ, State.beginExchange_sameClock.gptpFrame]
    exact congrArg _ (if_pos up)
  · rw [State.askDelay, if_pos ⟨running, up⟩, State.sendGptp_time, State.beginExchange, State.modGptp_get, State.nextExchange]
  · have same : s.askDelay q = s := if_neg (by simp [down])
    rw [same]
    exact ⟨rfl, rfl⟩

theorem State.askDelay_only : Only [.net, .time] s (s.askDelay q) :=
  .ite ((State.sendGptp_only ..).into rfl ((State.modGptp_only ..).mono rfl)) (.refl ..)

theorem State.askDelay_other : (s.askDelay q).portOf q.other = s.portOf q.other ∧
    (s.askDelay q).time.port.get q.other = s.time.port.get q.other := by
  unfold State.askDelay State.beginExchange
  split <;> simp

theorem State.askDelay_sameClock : SameClock s (s.askDelay q) := by
  unfold State.askDelay
  split
  · exact State.beginExchange_sameClock.trans (State.sendGptp_sameClock ..)
  · exact .of_only (.refl [] s) rfl rfl rfl

theorem State.askDelay_running : (s.askDelay q).time.running = s.time.running := by
  unfold State.askDelay
  split
  · rw [State.sendGptp_time]
    rfl
  · rfl

section
variable {t u : State}

theorem DelayAsked.before (h : DelayAsked q u t) (clock : SameClock s u) (port : u.portOf q = s.portOf q)
    (gptp : u.time.port.get q = s.time.port.get q) : DelayAsked q s t := by
  obtain ⟨queue, exchange, down⟩ := h
  simp only [port, gptp, clock.timeCfg, clock.portId] at queue exchange down
  exact ⟨queue, exchange, down⟩

theorem DelayAsked.after (h : DelayAsked q s u) (port : t.portOf q = u.portOf q) (gptp : t.time.port.get q = u.time.port.get q) :
    DelayAsked q s t := by
  obtain ⟨queue, exchange, down⟩ := h
  rw [← port] at queue down
  rw [← gptp] at exchange down
  exact ⟨queue, exchange, down⟩

end

/-- Both ports are asked, the second as it was before the first. -/
theorem State.askDelay_both (running : s.time.running = true) (q : Port) : DelayAsked q s ((s.askDelay .A).askDelay .B) := by
  cases q
  case A =>
    obtain ⟨port, gptp⟩ := State.askDelay_other (s := s.askDelay .A) (q := .B)
    exact (State.askDelay_asked running).after port gptp
  case B =>
    obtain ⟨port, gptp⟩ := State.askDelay_other (s := s) (q := .A)
    exact (State.askDelay_asked (State.askDelay_running.trans running)).before State.askDelay_sameClock port gptp

theorem State.syncTimeout_of_slave (slave : s.time.slave = some q) : s.syncTimeout =
    (((s.waitUntil ((s.time.port.get q).syncBy.getD s.elapsed)).modGptp q fun p => { p with syncBy := none }).modTime
      fun t => { t with offsets := [] }).setSynced false := by
  simp [State.syncTimeout, slave]

/-- A port's announcement forgotten at the end of its time. -/
def State.forgetAnnounce (q : Port) (s : State) : State :=
  (s.waitUntil (s.time.port.get q).announceBy).modGptp q fun p => { p with announce := none }

theorem State.announceTimeout_of_announced (announced : (s.time.port.get q).announce.isSome = true) :
    s.announceTimeout q = (s.forgetAnnounce q).selectMaster :=
  if_pos announced

theorem State.forgetAnnounce_get : (s.forgetAnnounce q).time.port.get q = { s.time.port.get q with announce := none } :=
  PerPort.get_modify ..

theorem State.forgetAnnounce_get_other : (s.forgetAnnounce q).time.port.get q.other = s.time.port.get q.other :=
  PerPort.get_modify_other ..

end

/-- Settles O38: each timer waits for its due instant, then queues by `sendWhere` and `askDelay`, or forgets. -/
theorem timeMessagesSent : Obligations.TimeMessagesSent := by
  unfold Obligations.TimeMessagesSent
  refine fun s running => ⟨fun grandmaster => ?sync, ?announce, ?delay, fun q slave => ?syncTimeout,
    fun q announced silent => ?announceTimeout⟩
  case sync =>
    have row := congrArg State.done (State.syncSend_of_grandmaster running grandmaster)
    have sent := State.sendWhere_only (fun q => (s.time.port.get q).asCapable = true) (.sync s.time.syncSeq true 0 0 0)
      (s.waitUntil s.time.syncDue)
    have clock : (State.sendWhere _ _ _).elapsed = _ := sent.same .clock rfl
    have time : (State.sendWhere _ _ _).time = _ := sent.same .time rfl
    refine ⟨_, row, clock, ?_, fun q => State.sendWhere_gptpQ _ _ _ q, exec_only (c := .syncSend) row⟩
    simp [clock, time]
  case announce =>
    have row := congrArg State.done (State.announceSend_of_running running)
    have sent := State.sendWhere_only (fun q => s.gptpRole q = .master) (.announce s.toAnnounce) (s.waitUntil s.time.announceDue)
    have clock : (State.sendWhere _ _ _).elapsed = _ := sent.same .clock rfl
    have time : (State.sendWhere _ _ _).time = _ := sent.same .time rfl
    refine ⟨_, row, clock, ?_, fun q => State.sendWhere_gptpQ _ _ _ q, fun slave => ?_, exec_only (c := .announceSend) row⟩
    · simp [clock, time]
    · simp [State.toAnnounce, slave, State.ownAnnounce]
  case delay =>
    have row := congrArg State.done (State.pdelayRequest_of_running running)
    have asked := State.askDelay_both (s := s.waitUntil s.time.pdelayDue) running
    have clock : (((s.waitUntil s.time.pdelayDue).askDelay .A).askDelay .B).elapsed = max s.elapsed s.time.pdelayDue :=
      (State.askDelay_only.trans State.askDelay_only).same .clock rfl
    refine ⟨_, row, clock, ?_, fun q up => ⟨(asked q).queue up, (asked q).exchange up⟩, fun q down => (asked q).down down,
      exec_only (c := .pdelayRequest) row⟩
    simp [clock]
  case syncTimeout =>
    have row := congrArg State.done (State.syncTimeout_of_slave slave)
    refine ⟨_, row, (State.setSynced_only ..).same .clock rfl, State.setSynced_time .., fun free => State.setSynced_log free,
      exec_only (c := .syncReceiptTimeout) row⟩
  case announceTimeout =>
    have row := congrArg State.done (State.announceTimeout_of_announced announced)
    have best : (s.forgetAnnounce q).bestPort = none :=
      State.bestPort_of_silent (congrArg GptpPort.announce State.forgetAnnounce_get)
        ((congrArg GptpPort.announce State.forgetAnnounce_get_other).trans silent)
    obtain ⟨slave, grandmaster⟩ := State.selectMaster_of_best (s := s.forgetAnnounce q) running best
    have ports (r : Port) : (s.forgetAnnounce q).selectMaster.time.port.get r = (s.forgetAnnounce q).time.port.get r := by
      rw [State.selectMaster_ports]
    refine ⟨_, row, (State.selectMaster_only _).same .clock rfl, ?_, (ports q.other).trans State.forgetAnnounce_get_other, slave,
      grandmaster, exec_only (c := .announceReceiptTimeout q) row⟩
    exact congrArg GptpPort.announce ((ports q).trans State.forgetAnnounce_get)

end Sys2Proof.Machine

/-!
SUPPORT. 802.1AS frames received: a frame taken from the ingress, the row of each message, and a Sync from the followed grandmaster.
-/
namespace Sys2Proof.Machine

/-! ## A frame taken -/

/-- A frame taken from the ingress, whose space was released before. -/
def State.taken (f : InFrame) (s : State) : State := s.modNet fun n => { n with inbox := n.inbox.erase f }

theorem State.takeFrame_of_found {s : State} {k : Service} {f : InFrame} (found : s.net.inbox.find? (fun x => x.service = k) = some f)
    (free : f.occupancy = 0) (quiet : s.net.paused = false) : s.takeFrame k = (some f, s.taken f) := by
  simp [State.takeFrame, found, free, State.release, quiet, State.taken, State.modNet]

theorem State.taken_only (f : InFrame) (s : State) : Only [.net] s (s.taken f) := State.modNet_only ..

theorem State.taken_sameClock (f : InFrame) (s : State) : SameClock s (s.taken f) := .of_only (s.taken_only f) rfl rfl rfl

@[simp] theorem State.taken_time (f : InFrame) (s : State) : (s.taken f).time = s.time := rfl
@[simp] theorem State.taken_elapsed (f : InFrame) (s : State) : (s.taken f).elapsed = s.elapsed := rfl

/-! ## Corrections of the time (R179) -/

theorem State.realignGates_portOf (q r : Port) (s : State) :
    ∃ g, (s.realignGates q).portOf r = { s.portOf r with gate := g } := by
  unfold State.realignGates
  split
  · cases q <;> cases r <;> exact ⟨_, rfl⟩
  · exact ⟨_, rfl⟩

@[simp] theorem State.realignGates_inbox (q : Port) (s : State) : (s.realignGates q).net.inbox = s.net.inbox := by
  unfold State.realignGates
  split <;> rfl

/-- The time stepped, and logged. -/
def State.stepLogged (delta : Int) (s : State) : State :=
  (s.setTime ((s.timeNs : Int) + delta).toNat).event .timeStep 0 (halves delta).1 (halves delta).2

theorem State.stepTime_of_ne {delta : Int} {s : State} (h : delta ≠ 0) :
    s.stepTime delta = ((s.stepLogged delta).realignGates .A).realignGates .B :=
  if_neg h

theorem State.stepTime_time {delta : Int} {s : State} (h : delta ≠ 0) :
    (s.stepTime delta).time = (s.setTime ((s.timeNs : Int) + delta).toNat).time := by
  rw [State.stepTime_of_ne h, (State.realignGates_only ..).same .time rfl, (State.realignGates_only ..).same .time rfl]
  exact (State.event_only ..).same .time rfl

theorem State.setRate_timeNs (ppb : Int) (s : State) : (s.setRate ppb).timeNs = s.timeNs := by
  simp [State.timeNs, State.setRate, TimeState.at]

theorem State.setTime_timeNs (ns : Nat) (s : State) : (s.setTime ns).timeNs = ns := by
  simp [State.timeNs, State.setTime, TimeState.at]

theorem clampInt_bounds {lo hi : Int} (h : lo ≤ hi) (v : Int) : lo ≤ clampInt lo hi v ∧ clampInt lo hi v ≤ hi :=
  ⟨Int.le_max_left .., Int.max_le.mpr ⟨h, Int.min_le_left ..⟩⟩

theorem clampInt_lt {lo hi v r : Int} (less : v < r) (above : lo < r) : clampInt lo hi v < r :=
  Int.max_lt.mpr ⟨above, Int.lt_of_le_of_lt (Int.min_le_right ..) less⟩

theorem lt_clampInt {lo hi v r : Int} (more : r < v) (below : r < hi) : r < clampInt lo hi v :=
  Int.lt_of_lt_of_le (Int.lt_min.mpr ⟨below, more⟩) (Int.le_max_right ..)

section
variable {offset : Int} {s : State}

theorem State.correct_near (near : offset.natAbs ≤ 1000000) :
    s.correct offset = s.draw.2.setRate (s.time.ratePpb - offset.sign * (1 + Config.servoPpb s.draws : Nat)) :=
  if_pos near

theorem State.correct_far (far : 1000000 < offset.natAbs) : s.correct offset = s.stepTime (-offset) := if_neg (Nat.not_le.mpr far)

theorem State.correct_near_timeNs (near : offset.natAbs ≤ 1000000) : (s.correct offset).timeNs = s.timeNs := by
  rw [State.correct_near near, State.setRate_timeNs]
  exact (State.draw_only s).timeNs rfl rfl

theorem State.correct_near_bounds (near : offset.natAbs ≤ 1000000) :
    -500000 ≤ (s.correct offset).time.ratePpb ∧ (s.correct offset).time.ratePpb ≤ 500000 := by
  rw [State.correct_near near]
  exact clampInt_bounds (by decide) _

/-- Time that is ahead is made to run slower. -/
theorem State.correct_near_slower (near : offset.natAbs ≤ 1000000) (ahead : 0 < offset) (above : -500000 < s.time.ratePpb) :
    (s.correct offset).time.ratePpb < s.time.ratePpb := by
  rw [State.correct_near near]
  refine clampInt_lt ?_ above
  rw [Int.sign_eq_one_of_pos ahead]
  omega

/-- Time that is behind is made to run faster. -/
theorem State.correct_near_faster (near : offset.natAbs ≤ 1000000) (behind : offset < 0) (below : s.time.ratePpb < 500000) :
    s.time.ratePpb < (s.correct offset).time.ratePpb := by
  rw [State.correct_near near]
  refine lt_clampInt ?_ below
  rw [Int.sign_eq_neg_one_of_neg behind]
  omega

theorem State.correct_far_time (far : 1000000 < offset.natAbs) :
    (s.correct offset).time = (s.setTime ((s.timeNs : Int) - offset).toNat).time := by
  rw [State.correct_far far, State.stepTime_time (by omega), Int.sub_eq_add_neg]

theorem State.correct_elapsed : (s.correct offset).elapsed = s.elapsed := (State.correct_only ..).same .clock rfl

theorem State.correct_far_timeNs (far : 1000000 < offset.natAbs) :
    (s.correct offset).timeNs = ((s.timeNs : Int) - offset).toNat := by
  rw [State.timeNs, State.correct_far_time far, State.correct_elapsed]
  exact State.setTime_timeNs ..

/-- A correction leaves the time base but for its anchor and its rate. -/
theorem State.correct_time (offset : Int) (s : State) :
    ∃ ns at_ ppb, (s.correct offset).time = { s.time with anchorNs := ns, anchorAt := at_, ratePpb := ppb } := by
  by_cases near : offset.natAbs ≤ 1000000
  · rw [State.correct_near near]
    exact ⟨_, _, _, rfl⟩
  · rw [State.correct_far_time (Nat.not_le.mp near)]
    exact ⟨_, _, _, rfl⟩

/-- A correction leaves a port but for its gates, which a step realigns. -/
theorem State.correct_portOf (offset : Int) (s : State) (q : Port) :
    ∃ g, (s.correct offset).portOf q = { s.portOf q with gate := g } := by
  by_cases near : offset.natAbs ≤ 1000000
  · rw [State.correct_near near]
    exact ⟨_, rfl⟩
  · have logged : (s.stepLogged (-offset)).portOf q = s.portOf q :=
      congrArg (fun n : NetState => n.port.get q) ((State.event_only ..).same .net rfl)
    obtain ⟨a, first⟩ := (s.stepLogged (-offset)).realignGates_portOf .A q
    obtain ⟨b, second⟩ := ((s.stepLogged (-offset)).realignGates .A).realignGates_portOf .B q
    rw [State.correct_far (Nat.not_le.mp near), State.stepTime_of_ne (by omega), second, first, logged]
    exact ⟨b, rfl⟩

@[simp] theorem State.correct_inbox : (s.correct offset).net.inbox = s.net.inbox := by
  by_cases near : offset.natAbs ≤ 1000000
  · rw [State.correct_near near]
    rfl
  · rw [State.correct_far (Nat.not_le.mp near), State.stepTime_of_ne (by omega), State.realignGates_inbox, State.realignGates_inbox]
    exact congrArg NetState.inbox ((State.event_only ..).same .net rfl)

theorem State.correct_sameClock : SameClock s (s.correct offset) := by
  obtain ⟨ns, at_, ppb, time⟩ := s.correct_time offset
  have only := State.correct_only offset s
  exact ⟨only.same .cfg rfl, only.same .fused rfl, by rw [time], by rw [time], by rw [time], fun q => by rw [time],
    fun q => by rw [time], fun q => by rw [time]⟩

end

/-! ## A Sync from the followed grandmaster (R181, R184) -/

/-- The offset that a Sync gives: its receipt time less origin, correction and the delay from the neighbour. -/
def State.syncOffset (q : Port) (origin : Nat) (corr : Int) (receipt : Nat) (s : State) : Int :=
  (receipt : Int) - ((origin : Int) + corr + (((s.time.port.get q).delay.getD 0 : Nat) : Int))

/-- A Sync noted: when the next one is due at the latest, and its offset. -/
def State.noteOffset (q : Port) (interval offset : Int) (s : State) : State :=
  (s.modGptp q fun p => { p with syncBy := some (s.elapsed + 3 * logNs interval) }).modTime
    fun t => { t with offsets := (offset :: t.offsets).take 8, gmOffset := offset }

/-- Every offset of a list lies within 500 ns. -/
def offsetsClose (offsets : List Int) : Bool := offsets.all fun o => decide (o.natAbs ≤ 500)

/-- The synchronised state by an offset and those before it. -/
def State.judgeSync (offset : Int) (offsets : List Int) (s : State) : State :=
  if 500 < offset.natAbs then s.setSynced false
  else if offsets.length = 8 ∧ offsetsClose offsets then s.setSynced true else s

/-- What a relayed Sync brings from its port. -/
def State.relayOf (q : Port) (rate : Int) (receipt : Nat) (s : State) : Relay :=
  ⟨receipt, (s.time.port.get q).delay.getD 0, rateProduct rate (s.time.port.get q).rate⟩

/-- A Sync relayed on a port that is a master port. -/
def State.relaySync (q : Port) (seq origin : Nat) (corr : Int) (x : Relay) (s : State) : State :=
  if s.gptpRole q = .master then s.sendGptp q (.sync seq true origin corr x.rate) (some x) else s

/-- The time corrected by the offset of a Sync. -/
def State.followSync (q : Port) (interval offset : Int) (s : State) : State := (s.noteOffset q interval offset).correct offset

section
variable {q : Port} {seq origin receipt : Nat} {corr rate interval offset : Int} {s : State}

theorem State.syncHeard_eq : s.syncHeard q seq origin corr rate interval receipt =
    ((s.followSync q interval (s.syncOffset q origin corr receipt)).judgeSync (s.syncOffset q origin corr receipt)
      ((s.syncOffset q origin corr receipt :: s.time.offsets).take 8)).relaySync q.other seq origin corr (s.relayOf q rate receipt) :=
  rfl

theorem State.judgeSync_only (offset : Int) (offsets : List Int) (s : State) : Only [.log, .time] s (s.judgeSync offset offsets) :=
  .ite (State.setSynced_only ..) (.ite (State.setSynced_only ..) (.refl ..))

theorem State.judgeSync_time (offset : Int) (offsets : List Int) (s : State) : (s.judgeSync offset offsets).time =
    { s.time with synced := if 500 < offset.natAbs then false
                            else if offsets.length = 8 ∧ offsetsClose offsets then true else s.time.synced } := by
  unfold State.judgeSync
  split
  · exact State.setSynced_time ..
  · split
    · exact State.setSynced_time ..
    · rfl

theorem State.relaySync_only (q : Port) (seq origin : Nat) (corr : Int) (x : Relay) (s : State) :
    Only [.net] s (s.relaySync q seq origin corr x) :=
  .ite (State.sendGptp_only ..) (.refl ..)

theorem State.modTime_sameClock {f : TimeState → TimeState} (configured : (f s.time).configured = s.time.configured)
    (lock : (f s.time).ppsLock = s.time.ppsLock) (slave : (f s.time).slave = s.time.slave) (port : (f s.time).port = s.time.port) :
    SameClock s (s.modTime f) :=
  ⟨rfl, rfl, configured, lock, slave, fun q => congrArg (fun p => (p.get q).asCapable) port,
    fun q => congrArg (fun p => (p.get q).announce) port, fun q => congrArg (fun p => (p.get q).sender) port⟩

theorem State.noteOffset_sameClock : SameClock s (s.noteOffset q interval offset) :=
  (State.modGptp_sameClock (f := fun p => { p with syncBy := some (s.elapsed + 3 * logNs interval) }) (fun _ => rfl) (fun _ => rfl)
    fun _ => rfl).trans (State.modTime_sameClock rfl rfl rfl rfl)

theorem State.followSync_sameClock : SameClock s (s.followSync q interval offset) :=
  State.noteOffset_sameClock.trans State.correct_sameClock

theorem State.judgeSync_sameClock {offsets : List Int} : SameClock s (s.judgeSync offset offsets) := by
  have time := s.judgeSync_time offset offsets
  have only := s.judgeSync_only offset offsets
  exact ⟨only.same .cfg rfl, only.same .fused rfl, by rw [time], by rw [time], by rw [time], fun q => by rw [time],
    fun q => by rw [time], fun q => by rw [time]⟩

/-- What a Sync leaves of the time base as it was corrected: all but the synchronised state. -/
theorem State.syncHeard_time : (s.syncHeard q seq origin corr rate interval receipt).time =
    ((s.followSync q interval (s.syncOffset q origin corr receipt)).judgeSync (s.syncOffset q origin corr receipt)
      ((s.syncOffset q origin corr receipt :: s.time.offsets).take 8)).time := by
  rw [State.syncHeard_eq]
  exact (State.relaySync_only ..).same .time rfl

theorem State.syncHeard_elapsed : (s.syncHeard q seq origin corr rate interval receipt).elapsed = s.elapsed :=
  (State.syncHeard_only ..).same .clock rfl

/-- The time base after a Sync, but for anchor and rate. -/
theorem State.syncHeard_base : ∃ ns at_ ppb synced, (s.syncHeard q seq origin corr rate interval receipt).time =
    { s.time with
      anchorNs := ns, anchorAt := at_, ratePpb := ppb, synced := synced
      offsets := (s.syncOffset q origin corr receipt :: s.time.offsets).take 8
      gmOffset := s.syncOffset q origin corr receipt
      port := s.time.port.modify q fun p => { p with syncBy := some (s.elapsed + 3 * logNs interval) } } := by
  obtain ⟨ns, at_, ppb, time⟩ := (s.noteOffset q interval (s.syncOffset q origin corr receipt)).correct_time
    (s.syncOffset q origin corr receipt)
  rw [State.syncHeard_time, State.judgeSync_time, State.followSync, time]
  exact ⟨_, _, _, _, rfl⟩

theorem State.syncHeard_gmOffset :
    (s.syncHeard q seq origin corr rate interval receipt).time.gmOffset = s.syncOffset q origin corr receipt := by
  obtain ⟨ns, at_, ppb, synced, base⟩ := State.syncHeard_base
  exact congrArg TimeState.gmOffset base

theorem State.syncHeard_offsets : (s.syncHeard q seq origin corr rate interval receipt).time.offsets =
    (s.syncOffset q origin corr receipt :: s.time.offsets).take 8 := by
  obtain ⟨ns, at_, ppb, synced, base⟩ := State.syncHeard_base
  exact congrArg TimeState.offsets base

theorem State.syncHeard_get : (s.syncHeard q seq origin corr rate interval receipt).time.port.get q =
    { s.time.port.get q with syncBy := some (s.elapsed + 3 * logNs interval) } := by
  obtain ⟨ns, at_, ppb, synced, base⟩ := State.syncHeard_base
  rw [base]
  exact PerPort.get_modify ..

theorem State.syncHeard_ratePpb : (s.syncHeard q seq origin corr rate interval receipt).time.ratePpb =
    (s.followSync q interval (s.syncOffset q origin corr receipt)).time.ratePpb := by
  rw [State.syncHeard_time, State.judgeSync_time]

theorem State.syncHeard_timeNs : (s.syncHeard q seq origin corr rate interval receipt).timeNs =
    (s.followSync q interval (s.syncOffset q origin corr receipt)).timeNs := by
  have clock : (s.followSync q interval (s.syncOffset q origin corr receipt)).elapsed = s.elapsed := State.correct_elapsed
  rw [State.timeNs, State.syncHeard_time, State.judgeSync_time, State.syncHeard_elapsed, State.timeNs, clock]
  rfl

/-- An offset of 1 ms or less leaves the time where it is. -/
theorem State.syncHeard_near (near : (s.syncOffset q origin corr receipt).natAbs ≤ 1000000) :
    (s.syncHeard q seq origin corr rate interval receipt).timeNs = s.timeNs :=
  State.syncHeard_timeNs.trans (State.correct_near_timeNs near)

theorem State.syncHeard_near_bounds (near : (s.syncOffset q origin corr receipt).natAbs ≤ 1000000) :
    -500000 ≤ (s.syncHeard q seq origin corr rate interval receipt).time.ratePpb ∧
      (s.syncHeard q seq origin corr rate interval receipt).time.ratePpb ≤ 500000 := by
  rw [State.syncHeard_ratePpb]
  exact State.correct_near_bounds near

theorem State.syncHeard_slower (near : (s.syncOffset q origin corr receipt).natAbs ≤ 1000000)
    (ahead : 0 < s.syncOffset q origin corr receipt) (above : -500000 < s.time.ratePpb) :
    (s.syncHeard q seq origin corr rate interval receipt).time.ratePpb < s.time.ratePpb := by
  rw [State.syncHeard_ratePpb]
  exact State.correct_near_slower near ahead above

theorem State.syncHeard_faster (near : (s.syncOffset q origin corr receipt).natAbs ≤ 1000000)
    (behind : s.syncOffset q origin corr receipt < 0) (below : s.time.ratePpb < 500000) :
    s.time.ratePpb < (s.syncHeard q seq origin corr rate interval receipt).time.ratePpb := by
  rw [State.syncHeard_ratePpb]
  exact State.correct_near_faster (s := s.noteOffset q interval _) near behind below

/-- A larger offset steps the time by it and leaves the rate. -/
theorem State.syncHeard_far (far : 1000000 < (s.syncOffset q origin corr receipt).natAbs) :
    (s.syncHeard q seq origin corr rate interval receipt).timeNs = ((s.timeNs : Int) - s.syncOffset q origin corr receipt).toNat ∧
      (s.syncHeard q seq origin corr rate interval receipt).time.ratePpb = s.time.ratePpb := by
  rw [State.syncHeard_timeNs, State.syncHeard_ratePpb, State.followSync, State.correct_far_timeNs far, State.correct_far_time far]
  exact ⟨rfl, rfl⟩

theorem State.syncHeard_lost (wide : 500 < (s.syncOffset q origin corr receipt).natAbs) :
    (s.syncHeard q seq origin corr rate interval receipt).time.synced = false := by
  rw [State.syncHeard_time, State.judgeSync_time]
  exact if_pos wide

theorem State.syncHeard_established (eight : (s.syncHeard q seq origin corr rate interval receipt).time.offsets.length = 8)
    (close : ∀ o ∈ (s.syncHeard q seq origin corr rate interval receipt).time.offsets, o.natAbs ≤ 500) :
    (s.syncHeard q seq origin corr rate interval receipt).time.synced = true := by
  rw [State.syncHeard_offsets] at eight close
  have narrow : ¬ 500 < (s.syncOffset q origin corr receipt).natAbs := Nat.not_lt.mpr (close _ (by simp))
  rw [State.syncHeard_time, State.judgeSync_time]
  simp only [narrow, if_false]
  exact if_pos ⟨eight, List.all_eq_true.mpr fun o mem => decide_eq_true (close o mem)⟩

/-- A Sync is relayed on the other port where that is a master port with link. -/
theorem State.syncHeard_relayed (role : s.gptpRole q.other = .master) (up : (s.portOf q.other).up = true) :
    ((s.syncHeard q seq origin corr rate interval receipt).portOf q.other).gptpQ = (s.portOf q.other).gptpQ ++
      [s.gptpFrame q.other (.sync seq true origin corr (s.relayOf q rate receipt).rate) (some (s.relayOf q rate receipt))] := by
  rw [State.syncHeard_eq]
  generalize s.syncOffset q origin corr receipt = offset
  generalize (offset :: s.time.offsets).take 8 = offsets
  have clock : SameClock s ((s.followSync q interval offset).judgeSync offset offsets) :=
    State.followSync_sameClock.trans State.judgeSync_sameClock
  obtain ⟨g, port⟩ := (s.noteOffset q interval offset).correct_portOf offset q.other
  have judged : ((s.followSync q interval offset).judgeSync offset offsets).portOf q.other = { s.portOf q.other with gate := g } :=
    (congrArg (fun n : NetState => n.port.get q.other) ((State.judgeSync_only ..).same .net rfl)).trans port
  rw [State.relaySync, if_pos ((clock.gptpRole _).trans role), State.sendGptp_gptpQ, clock.gptpFrame, judged]
  exact congrArg _ (if_pos up)

end

/-! ## GPTP_FRAME_RECEIVED -/

@[simp] theorem State.selectMaster_inbox (s : State) : s.selectMaster.net.inbox = s.net.inbox :=
  congrArg NetState.inbox ((State.selectMaster_only s).same .net rfl)

@[simp] theorem State.syncHeard_inbox (q : Port) (seq origin : Nat) (corr rate interval : Int) (receipt : Nat) (s : State) :
    (s.syncHeard q seq origin corr rate interval receipt).net.inbox = s.net.inbox := by
  have judged : ∀ offset offsets, ((s.followSync q interval offset).judgeSync offset offsets).net.inbox = s.net.inbox :=
    fun offset offsets => (congrArg NetState.inbox ((State.judgeSync_only ..).same .net rfl)).trans State.correct_inbox
  rw [State.syncHeard_eq, State.relaySync]
  split
  · rw [State.sendGptp_inbox, judged]
  · exact judged ..

/-- The oldest 802.1AS frame of the ingress, while the time base runs and no pause is in force. -/
structure GptpNext (s : State) (f : InFrame) : Prop where
  found : s.net.inbox.find? (fun x => x.service = .gptp) = some f
  free : f.occupancy = 0
  quiet : s.net.paused = false
  running : s.time.running = true

/-- That frame, as a message of the drive's domain from another clock. -/
structure GptpHeard (s : State) (f : InFrame) (g : GptpFrame) : Prop extends GptpNext s f where
  parsed : parseGptp f.payload = some g
  domain : g.domain = s.timeCfg.domain
  foreign : g.source.clock ≠ s.clockId

theorem GptpNext.takeFrame {s : State} {f : InFrame} (h : GptpNext s f) : s.takeFrame .gptp = (some f, s.taken f) :=
  State.takeFrame_of_found h.found h.free h.quiet

theorem GptpNext.malformed {s : State} {f : InFrame} (h : GptpNext s f) (bad : parseGptp f.payload = none) :
    s.gptpReceived = s.taken f := by
  simp [State.gptpReceived, h.takeFrame, bad]

theorem GptpNext.inbox {s : State} {f : InFrame} (h : GptpNext s f) : s.gptpReceived.net.inbox = s.net.inbox.erase f := by
  have taken : (s.taken f).net.inbox = s.net.inbox.erase f := rfl
  unfold State.gptpReceived
  rw [h.takeFrame, ← taken]
  dsimp only
  generalize s.taken f = u
  split
  · rfl
  · split
    · rfl
    · split
      case h_1 => rfl
      case h_2 => exact State.sendGptp_inbox ..
      case h_3 => split <;> rfl
      case h_4 =>
        split
        · split
          · rfl
          · exact State.selectMaster_inbox _
        · rfl
      case h_5 =>
        split
        · rfl
        · exact State.selectMaster_inbox _
      case h_6 =>
        split
        · rfl
        · split
          · rfl
          · exact State.syncHeard_inbox ..
      case h_7 =>
        split
        · split
          · exact State.syncHeard_inbox ..
          · rfl
        · rfl

/-! ## Each message -/

section
variable (f : InFrame) (s : State)

@[simp] theorem State.taken_timeCfg : (s.taken f).timeCfg = s.timeCfg := (s.taken_sameClock f).timeCfg
@[simp] theorem State.taken_clockId : (s.taken f).clockId = s.clockId := (s.taken_sameClock f).clockId
@[simp] theorem State.taken_portId (q : Port) : (s.taken f).portId q = s.portId q := (s.taken_sameClock f).portId q

end

/-- The frame of a Follow_Up taken, with the two-step Sync that it completes. -/
def State.syncTaken (f : InFrame) (s : State) : State := (s.taken f).modGptp f.rx.port fun p => { p with syncSeq := none }

section
variable (f : InFrame) (s : State)

theorem State.syncTaken_get : (s.syncTaken f).time.port.get f.rx.port = { s.time.port.get f.rx.port with syncSeq := none } :=
  PerPort.get_modify ..

theorem State.syncTaken_sameClock : SameClock s (s.syncTaken f) :=
  (s.taken_sameClock f).trans (State.modGptp_sameClock (fun _ => rfl) (fun _ => rfl) fun _ => rfl)

theorem State.syncTaken_syncOffset (origin : Nat) (corr : Int) (receipt : Nat) :
    (s.syncTaken f).syncOffset f.rx.port origin corr receipt =
      (receipt : Int) - ((origin : Int) + corr + (((s.time.port.get f.rx.port).delay.getD 0 : Nat) : Int)) := by
  rw [State.syncOffset, State.syncTaken_get]

theorem State.syncTaken_relayOf (rate : Int) (receipt : Nat) :
    (s.syncTaken f).relayOf f.rx.port rate receipt = s.relayOf f.rx.port rate receipt := by
  rw [State.relayOf, State.syncTaken_get, State.relayOf]

end

namespace GptpHeard
variable {s : State} {f : InFrame} {g : GptpFrame} (h : GptpHeard s f g)
include h

theorem pdelayReq {seq : Nat} (msg : g.msg = .pdelayReq seq) :
    s.gptpReceived = (s.taken f).sendGptp f.rx.port (.pdelayResp seq f.rx.stamp 0 g.source) none := by
  simp [State.gptpReceived, h.takeFrame, h.parsed, h.domain, h.foreign, h.running, msg]

theorem pdelayResp {seq t2 : Nat} {corr : Int} (msg : g.msg = .pdelayResp seq t2 corr (s.portId f.rx.port))
    (current : seq = (s.time.port.get f.rx.port).pdelaySeq) (sent : (s.time.port.get f.rx.port).t1.isSome = true) :
    s.gptpReceived = (s.taken f).modGptp f.rx.port fun p => { p with t2 := some ((t2 : Int) + corr).toNat, t4 := some f.rx.stamp } := by
  simp [State.gptpReceived, h.takeFrame, h.parsed, h.domain, h.foreign, h.running, msg, current, sent]

theorem pdelayRespFollowUp {seq t3 t1 t2 t4 : Nat} {corr : Int} (msg : g.msg = .pdelayRespFollowUp seq t3 corr (s.portId f.rx.port))
    (current : seq = (s.time.port.get f.rx.port).pdelaySeq) (h1 : (s.time.port.get f.rx.port).t1 = some t1)
    (h2 : (s.time.port.get f.rx.port).t2 = some t2) (h4 : (s.time.port.get f.rx.port).t4 = some t4) :
    s.gptpReceived = ((s.taken f).modGptp f.rx.port
      (GptpPort.measured s.timeCfg.neighborThreshNs t1 t2 ((t3 : Int) + corr).toNat t4)).selectMaster := by
  simp [State.gptpReceived, h.takeFrame, h.parsed, h.domain, h.foreign, h.running, msg, current, h1, h2, h4]

theorem announce {a : Announce} (msg : g.msg = .announce a) (other : a.identity ≠ s.clockId) (near : a.steps < 255)
    (loopless : a.path.contains s.clockId = false) : s.gptpReceived = ((s.taken f).modGptp f.rx.port fun p =>
      { p with announce := some a, sender := g.source, announceBy := s.elapsed + 3 * logNs g.interval }).selectMaster := by
  have path : s.clockId ∉ a.path := by simpa using loopless
  simp [State.gptpReceived, h.takeFrame, h.parsed, h.domain, h.foreign, h.running, msg, other, Nat.not_le.mpr near, path]

theorem sync {seq origin : Nat} {corr rate : Int} (msg : g.msg = .sync seq true origin corr rate)
    (slave : s.time.slave = some f.rx.port) (capable : (s.time.port.get f.rx.port).asCapable = true) :
    s.gptpReceived = (s.taken f).modGptp f.rx.port fun p =>
      { p with syncSeq := some (seq, f.rx.stamp), syncBy := some (s.elapsed + 3 * logNs g.interval) } := by
  simp [State.gptpReceived, h.takeFrame, h.parsed, h.domain, h.foreign, h.running, msg, slave, capable]

theorem followUp {seq origin receipt : Nat} {corr rate : Int} (msg : g.msg = .followUp seq origin corr rate)
    (slave : s.time.slave = some f.rx.port) (first : (s.time.port.get f.rx.port).syncSeq = some (seq, receipt)) :
    s.gptpReceived = (s.syncTaken f).syncHeard f.rx.port seq origin corr rate g.interval receipt := by
  simp [State.gptpReceived, h.takeFrame, h.parsed, h.domain, h.foreign, h.running, msg, slave, first, State.syncTaken]

end GptpHeard

theorem State.settle_timeNs (s : State) : s.settle.timeNs = s.timeNs := rfl

theorem State.selectMaster_modGptp_get (q : Port) (f : GptpPort → GptpPort) (s : State) :
    (s.modGptp q f).selectMaster.time.port.get q = f (s.time.port.get q) := by
  rw [State.selectMaster_ports]
  exact State.modGptp_get f

/-- Settles O37: each message has its row, and a Follow_Up is `syncHeard` at the receipt time of its Sync. -/
theorem gptpMessages : Obligations.GptpMessages := by
  unfold Obligations.GptpMessages
  intro s f found free quiet running
  have next : GptpNext s f := ⟨found, free, quiet, running⟩
  have only := exec_only (c := .gptpFrameReceived) (s := s) rfl
  refine ⟨_, rfl, next.inbox, only.same .clock rfl, only, fun bad => ?malformed, fun g parsed domain foreign => ?heard⟩
  case malformed =>
    change s.gptpReceived.time = _ ∧ s.gptpReceived.net.port = _ ∧ s.gptpReceived.log = _
    rw [next.malformed bad]
    exact ⟨rfl, rfl, rfl⟩
  case heard =>
    have h : GptpHeard s f g := { next with parsed := parsed, domain := domain, foreign := foreign }
    refine ⟨fun seq msg up => ?request, fun seq t2 corr msg current sent => congrArg State.time (h.pdelayResp msg current sent),
      fun seq t3 corr t1 t2 t4 msg current h1 h2 h4 => ?delay, fun a msg other near loopless => ?announce,
      fun seq origin corr rate msg slave capable => congrArg State.time (h.sync msg slave capable),
      fun seq origin corr rate receipt msg slave first => ?followUp⟩
    case request =>
      change (s.gptpReceived.portOf f.rx.port).gptpQ = _ ∧ s.gptpReceived.time = _
      rw [h.pdelayReq msg, State.sendGptp_gptpQ, (s.taken_sameClock f).gptpFrame]
      exact ⟨congrArg _ (if_pos up), State.sendGptp_time ..⟩
    case delay =>
      exact (congrArg (fun t : State => t.time.port.get f.rx.port) (h.pdelayRespFollowUp msg current h1 h2 h4)).trans
        (State.selectMaster_modGptp_get ..)
    case announce =>
      have port := (congrArg (fun t : State => t.time.port.get f.rx.port) (h.announce msg other near loopless)).trans
        (State.selectMaster_modGptp_get ..)
      exact ⟨congrArg GptpPort.announce port, congrArg GptpPort.sender port, congrArg GptpPort.announceBy port⟩
    case followUp =>
      rw [h.followUp msg slave first]
      simp only [State.settle_time, State.settle_portOf, State.settle_timeNs]
      rw [← s.syncTaken_syncOffset f origin corr receipt]
      refine ⟨State.syncHeard_gmOffset, State.syncHeard_offsets, ?taken, ?due, fun role up => ?onward, fun near => ?near,
        fun far => State.syncHeard_far far, fun wide => State.syncHeard_lost wide, State.syncHeard_established⟩
      case taken => rw [State.syncHeard_get, State.syncTaken_get]
      case due =>
        rw [State.syncHeard_get]
        rfl
      case onward =>
        have clock := s.syncTaken_sameClock f
        rw [State.syncHeard_relayed ((clock.gptpRole _).trans role) up, clock.gptpFrame, s.syncTaken_relayOf]
        rfl
      case near =>
        exact ⟨State.syncHeard_near near, State.syncHeard_near_bounds near, fun ahead above _ => State.syncHeard_slower near ahead above,
          fun behind _ below => State.syncHeard_faster (s := s.syncTaken f) near behind below⟩

end Sys2Proof.Machine
